-- ==== Sys2Proof/Word.lean ====
section
/-! DEFINITION. The three widths the manual uses: words and addresses, section positions, attention flags. -/

namespace Sys2Proof

/-- A 32-bit word, address, counter or pitch number (spec/00 section 5). -/
abbrev Word := BitVec 32

/-- A position of one section's 24-bit counter, in transport units (R2, R4). -/
abbrev Pos := BitVec 24

/-- The eleven attention flags or their enables, bit k being flag k of R174. -/
abbrev FlagBits := BitVec 11

end Sys2Proof
end

