-- ==== Sys2Proof/Syntax.lean ====
section
/-! DEFINITION. The places of the paper path and the commands of the part, one constructor per row of the table. -/

namespace Sys2Proof

/-- The three driven sections (R1). -/
inductive Section where
  | up | loop | down
deriving DecidableEq, Repr

/-- The five trays; tray 5 is the insert feeder (R1). -/
inductive Tray where
  | t1 | t2 | t3 | t4 | t5
deriving DecidableEq, Repr

/-- The four output bins STK1 to STK4 (R63). -/
inductive Bin where
  | b1 | b2 | b3 | b4
deriving DecidableEq, Repr

/-- Where a sheet can end: an output bin or the purge bin. -/
inductive Dest where
  | stk (b : Bin)
  | prg
deriving DecidableEq, Repr

/-- The sixteen checkpoints (R1). -/
inductive Checkpoint where
  | fd (t : Tray)
  | mrg | reg | fus | inv | rtn | mrk
  | stk (b : Bin)
  | prg
deriving DecidableEq, Repr

/-- One value for each section. -/
structure PerSection (α : Type) where
  up : α
  loop : α
  down : α
deriving DecidableEq, Repr

/-- One value for each tray. -/
structure PerTray (α : Type) where
  t1 : α
  t2 : α
  t3 : α
  t4 : α
  t5 : α
deriving DecidableEq, Repr

/-- One value for each output bin. -/
structure PerBin (α : Type) where
  b1 : α
  b2 : α
  b3 : α
  b4 : α
deriving DecidableEq, Repr

/-- One value for each checkpoint. -/
structure PerCheckpoint (α : Type) where
  fd : PerTray α
  mrg : α
  reg : α
  fus : α
  inv : α
  rtn : α
  mrk : α
  stk : PerBin α
  prg : α
deriving DecidableEq, Repr

/-- The nine words one order fetch reads: words 0, 1 and 3 to 9 of a block (R36). -/
structure OrderWords where
  link : Word
  kind : Word
  ready : Word
  w4 : Word
  w5 : Word
  w6 : Word
  w7 : Word
  w8 : Word
  w9 : Word
deriving DecidableEq, Repr

/-- The registers whose writes are ignored (R159, R170). -/
inductive IgnoredRegister where
  | stat0 | stat1 | attn
deriving DecidableEq, Repr

/-- The commands of the part: one constructor per row of spec/opcode_table.json, in the table's order.
The operands are what the rules say each event carries. -/
inductive Instr where
  /-- The reset line, with the sensor and tray-empty levels as they stand (R6, R84, R172). -/
  | resetLine (covered : PerCheckpoint Bool) (trayEmpty : PerTray Bool)
  | encoderStep (sec : Section)
  | leadingEdge (c : Checkpoint)
  | trailingEdge (c : Checkpoint)
  | sample
  | runupTimeout
  | pitchBoundary
  | pick
  | lateDeadline (c : Checkpoint)
  | stuckDeadline (c : Checkpoint)
  | transferDone
  | transferFault
  | markValue (v : Word)
  | markNoRead
  | unloadEvent (d : Dest)
  | refillEvent (t : Tray)
  | trayEmptyInput (t : Tray)
  | orderFetchComplete (w : OrderWords)
  | tailReread (v : Word)
  | chainFaultReread (v : Word)
  | returnLinkRead (v : Word)
  | continuationRead (v : Word)
  | candidateReadyWordRead (v : Word)
  | invReadyWordRead (v : Word)
  | windowLengthRead (v : Word)
  | configAddressRead (v : Word)
  | configBlockRead (v : Word)
  | mainHeadRead (v : Word)
  | recoveryHeadRead (v : Word)
  | writeComplete
  | areaWrite (v : Word)
  | loadConfig
  | run
  | halt
  | resume
  | recover
  | extend
  | pathReset
  /-- A CMD write of a code that names no command (R160, R174). -/
  | unknownCommand (code : Word)
  /-- A CMD write of any code while command busy is yes (R160). -/
  | overrun (code : Word)
  | attnRead
  | amaskWrite (v : Word)
  | ignoredRegisterWrite (r : IgnoredRegister) (v : Word)
deriving DecidableEq, Repr

end Sys2Proof
end

