-- ==== Sys2Proof/Config.lean ====
section
/-! DEFINITION. What the part fixes for good (table and queue sizes) and the one free value. -/

namespace Sys2Proof.Config

/-- Entries of the order window (R38). -/
def orderWindowSize : Nat := 64

/-- Mailpiece records (R56). -/
def mailpieceRecords : Nat := 32

/-- Sheet track records (R92). -/
def trackRecords : Nat := 24

/-- Entries of the feed schedule (R85). -/
def feedScheduleSize : Nat := 6

/-- Entries of the transfer FIFO (R108). -/
def transferFifoSize : Nat := 5

/-- Entries of the write queue (R54). -/
def writeQueueSize : Nat := 16

/-- Heads on the call stack (R45). -/
def callStackDepth : Nat := 4

/-- Bytes of the control area (section 3.1). -/
def controlAreaBytes : Nat := 640

/-- Bytes of an order block (R175). -/
def orderBlockBytes : Nat := 64

/-- Bytes of a configuration block (R177). -/
def configBlockBytes : Nat := 256

/-- Words LOAD CONFIG reads of a configuration block (R177). -/
def configWordsRead : Nat := 60

/-- FREE VALUE (log entry 16): the purge count after a settlement taken at 4,294,967,295.
R159 gives the count 32 bits and R68 lets it go on counting; neither says what follows the greatest value. -/
opaque purgeCountPastMax : Nat → Word

end Sys2Proof.Config
end

