-- ==== Sys2Proof/Machine/State.lean ====
section
/-! DEFINITION. The state of the part, block by block as spec/00 section 2.2 divides it, and its reset value. -/

namespace Sys2Proof.Machine

/-! ## Names the rules use -/

/-- Transport states (spec/01 section 1.6). -/
inductive TransportState where
  | stopped | runUp | atSpeed | runOut
deriving DecidableEq, Repr

/-- Controller states (R159). -/
inductive ControllerState where
  | unconfigured | ready | running | standby | draining | halted | stopping | jammed
deriving DecidableEq, Repr

/-- Order kinds (R37). -/
inductive Kind where
  | mpOpen | sheet | call | ret | head | pause | nop | unknown
deriving DecidableEq, Repr

/-- The chain of an order window entry (R38). -/
inductive Chain where
  | main | recovery | sequence
deriving DecidableEq, Repr

/-- The Order Fetch Unit's current chain (R49). -/
inductive Stream where
  | main | recovery
deriving DecidableEq, Repr

/-- States of an order window entry (R39). -/
inductive EntryState where
  | fetched | passed | launched | settled
deriving DecidableEq, Repr

/-- Outcomes of a disposition (R131). -/
inductive Result where
  | stacked | purged | lost | skipped | refused | passed | complete | split
deriving DecidableEq, Repr

/-- Reasons of a disposition, a purge mark or a mailpiece (R131, R176); "none" is the absent reason. -/
inductive Reason where
  | multifeed | shortSheet | transferFault | side2Late | markMismatch | markMissing | mailpiece | jam
  | shortMailpiece | mailpiecePurging | resync | badKind | badTray | noLoop | noMailpiece | badCount
  | noBin | binImpossible | callDepth | callLoop
deriving DecidableEq, Repr

/-- Command outcomes (R159). -/
inductive CommandOutcome where
  | accepted | refusedState | pathNotClear | purgeFull | config | overrun
deriving DecidableEq, Repr

/-- Validation codes (R166). -/
inductive Validation where
  | range | noFeedSlot | noTray | loopDelay | feedLead | pitchFit | transferSpan | window
deriving DecidableEq, Repr

/-- Skip reasons (R159). -/
inductive SkipReason where
  | starved | windowFull | chainFault | binWait | trayEmpty | imageWait | pathFull | noReturnSlot
  | orderHold
deriving DecidableEq, Repr

/-- Causes of a path fault (R140). -/
inductive Cause where
  | early | late | stuck | length | unexpected | stall | runupTimeout
deriving DecidableEq, Repr

/-- The place of a path fault (R140): a checkpoint, a section, or none for RUNUP_TIMEOUT. -/
inductive Place where
  | checkpoint (c : Checkpoint)
  | sec (x : Section)
  | nowhere
deriving DecidableEq, Repr

/-- The eleven attention flags (R170), in the bit order of R174. -/
inductive AttnFlag where
  | retired | jam | halted | standby | starved | binWait | trayEmpty | chainFault | purgeFull
  | command | speed
deriving DecidableEq, Repr

/-- Slot types (R21). -/
inductive Slot where
  | idle | feed | ret
deriving DecidableEq, Repr

/-! ## Installed configuration (R166, R177) -/

structure TraySettings where
  enabled : Bool
  markCheck : Bool
  media : Nat
  pickToFd : Nat
  fdToMrg : Nat
deriving DecidableEq, Repr

structure BinSettings where
  enabled : Bool
  capacity : Nat
deriving DecidableEq, Repr

/-- The fields of a configuration block as read (R177). -/
structure ConfigBlock where
  pitchLength : Nat
  frameLength : Nat
  /-- Word 2: slot map entries 0 to 15. -/
  slotsLow : Word
  /-- Word 3: slot map entries 16 to 31. -/
  slotsHigh : Word
  trays : PerTray TraySettings
  mrgToReg : Nat
  regToFus : Nat
  fusToInv : Nat
  invToRtn : Nat
  rtnToMrg : Nat
  fusToMrk : Nat
  mrkToStk : PerBin Nat
  mrkToPrg : Nat
  earlyTol : PerSection Nat
  lateTol : PerSection Nat
  lengthTol : Nat
  minGap : Nat
  duplexGate : Bool
  bins : PerBin BinSettings
  purgeCapacity : Nat
  samplePeriod : Nat
  nominal : Nat
  band : Nat
  floor : Nat
  runUpTimeout : Nat
  runOutLimit : Nat
  retireBatch : Nat
deriving DecidableEq, Repr

/-- The pitch quantities of R22. -/
structure PitchQuantities where
  circuit : Nat
  loopDelay : Nat
  residue : Int
  lmax : Nat
deriving DecidableEq, Repr

/-- The installed configuration: the block, and what the Pitch Clock computed from it (R165). -/
structure Installed where
  block : ConfigBlock
  qty : PitchQuantities
deriving DecidableEq, Repr

/-! ## Transport Control (spec/01) -/

/-- Who registered a position compare (R5); the Sheet Tracker's compares name the sheet they are for. -/
inductive CompareOwner where
  | boundary
  | pick (track : Nat)
  | late (track : Nat)
  | stuck (track : Nat) (c : Checkpoint)
deriving DecidableEq, Repr

/-- A position compare (R5). `event` is absent while the compare is held, and once the count has reached
the value it holds the three counts of that step until the event is taken (log entry 7).
`atOnce` marks a compare that was already reached when it was registered. -/
structure Compare where
  owner : CompareOwner
  sec : Section
  pos : Pos
  event : Option (PerSection Pos)
  atOnce : Bool
deriving DecidableEq, Repr

structure Transport where
  count : PerSection Pos
  run : PerSection Bool
  state : TransportState
  heldRunUp : Bool
  /-- Held sensor levels: true is covered (R6). -/
  sensors : PerCheckpoint Bool
  ref : PerSection Pos
  below : PerSection Nat
  allInBand : Nat
  /-- The running run-up timer, with the timeout it was started at (R11). -/
  runUpTimer : Option Nat
  /-- The sample interval in progress, with the period it began with (R16). -/
  samplePeriod : Option Nat
  compares : List Compare
  speedDeviation : Bool
deriving DecidableEq, Repr

/-! ## Pitch Clock (spec/02) -/

/-- A held entry of the return reservation ring; its index is the pitch modulo 64 (R26). -/
structure Reservation where
  track : Nat
  pitch : Word
deriving DecidableEq, Repr

structure PitchClock where
  running : Bool
  pitch : Word
  boundary : Pos
  /-- The held entries of the 64-entry ring; every other entry is free. -/
  ring : List Reservation
  lastFinal : Option Word
  loopUnusable : Bool
deriving DecidableEq, Repr

/-! ## Order Fetch Unit (spec/03) -/

/-- What stands in the place of the tail's link word (R43, R49). -/
inductive Tail where
  | block (addr : Word)
  | controlWord2
deriving DecidableEq, Repr

/-- Where the address of a chain fault was read (R42). -/
inductive FaultSource where
  | link (block : Word)
  | callHead (call : Nat) (block : Word)
  | returnLink (head : Word)
  | controlWord2
  | controlWord3
  | value (v : Word)
deriving DecidableEq, Repr

/-- The seven forms of the fetch position (section 3.4). -/
inductive FetchPos where
  | idle
  | next (addr : Word)
  | chainEnd (t : Tail)
  | chainFault (src : FaultSource)
  | awaitingHead (call : Nat) (head : Word)
  | returning (head : Word)
  /-- The block the return link names, and the CALL entry whose sequence is being left (R130). -/
  | continuing (block : Word) (call : Nat)
deriving DecidableEq, Repr

/-- A disposition draft (R38). -/
structure Draft where
  result : Result
  reason : Option Reason
deriving DecidableEq, Repr

/-- The sequence summary of a CALL (R130). -/
structure Summary where
  stacked : Nat
  purged : Nat
  lost : Nat
  fault : Bool
deriving DecidableEq, Repr

/-- Whether a CALL's sequence is entered (or being entered), has been left, or is not entered at all (R130, R151). -/
inductive CallStatus where
  | notEntered | pending | left
deriving DecidableEq, Repr

/-- An order window entry (R38). `id` is the model's serial number by which other records refer to it. -/
structure Entry where
  id : Nat
  addr : Word
  kind : Kind
  chain : Chain
  caller : Option Nat
  words : OrderWords
  state : EntryState
  draft : Option Draft
  /-- An order not allowed in a sequence (R48). -/
  notAllowed : Bool
  summary : Summary
  callStatus : CallStatus
  /-- A SHEET whose pick was dropped at the primary jam (R144). -/
  dropped : Bool
deriving DecidableEq, Repr

/-- A head on the call stack, with the CALL entry that entered its sequence (R45, R130). -/
structure Frame where
  head : Word
  call : Nat
deriving DecidableEq, Repr

/-- The Order Fetch Unit's reads (R53 class 4). -/
inductive FetchRead where
  | order | tail | faultSource | returnLink | continuation
deriving DecidableEq, Repr

/-- An outstanding read of the unit; `discard` marks one whose value is to be discarded (R43, R52). -/
structure OutstandingRead where
  kind : FetchRead
  discard : Bool
deriving DecidableEq, Repr

structure Fetch where
  pos : FetchPos
  /-- The order window, head first (R38). -/
  window : List Entry
  /-- The call stack, innermost head first (R45). -/
  stack : List Frame
  outer : Option Nat
  chain : Stream
  resync : Bool
  read : Option OutstandingRead
  rereadAsked : Bool
  nextId : Nat
deriving DecidableEq, Repr

/-! ## Mailpiece Unit (spec/04) -/

/-- States of a mailpiece (R56). -/
inductive MpState where
  | filling | launched | purging | settled
deriving DecidableEq, Repr

/-- A mailpiece record (R56). -/
structure Mailpiece where
  id : Nat
  number : Word
  sheetCount : Nat
  binMask : PerBin Bool
  markBase : Word
  markMask : Word
  /-- The order window entry of the OPEN. -/
  openRef : Nat
  bin : Option Bin
  taken : Nat
  launched : Nat
  committed : Nat
  stacked : Nat
  purged : Nat
  lost : Nat
  closed : Bool
  interrupted : Bool
  reason : Option Reason
  state : MpState
deriving DecidableEq, Repr

/-- The counts of an output bin (R63). -/
structure BinCounts where
  stacked : Nat
  reserved : Nat
deriving DecidableEq, Repr

structure Mail where
  /-- The records in use, in allocation order. -/
  table : List Mailpiece
  bins : PerBin BinCounts
  purgeCount : Word
  purgeFull : Bool
  binWaitArm : Bool
  /-- The OPEN at the front waiting for a free record (R59). -/
  waitingOpen : Option Nat
  nextId : Nat
deriving DecidableEq, Repr

/-! ## Launch Scheduler (spec/05) -/

/-- A feed schedule entry (R85). -/
structure Pick where
  track : Nat
  tray : Tray
  pos : Pos
deriving DecidableEq, Repr

structure Launch where
  schedule : List Pick
  candidate : Option Nat
  /-- The candidate ready-word read outstanding, with the SHEET entry it was made for (R82). -/
  candRead : Option Nat
  emptyCount : Nat
  starvedArm : Bool
  trayArm : Bool
  /-- Held tray levels: true is empty (R84). -/
  trays : PerTray Bool
  /-- A wake evaluation is due on the event under way (R89, log entry 10). -/
  wakeAsked : Bool
deriving DecidableEq, Repr

/-! ## Sheet Tracker (spec/06) and Exit Unit (spec/07) -/

/-- Path modes (spec/00 section 4). -/
inductive PathMode where
  | direct | loop
deriving DecidableEq, Repr

inductive SheetState where
  | pickPending | inPath | frozen
deriving DecidableEq, Repr

inductive TransferState where
  | none | outstanding | done | faulted | abandoned
deriving DecidableEq, Repr

inductive Side2Check where
  | notDue | pending | ready | notReady
deriving DecidableEq, Repr

/-- Mark result of a sheet (section 7.1). -/
inductive MarkResult where
  | empty
  | value (v : Word)
  | noRead
deriving DecidableEq, Repr

/-- Where and when a sheet's next leading edge is due (R95). -/
structure Due where
  expected : Pos
  early : Pos
  late : Pos
deriving DecidableEq, Repr

/-- An occupancy of a checkpoint (R92). -/
structure Occupancy where
  at_ : Checkpoint
  lead : Pos
  stuck : Pos
deriving DecidableEq, Repr

/-- A sheet track record (R92). -/
structure Sheet where
  id : Nat
  order : Nat
  mp : Nat
  tray : Tray
  mode : PathMode
  /-- The side-2 image id, absent when side 2 is absent. -/
  side2 : Option Word
  /-- True on pass 2. -/
  pass2 : Bool
  index : Nat
  mergePitch : Word
  finalPitch : Word
  last : Option Checkpoint
  next : Option Checkpoint
  due : Option Due
  /-- Occupancies, oldest first. -/
  occ : List Occupancy
  dest : Option Dest
  committed : Bool
  purge : Option Reason
  transfer : TransferState
  side2Check : Side2Check
  mark : MarkResult
  state : SheetState
deriving DecidableEq, Repr

/-- A transfer FIFO entry (R108). -/
structure Transfer where
  track : Nat
  live : Bool
deriving DecidableEq, Repr

/-- Settings of diverter D1 (R111). -/
inductive D1 where
  | towardInv | towardMrk
deriving DecidableEq, Repr

structure Track where
  /-- The records in use, in launch order. -/
  sheets : List Sheet
  queues : PerCheckpoint (List Nat)
  fifo : List Transfer
  /-- Tracking states: true is TRACKING, false is HALTED (R97). -/
  tracking : PerSection Bool
  d1 : D1
  nextId : Nat
deriving DecidableEq, Repr

structure ExitUnit where
  diverter : Dest
deriving DecidableEq, Repr

/-! ## Retire Unit (spec/08) -/

structure Retire where
  /-- How many writes of the head entry's sequence have been issued; absent when none is being retired. -/
  step : Option Nat
  retired : Word
  launched : Word
  stacked : Word
  purged : Word
  lost : Word
  skipped : Word
  batching : Nat
deriving DecidableEq, Repr

/-! ## Jam Control (spec/09) -/

/-- A path fault report (R140); the sheet is named by its order window entry. -/
structure Report where
  cause : Cause
  place : Place
  sheet : Option Nat
  counts : PerSection Pos
deriving DecidableEq, Repr

/-- The primary cause record (R142), with the block address of the sheet's order. -/
structure PrimaryCause where
  cause : Cause
  place : Place
  sheetAddr : Option Word
  counts : PerSection Pos
  pitch : Word
deriving DecidableEq, Repr

/-- An entry of the stranded list (R150). -/
structure Stranded where
  addr : Word
  number : Word
  index : Nat
  last : Option Checkpoint
deriving DecidableEq, Repr

structure Jam where
  seq : Word
  primary : Option PrimaryCause
  secondary : Word
  lastSecondary : Option (Cause × Place)
  stranded : List Stranded
  interrupted : List Word
  mainResume : Word
  mainResync : Bool
  recoveryResume : Word
  recoveryPending : Bool
  /-- JAMMED entry has been made and the stop record is still to be issued (R149 step 7). -/
  recordDue : Bool
  /-- The valid word of this jam's stop record has been issued (R154). -/
  recordIssued : Bool
deriving DecidableEq, Repr

/-! ## Memory Interface (spec/03 section 3.7) -/

/-- What a read is for (R53). -/
inductive Purpose where
  | invReady (track : Nat)
  | candidateReady
  | fetch (r : FetchRead)
  | windowLength | configAddress | configBlock | mainHead | recoveryHead
deriving DecidableEq, Repr

/-- A read request: its purpose and the addresses of the words it reads. -/
structure ReadReq where
  purpose : Purpose
  addrs : List Word
deriving DecidableEq, Repr

/-- What the completion of a write announces (R137, R154). -/
inductive WriteTag where
  | plain | retiredCount | validWord
deriving DecidableEq, Repr

structure Write where
  cls : Nat
  addr : Word
  value : Word
  tag : WriteTag
deriving DecidableEq, Repr

/-- The steps a block was taking after a write it holds (R54). -/
inductive HeldSteps where
  /-- The Retire Unit goes on with its sequence. -/
  | retire
  /-- The Order Fetch Unit goes on with step 6 of R46. -/
  | enterSequence (call : Nat) (head : Word) (w : OrderWords)
  /-- The Order Fetch Unit goes on with the rest of a chain fault (R42). -/
  | chainFault
  /-- Jam Control goes on with step 7 of R142. -/
  | endOfDrain
  /-- Jam Control goes on with the rest of the stop record (R154). -/
  | stopRecord (rest : List Write)
  /-- Nothing is left to do. -/
  | nothing
deriving DecidableEq, Repr

structure HeldWrite where
  w : Write
  steps : HeldSteps
deriving DecidableEq, Repr

inductive Access where
  | read (r : ReadReq)
  | write (w : Write)
deriving DecidableEq, Repr

/-- The access in progress; `cut` marks one that the reset line cut off from its requester (R55). -/
structure BusAccess where
  access : Access
  cut : Bool
deriving DecidableEq, Repr

structure Mem where
  windowLength : Word
  queue : List Write
  held : List HeldWrite
  waiting : List ReadReq
  bus : Option BusAccess
deriving DecidableEq, Repr

/-! ## Command and Attention Unit (spec/10) -/

/-- What the command being taken waits for (R160, R165, R167, R168). -/
inductive CommandPhase where
  | loadLength
  | loadAddress
  /-- The configuration block's address and the words read so far. -/
  | loadBlock (base : Word) (words : List Word)
  | runLength
  | runHead
  | recoverHead
deriving DecidableEq, Repr

structure CommandInProgress where
  code : Word
  phase : CommandPhase
deriving DecidableEq, Repr

structure Control where
  area : Word
  state : ControllerState
  /-- The command being taken; command busy is yes exactly while there is one (R160). -/
  cmd : Option CommandInProgress
  lastCommand : Option Word
  lastOutcome : Option CommandOutcome
  validation : Option Validation
  lastSkip : Option SkipReason
  attn : FlagBits
  amask : FlagBits
  /-- The PAUSE that brought the controller into DRAINING (R162). -/
  pauseRec : Option Nat
deriving DecidableEq, Repr

/-! ## The whole part -/

/-- What the part gives out on one event (log entry 5). -/
inductive Output where
  /-- A pick pulse to a tray (R87). -/
  | pickPulse (t : Tray)
  /-- TRANSFER REQUEST with image id and side; `side2` is true for side 2 (R107). -/
  | transferRequest (image : Word) (side2 : Bool)
  /-- A write that reached shared memory (R54). -/
  | memoryWrite (addr value : Word)
  /-- The value a read of ATTN returns (R170). -/
  | attnValue (v : Word)
deriving DecidableEq, Repr

structure State where
  transport : Transport
  clock : PitchClock
  fetch : Fetch
  mail : Mail
  launch : Launch
  track : Track
  exit : ExitUnit
  retire : Retire
  jam : Jam
  mem : Mem
  ctl : Control
  /-- The installed configuration, none before the first accepted LOAD CONFIG (R165). -/
  config : Option Installed
  /-- Commands waiting, first in, first out. -/
  pending : List Instr
  /-- What the last command made the part give out (log entry 5). -/
  out : List Output
  /-- Draws the free value of log entry 16. -/
  freeIndex : Nat
deriving DecidableEq, Repr

/-- Why a command stops the machine. -/
inductive Fault where
  /-- Raised by UNKNOWN_COMMAND alone, when its code is one of the seven codes that name a command (log entry 17).
  Safe: the row admits no such command, so no event of the hardware is lost. -/
  | codeNamesACommand
deriving DecidableEq, Repr

/-- Why a command is refused a meaning. -/
inductive Refusal where
  /-- A command that has no meaning yet, by its mnemonic. Safe: the machine stops. No arm raises it. -/
  | notModelled (mnemonic : String)
deriving DecidableEq, Repr

def perSection {α : Type} (a : α) : PerSection α := ⟨a, a, a⟩
def perTray {α : Type} (a : α) : PerTray α := ⟨a, a, a, a, a⟩
def perBin {α : Type} (a : α) : PerBin α := ⟨a, a, a, a⟩
def perCheckpoint {α : Type} (a : α) : PerCheckpoint α :=
  ⟨perTray a, a, a, a, a, a, a, perBin a, a⟩

/-- The part right after the reset line, with every sensor clear and no tray empty (log entry 1):
R16, R33, R52, R55, R74, R91, R113, R127, R139, R157, R172. -/
def State.reset : State where
  transport :=
    { count := perSection 0, run := perSection false, state := .stopped, heldRunUp := false
      sensors := perCheckpoint false, ref := perSection 0, below := perSection 0, allInBand := 0
      runUpTimer := none, samplePeriod := none, compares := [], speedDeviation := false }
  clock :=
    { running := false, pitch := 0, boundary := 0, ring := [], lastFinal := none
      loopUnusable := false }
  fetch :=
    { pos := .idle, window := [], stack := [], outer := none, chain := .main, resync := false
      read := none, rereadAsked := false, nextId := 0 }
  mail :=
    { table := [], bins := perBin ⟨0, 0⟩, purgeCount := 0, purgeFull := false, binWaitArm := true
      waitingOpen := none, nextId := 0 }
  launch :=
    { schedule := [], candidate := none, candRead := none, emptyCount := 0, starvedArm := true
      trayArm := true, trays := perTray false, wakeAsked := false }
  track :=
    { sheets := [], queues := perCheckpoint [], fifo := [], tracking := perSection false
      d1 := .towardMrk, nextId := 0 }
  exit := { diverter := .prg }
  retire :=
    { step := none, retired := 0, launched := 0, stacked := 0, purged := 0, lost := 0, skipped := 0
      batching := 0 }
  jam :=
    { seq := 0, primary := none, secondary := 0, lastSecondary := none, stranded := []
      interrupted := [], mainResume := 0, mainResync := false, recoveryResume := 0
      recoveryPending := false, recordDue := false, recordIssued := false }
  mem := { windowLength := 0, queue := [], held := [], waiting := [], bus := none }
  ctl :=
    { area := 0, state := .unconfigured, cmd := none, lastCommand := none, lastOutcome := none
      validation := none, lastSkip := none, attn := 0, amask := 0, pauseRec := none }
  config := none
  pending := []
  out := []
  freeIndex := 0

end Sys2Proof.Machine
end

