-- ==== Sys2Proof/Machine/Ops.lean ====
section
/-! DEFINITION. The named operations every block uses: places, position and pitch arithmetic, the window check,
updates of one block, the tables, position compares, and issuing writes and reads. -/

namespace Sys2Proof

/-! ## One value for each place -/

def PerSection.get {α : Type} (p : PerSection α) : Section → α
  | .up => p.up
  | .loop => p.loop
  | .down => p.down

def PerSection.set {α : Type} (p : PerSection α) (x : Section) (a : α) : PerSection α :=
  match x with
  | .up => { p with up := a }
  | .loop => { p with loop := a }
  | .down => { p with down := a }

def PerSection.map {α β : Type} (f : α → β) (p : PerSection α) : PerSection β :=
  ⟨f p.up, f p.loop, f p.down⟩

/-- One value for each section, from the section. -/
def PerSection.of {α : Type} (f : Section → α) : PerSection α :=
  ⟨f .up, f .loop, f .down⟩

def PerSection.all (p : PerSection Bool) : Bool := p.up && p.loop && p.down
def PerSection.any (p : PerSection Bool) : Bool := p.up || p.loop || p.down

def PerTray.get {α : Type} (p : PerTray α) : Tray → α
  | .t1 => p.t1
  | .t2 => p.t2
  | .t3 => p.t3
  | .t4 => p.t4
  | .t5 => p.t5

def PerTray.set {α : Type} (p : PerTray α) (t : Tray) (a : α) : PerTray α :=
  match t with
  | .t1 => { p with t1 := a }
  | .t2 => { p with t2 := a }
  | .t3 => { p with t3 := a }
  | .t4 => { p with t4 := a }
  | .t5 => { p with t5 := a }

def PerTray.toList {α : Type} (p : PerTray α) : List α := [p.t1, p.t2, p.t3, p.t4, p.t5]

def PerTray.map {α β : Type} (f : α → β) (p : PerTray α) : PerTray β :=
  ⟨f p.t1, f p.t2, f p.t3, f p.t4, f p.t5⟩

def PerBin.get {α : Type} (p : PerBin α) : Bin → α
  | .b1 => p.b1
  | .b2 => p.b2
  | .b3 => p.b3
  | .b4 => p.b4

def PerBin.set {α : Type} (p : PerBin α) (b : Bin) (a : α) : PerBin α :=
  match b with
  | .b1 => { p with b1 := a }
  | .b2 => { p with b2 := a }
  | .b3 => { p with b3 := a }
  | .b4 => { p with b4 := a }

def PerBin.toList {α : Type} (p : PerBin α) : List α := [p.b1, p.b2, p.b3, p.b4]

def PerBin.map {α β : Type} (f : α → β) (p : PerBin α) : PerBin β :=
  ⟨f p.b1, f p.b2, f p.b3, f p.b4⟩

/-- The bins in the order R64 examines them. -/
def Bin.order : List Bin := [.b1, .b2, .b3, .b4]

def PerCheckpoint.get {α : Type} (p : PerCheckpoint α) : Checkpoint → α
  | .fd t => p.fd.get t
  | .mrg => p.mrg
  | .reg => p.reg
  | .fus => p.fus
  | .inv => p.inv
  | .rtn => p.rtn
  | .mrk => p.mrk
  | .stk b => p.stk.get b
  | .prg => p.prg

def PerCheckpoint.set {α : Type} (p : PerCheckpoint α) (c : Checkpoint) (a : α) : PerCheckpoint α :=
  match c with
  | .fd t => { p with fd := p.fd.set t a }
  | .mrg => { p with mrg := a }
  | .reg => { p with reg := a }
  | .fus => { p with fus := a }
  | .inv => { p with inv := a }
  | .rtn => { p with rtn := a }
  | .mrk => { p with mrk := a }
  | .stk b => { p with stk := p.stk.set b a }
  | .prg => { p with prg := a }

def PerCheckpoint.map {α β : Type} (f : α → β) (p : PerCheckpoint α) : PerCheckpoint β :=
  ⟨p.fd.map f, f p.mrg, f p.reg, f p.fus, f p.inv, f p.rtn, f p.mrk, p.stk.map f, f p.prg⟩

def PerCheckpoint.toList {α : Type} (p : PerCheckpoint α) : List α :=
  p.fd.toList ++ [p.mrg, p.reg, p.fus, p.inv, p.rtn, p.mrk] ++ p.stk.toList ++ [p.prg]

/-- The section each checkpoint belongs to (R1). -/
def Checkpoint.sec : Checkpoint → Section
  | .fd _ | .mrg | .reg | .fus => .up
  | .inv | .rtn => .loop
  | .mrk | .stk _ | .prg => .down

def Dest.checkpoint : Dest → Checkpoint
  | .stk b => .stk b
  | .prg => .prg

/-- The destination whose entry a checkpoint is, for STK1 to STK4 and PRG. -/
def Checkpoint.dest? : Checkpoint → Option Dest
  | .stk b => some (.stk b)
  | .prg => some .prg
  | .fd _ | .mrg | .reg | .fus | .inv | .rtn | .mrk => none

namespace Machine

/-! ## Positions and pitch numbers -/

/-- A position: anchor plus distance, modulo 2^24 (R4). -/
def posAdd (anchor : Pos) (distance : Nat) : Pos := anchor + BitVec.ofNat 24 distance

/-- A position behind an anchor, brought into range by adding M (R4). -/
def posSub (anchor : Pos) (distance : Nat) : Pos := anchor - BitVec.ofNat 24 distance

/-- The signed difference of two positions, from -8,388,608 to 8,388,607 (R4). -/
def posDiff (a b : Pos) : Int := (a - b).toInt

/-- A length: the unsigned difference (R4). -/
def posLength (trail lead : Pos) : Nat := (trail - lead).toNat

/-- "The count reaches X" (R5). -/
def reaches (count x : Pos) : Bool := 0 ≤ posDiff count x

/-- The signed 32-bit difference by which pitch numbers are compared (R17). -/
def pitchDiff (a b : Word) : Int := (a - b).toInt

/-- Pitch a is greater than pitch b (R17). -/
def pitchGreater (a b : Word) : Bool := 0 < pitchDiff a b

/-- The ring index of a pitch (R26). -/
def ringIndex (p : Word) : Nat := p.toNat % 64

/-! ## Addresses (R34, R173, R175) -/

/-- The address of word k of a record. -/
def wordAddr (base : Word) (k : Nat) : Word := base + BitVec.ofNat 32 (4 * k)

/-- The offset of an address in the window, modulo 2^32 (R34). -/
def windowOffset (area addr : Word) : Nat := (addr - area).toNat

/-- The window check of a record of `bytes` bytes aligned to 64 (R34). -/
def recordInWindow (area windowLength addr : Word) (bytes : Nat) : Bool :=
  addr.toNat % 64 == 0 && decide (Config.controlAreaBytes ≤ windowOffset area addr)
    && decide (windowOffset area addr + bytes ≤ windowLength.toNat)

/-! ## Updates of one block -/

namespace State

def onTransport (f : Transport → Transport) (s : State) : State := { s with transport := f s.transport }
def onClock (f : PitchClock → PitchClock) (s : State) : State := { s with clock := f s.clock }
def onFetch (f : Fetch → Fetch) (s : State) : State := { s with fetch := f s.fetch }
def onMail (f : Mail → Mail) (s : State) : State := { s with mail := f s.mail }
def onLaunch (f : Launch → Launch) (s : State) : State := { s with launch := f s.launch }
def onTrack (f : Track → Track) (s : State) : State := { s with track := f s.track }
def onExit (f : ExitUnit → ExitUnit) (s : State) : State := { s with exit := f s.exit }
def onRetire (f : Retire → Retire) (s : State) : State := { s with retire := f s.retire }
def onJam (f : Jam → Jam) (s : State) : State := { s with jam := f s.jam }
def onMem (f : Mem → Mem) (s : State) : State := { s with mem := f s.mem }
def onCtl (f : Control → Control) (s : State) : State := { s with ctl := f s.ctl }

/-- The part at the start of an event: nothing given out yet. -/
def fresh (s : State) : State := { s with out := [] }

/-- The part gives something out. -/
def emit (o : Output) (s : State) : State := { s with out := s.out ++ [o] }

/-- The window check of an address used as an order block (R34). -/
def orderAddrOk (s : State) (addr : Word) : Bool :=
  recordInWindow s.ctl.area s.mem.windowLength addr Config.orderBlockBytes

/-- The window check of a configuration block address (R34, R177). -/
def configAddrOk (s : State) (addr : Word) : Bool :=
  recordInWindow s.ctl.area s.mem.windowLength addr Config.configBlockBytes

/-- The address of control area word k (R34, section 11.3). -/
def controlWord (s : State) (k : Nat) : Word := wordAddr s.ctl.area k

/-! ## The order window -/

def findEntry (s : State) (id : Nat) : Option Entry := s.fetch.window.find? (·.id == id)

def updEntry (id : Nat) (f : Entry → Entry) : State → State :=
  onFetch fun u => { u with window := u.window.map fun e => if e.id = id then f e else e }

/-- Gives an entry a state and a draft. -/
def setEntry (id : Nat) (st : EntryState) (r : Result) (why : Option Reason) : State → State :=
  updEntry id fun e => { e with state := st, draft := some ⟨r, why⟩ }

/-- The front: the first entry not yet taken (section 3.3). -/
def front (s : State) : Option Entry := s.fetch.window.find? (·.state == .fetched)

/-! ## The mailpiece table -/

def findMp (s : State) (id : Nat) : Option Mailpiece := s.mail.table.find? (·.id == id)

def updMp (id : Nat) (f : Mailpiece → Mailpiece) : State → State :=
  onMail fun u => { u with table := u.table.map fun m => if m.id = id then f m else m }

/-- The current mailpiece: the record most recently allocated, as long as it is not closed (R57). -/
def currentMp (s : State) : Option Mailpiece :=
  match s.mail.table.getLast? with
  | some m => if m.closed then none else some m
  | none => none

def updBin (b : Bin) (f : BinCounts → BinCounts) : State → State :=
  onMail fun u => { u with bins := u.bins.set b (f (u.bins.get b)) }

/-! ## The sheet track table -/

def findSheet (s : State) (id : Nat) : Option Sheet := s.track.sheets.find? (·.id == id)

def updSheet (id : Nat) (f : Sheet → Sheet) : State → State :=
  onTrack fun u => { u with sheets := u.sheets.map fun x => if x.id = id then f x else x }

/-! ## Position compares (R5) -/

/-- Registers a compare. It is tested once: reached already, its event is taken at once (log entry 8); else it is held. -/
def registerCompare (owner : CompareOwner) (x : Section) (pos : Pos) : State → State :=
  onTransport fun u =>
    let reached := reaches (u.count.get x) pos
    { u with
      compares := u.compares ++
        [{ owner := owner, sec := x, pos := pos, event := if reached then some u.count else none
           atOnce := reached }] }

/-- Withdraws every compare whose owner satisfies p, held or with its event not yet taken (R5). -/
def withdrawOwner (p : CompareOwner → Bool) : State → State :=
  onTransport fun u => { u with compares := u.compares.filter fun k => !p k.owner }

/-! ## Issuing writes and reads (R53, R54) -/

/-- The write queue has room for one more write (R54). -/
def queueHasRoom (s : State) : Bool := decide (s.mem.queue.length < Config.writeQueueSize)

/-- Issues a write: into the queue when it has room, and the block goes on with `steps`;
otherwise the block holds the write and those steps (R54, log entry 11). -/
def issueWrite (w : Write) (later : HeldSteps) (steps : State → State) (s : State) : State :=
  if s.queueHasRoom then
    steps (s.onMem fun u => { u with queue := u.queue ++ [w] })
  else
    s.onMem fun u => { u with held := u.held ++ [⟨w, later⟩] }

/-- Puts a read request among those waiting for the bus (R53). -/
def requestRead (p : Purpose) (addrs : List Word) : State → State :=
  onMem fun u => { u with waiting := u.waiting ++ [⟨p, addrs⟩] }

end State
end Machine
end Sys2Proof
end

