-- ==== Sys2Proof/Machine/Flags.lean ====
section
/-! DEFINITION. The register fields: ATTN, AMASK and the attention line (R170, R171), and the STAT words (R159, R174). -/

namespace Sys2Proof.Machine

/-- The bit of ATTN and AMASK at which a flag stands (R174). -/
def AttnFlag.bit : AttnFlag → Nat
  | .retired => 0
  | .jam => 1
  | .halted => 2
  | .standby => 3
  | .starved => 4
  | .binWait => 5
  | .trayEmpty => 6
  | .chainFault => 7
  | .purgeFull => 8
  | .command => 9
  | .speed => 10

def AttnFlag.mask (f : AttnFlag) : FlagBits := BitVec.ofNat 11 (2 ^ f.bit)

namespace State

/-- Sets an attention flag; one already set stays set (R170). -/
def setAttn (f : AttnFlag) : State → State := onCtl fun u => { u with attn := u.attn ||| f.mask }

/-- Whether a flag is set. -/
def attnHas (s : State) (f : AttnFlag) : Bool := s.ctl.attn.getLsbD f.bit

/-- The word a read of ATTN returns (R170, R174). -/
def attnWord (s : State) : Word := s.ctl.attn.setWidth 32

/-- The attention line is asserted exactly when ATTN AND AMASK is nonzero (R171). -/
def attentionLine (s : State) : Bool := s.ctl.attn &&& s.ctl.amask != 0

/-- A read of AREA (R158). -/
def areaRead (s : State) : Word := s.ctl.area

/-- A read of AMASK: positions that belong to no flag read as 0 (R171). -/
def amaskRead (s : State) : Word := s.ctl.amask.setWidth 32

/-- A read of CMD: the code of the command being taken, or 0 (R160). -/
def cmdRead (s : State) : Word :=
  match s.ctl.cmd with
  | some c => c.code
  | none => 0

def commandBusy (s : State) : Bool := s.ctl.cmd.isSome

end State

/-! ## Codes of STAT word 0 (R174) -/

def ControllerState.code : ControllerState → Nat
  | .unconfigured => 0
  | .ready => 1
  | .running => 2
  | .standby => 3
  | .draining => 4
  | .halted => 5
  | .stopping => 6
  | .jammed => 7

def TransportState.code : TransportState → Nat
  | .stopped => 0
  | .runUp => 1
  | .atSpeed => 2
  | .runOut => 3

def CommandOutcome.code : CommandOutcome → Nat
  | .accepted => 1
  | .refusedState => 2
  | .pathNotClear => 3
  | .purgeFull => 4
  | .config => 5
  | .overrun => 6

def Validation.code : Validation → Nat
  | .range => 1
  | .noFeedSlot => 2
  | .noTray => 3
  | .loopDelay => 4
  | .feedLead => 5
  | .pitchFit => 6
  | .transferSpan => 7
  | .window => 8

def SkipReason.code : SkipReason → Nat
  | .starved => 1
  | .windowFull => 2
  | .chainFault => 3
  | .binWait => 4
  | .trayEmpty => 5
  | .imageWait => 6
  | .pathFull => 7
  | .noReturnSlot => 8
  | .orderHold => 9

/-- The code of a field that may be none, which reads as 0. -/
def codeOr0 {α : Type} (code : α → Nat) : Option α → Nat
  | none => 0
  | some a => code a

/-- A field placed with its bit 0 at bit `lo` of a word. -/
def placed (lo n : Nat) : Word := BitVec.ofNat 32 (n * 2 ^ lo)

/-- STAT word 0 (R159, R174): bits 7 and 28 to 31 read as 0, and the last command shows modulo 16. -/
def State.statWord0 (s : State) : Word :=
  placed 0 s.ctl.state.code ||| placed 4 s.transport.state.code ||| placed 6 s.commandBusy.toNat
    ||| placed 8 (codeOr0 BitVec.toNat s.ctl.lastCommand % 16)
    ||| placed 12 (codeOr0 CommandOutcome.code s.ctl.lastOutcome)
    ||| placed 16 (codeOr0 Validation.code s.ctl.validation)
    ||| placed 20 s.clock.loopUnusable.toNat ||| placed 21 s.jam.recoveryPending.toNat
    ||| placed 22 s.transport.speedDeviation.toNat ||| placed 23 s.mail.purgeFull.toNat
    ||| placed 24 (codeOr0 SkipReason.code s.ctl.lastSkip)

/-- STAT word 1: the purge count (R159, R174). -/
def State.statWord1 (s : State) : Word := s.mail.purgeCount

end Sys2Proof.Machine
end

