-- ==== Sys2Proof/Machine/Operands.lean ====
section
/-! DEFINITION. The shared records as the part reads and writes them: order blocks (R175), dispositions (R176),
the configuration block with its checks and pitch quantities (R22, R25, R166, R177), and place codes (R173). -/

namespace Sys2Proof.Machine

/-! ## Order blocks (R175) -/

/-- The kind a kind word names (R37, R175). -/
def kindOf (w : Word) : Kind :=
  match w.toNat with
  | 1 => .mpOpen
  | 2 => .sheet
  | 3 => .call
  | 4 => .ret
  | 5 => .head
  | 6 => .pause
  | 7 => .nop
  | _ => .unknown

/-- The tray a SHEET's word 4 names, at any value of the word (R76, R175). -/
def trayOf (w : Word) : Option Tray :=
  match w.toNat with
  | 1 => some .t1
  | 2 => some .t2
  | 3 => some .t3
  | 4 => some .t4
  | 5 => some .t5
  | _ => none

/-- The path mode: LOOP is 2 and every other value is DIRECT (R76, R175). -/
def modeOf (w : Word) : PathMode := if w.toNat = 2 then .loop else .direct

/-- Side 1 ready: bit 0 of the ready word (R175). -/
def side1Ready (ready : Word) : Bool := ready.getLsbD 0

/-- Side 2 ready: bit 1 of the ready word (R175). -/
def side2Ready (ready : Word) : Bool := ready.getLsbD 1

/-- The side-2 image id of a SHEET: absent for a DIRECT sheet and when bit 0 of word 7 is clear (R92, R175). -/
def side2Of (w : OrderWords) : Option Word :=
  if modeOf w.w5 = .loop ∧ w.w7.getLsbD 0 then some w.w8 else none

/-- The bins bits 0 to 3 of an OPEN's word 6 name (R175). -/
def binMaskOf (w : Word) : PerBin Bool := ⟨w.getLsbD 0, w.getLsbD 1, w.getLsbD 2, w.getLsbD 3⟩

/-- The word addresses an order fetch reads: words 0, 1 and 3 to 9 (R36). -/
def orderReadAddrs (base : Word) : List Word := [0, 1, 3, 4, 5, 6, 7, 8, 9].map (wordAddr base)

/-! ## Dispositions (R176) -/

def Result.code : Result → Nat
  | .stacked => 1
  | .purged => 2
  | .lost => 3
  | .skipped => 4
  | .refused => 5
  | .passed => 6
  | .complete => 7
  | .split => 8

def Reason.code : Reason → Nat
  | .multifeed => 1
  | .shortSheet => 2
  | .transferFault => 3
  | .side2Late => 4
  | .markMismatch => 5
  | .markMissing => 6
  | .mailpiece => 7
  | .jam => 8
  | .shortMailpiece => 9
  | .mailpiecePurging => 16
  | .resync => 17
  | .badKind => 32
  | .badTray => 33
  | .noLoop => 34
  | .noMailpiece => 35
  | .badCount => 36
  | .noBin => 37
  | .binImpossible => 38
  | .callDepth => 39
  | .callLoop => 40

/-- The reason code of a reason that may be none (R176). -/
def reasonCode : Option Reason → Nat
  | none => 0
  | some r => r.code

/-- The disposition word: outcome in bits 0 to 7, reason in bits 8 to 15 (R176). -/
def dispositionWord (d : Draft) : Word := BitVec.ofNat 32 (d.result.code + 256 * reasonCode d.reason)

/-- The bin code of an OPEN's result fields: 0 none, 1 to 4 (R175). -/
def binCode : Option Bin → Nat
  | none => 0
  | some .b1 => 1
  | some .b2 => 2
  | some .b3 => 3
  | some .b4 => 4

/-! ## Place and cause codes (R173, R178) -/

def Checkpoint.code : Checkpoint → Nat
  | .fd .t1 => 1
  | .fd .t2 => 2
  | .fd .t3 => 3
  | .fd .t4 => 4
  | .fd .t5 => 5
  | .mrg => 6
  | .reg => 7
  | .fus => 8
  | .inv => 9
  | .rtn => 10
  | .mrk => 11
  | .stk .b1 => 12
  | .stk .b2 => 13
  | .stk .b3 => 14
  | .stk .b4 => 15
  | .prg => 16

def Place.code : Place → Nat
  | .checkpoint c => Checkpoint.code c
  | .sec .up => 17
  | .sec .loop => 18
  | .sec .down => 19
  | .nowhere => 0

def Cause.code : Cause → Nat
  | .early => 1
  | .late => 2
  | .stuck => 3
  | .length => 4
  | .unexpected => 5
  | .stall => 6
  | .runupTimeout => 7

/-- The sections of a place (R140): all three for RUNUP_TIMEOUT. -/
def Place.sections : Place → PerSection Bool
  | .checkpoint c => (perSection false).set c.sec true
  | .sec x => (perSection false).set x true
  | .nowhere => perSection true

/-! ## The configuration block (R177) -/

/-- Word k of the words read. -/
def word (ws : List Word) (k : Nat) : Word := (ws[k]?).getD 0

def trayAt (ws : List Word) (k : Nat) : TraySettings :=
  { enabled := (word ws k).getLsbD 0, markCheck := (word ws k).getLsbD 1
    media := (word ws (k + 1)).toNat, pickToFd := (word ws (k + 2)).toNat
    fdToMrg := (word ws (k + 3)).toNat }

def binAt (ws : List Word) (k : Nat) : BinSettings :=
  { enabled := (word ws k).getLsbD 0, capacity := (word ws (k + 1)).toNat }

/-- The block the words 0 to 59 spell (R177). -/
def configBlockOf (ws : List Word) : ConfigBlock :=
  let n (k : Nat) : Nat := (word ws k).toNat
  { pitchLength := n 0
    frameLength := n 1
    slotsLow := word ws 2
    slotsHigh := word ws 3
    trays := ⟨trayAt ws 4, trayAt ws 8, trayAt ws 12, trayAt ws 16, trayAt ws 20⟩
    mrgToReg := n 24
    regToFus := n 25
    fusToInv := n 26
    invToRtn := n 27
    rtnToMrg := n 28
    fusToMrk := n 29
    mrkToStk := ⟨n 30, n 31, n 32, n 33⟩
    mrkToPrg := n 34
    earlyTol := ⟨n 35, n 37, n 39⟩
    lateTol := ⟨n 36, n 38, n 40⟩
    lengthTol := n 41
    minGap := n 42
    duplexGate := (word ws 43).getLsbD 0
    bins := ⟨binAt ws 44, binAt ws 46, binAt ws 48, binAt ws 50⟩
    purgeCapacity := n 52
    samplePeriod := n 53
    nominal := n 54
    band := n 55
    floor := n 56
    runUpTimeout := n 57
    runOutLimit := n 58
    retireBatch := n 59 }

/-- The code of slot map entry k (R177). -/
def ConfigBlock.slotCode (b : ConfigBlock) (k : Nat) : Nat :=
  if k < 16 then b.slotsLow.toNat / 4 ^ k % 4 else b.slotsHigh.toNat / 4 ^ (k - 16) % 4

/-- The slot type a code names; code 3 names none (R177). -/
def slotOf : Nat → Option Slot
  | 0 => some .idle
  | 1 => some .feed
  | 2 => some .ret
  | _ => none

/-- The slot type of frame entry k. -/
def ConfigBlock.slot (b : ConfigBlock) (k : Nat) : Option Slot := slotOf (b.slotCode k)

/-- The slot type of pitch p: entry p mod N (R21). -/
def ConfigBlock.slotOfPitch (b : ConfigBlock) (p : Word) : Option Slot := b.slot (p.toNat % b.frameLength)

/-- The feed length of a tray (spec/00 section 4). -/
def TraySettings.feedLength (t : TraySettings) : Nat := t.pickToFd + t.fdToMrg

/-- The largest feed length among the enabled trays (R22). -/
def ConfigBlock.longestFeed (b : ConfigBlock) : Nat :=
  b.trays.toList.foldl (fun m t => if t.enabled then max m t.feedLength else m) 0

/-- C, D, residue and Lmax (R22). -/
def ConfigBlock.quantities (b : ConfigBlock) : PitchQuantities :=
  let c := b.mrgToReg + b.regToFus + b.fusToInv + b.invToRtn + b.rtnToMrg
  let d := (c + b.pitchLength / 2) / b.pitchLength
  { circuit := c
    loopDelay := d
    residue := (c : Int) - (d * b.pitchLength : Nat)
    lmax := (b.longestFeed + b.pitchLength - 1) / b.pitchLength + 1 }

/-- The loop is usable when some FEED slot has a RETURN slot D pitches later (R25). -/
def Installed.loopUsable (k : Installed) : Bool :=
  (List.range k.block.frameLength).any fun i =>
    k.block.slot i == some .feed
      && k.block.slot ((i + k.qty.loopDelay) % k.block.frameLength) == some .ret

def inRange (lo hi n : Nat) : Bool := decide (lo ≤ n) && decide (n ≤ hi)

def TraySettings.inRange (t : TraySettings) : Bool :=
  !t.enabled || (Machine.inRange 2000 12000 t.media && Machine.inRange 100 65535 t.pickToFd
    && Machine.inRange 100 65535 t.fdToMrg)

def BinSettings.inRange (x : BinSettings) : Bool := !x.enabled || Machine.inRange 1 65535 x.capacity

/-- The RANGE check (R166 row 1). -/
def ConfigBlock.rangeOk (b : ConfigBlock) : Bool :=
  inRange 1024 32767 b.pitchLength && inRange 1 32 b.frameLength
    && (List.range b.frameLength).all (fun k => (b.slot k).isSome)
    && b.trays.toList.all TraySettings.inRange
    && ([b.mrgToReg, b.regToFus, b.fusToInv, b.invToRtn, b.rtnToMrg, b.fusToMrk, b.mrkToPrg]
        ++ b.mrkToStk.toList).all (inRange 100 262143)
    && [b.earlyTol.up, b.earlyTol.loop, b.earlyTol.down, b.lateTol.up, b.lateTol.loop,
        b.lateTol.down, b.lengthTol, b.minGap].all (inRange 0 4095)
    && b.bins.toList.all BinSettings.inRange && inRange 1 65535 b.purgeCapacity
    && inRange 1 250 b.samplePeriod && inRange 1 1000000 b.nominal && inRange 0 b.nominal b.band
    && inRange 0 (b.nominal - b.band) b.floor && inRange 1 255 b.runUpTimeout
    && inRange 0 1023 b.runOutLimit && inRange 0 255 b.retireBatch

/-- The checks of R166 in their order: the first that fails, or none. -/
def ConfigBlock.validate (b : ConfigBlock) : Option Validation :=
  let q := b.quantities
  if !b.rangeOk then some .range
  else if !(List.range b.frameLength).any (fun k => b.slot k == some .feed) then some .noFeedSlot
  else if !b.trays.toList.any (·.enabled) then some .noTray
  else if !inRange 2 48 q.loopDelay || decide (b.pitchLength / 8 < q.residue.natAbs) then
    some .loopDelay
  else if 6 < q.lmax then some .feedLead
  else if b.trays.toList.any fun t =>
      t.enabled && decide (b.pitchLength < t.media + b.minGap + q.residue.natAbs) then
    some .pitchFit
  else if 4 * b.pitchLength < b.regToFus then some .transferSpan
  else none

/-- The run-out limit as applied: 0 is taken as 1 (R88). -/
def State.runOutLimit (s : State) : Nat :=
  match s.config with
  | some k => max 1 k.block.runOutLimit
  | none => 1

/-- The retire batch as applied: 0 is taken as 1 (R137). -/
def State.retireBatch (s : State) : Nat :=
  match s.config with
  | some k => max 1 k.block.retireBatch
  | none => 1

end Sys2Proof.Machine
end

