-- ==== Sys2Proof/Machine/Mail.lean ====
section
/-! DEFINITION. The Mailpiece Unit (spec/04): opening, assigning sheets, bins, purging, settlement. -/

namespace Sys2Proof.Machine.State

/-! ## Closing and purging (R57, R70, R71) -/

def closeMp (m : Nat) : State → State := updMp m fun r => { r with closed := true }

/-- A SHEET of mailpiece m has been taken: the count rises, and the record closes when it reaches the sheet count (R57). -/
def countTaken (m : Nat) : State → State :=
  updMp m fun r =>
    { r with taken := r.taken + 1, closed := r.closed || decide (r.sheetCount ≤ r.taken + 1) }

/-- Step 1 of R71: every launched sheet of the mailpiece that is not committed and carries no mark is marked MAILPIECE. -/
def markMailpieceSheets (m : Nat) : State → State :=
  onTrack fun u =>
    { u with
      sheets := u.sheets.map fun x =>
        if x.mp = m ∧ x.committed = false ∧ x.purge = none then
          { x with purge := some .mailpiece }
        else x }

/-- Step 2 of R71: the mailpiece's bin gives back the sheet count minus the committed-to-bin count. -/
def releaseReservation (m : Mailpiece) (s : State) : State :=
  match m.bin with
  | none => s
  | some b => s.updBin b fun c => { c with reserved := c.reserved - (m.sheetCount - m.committed) }

/-- Step 3 of R71: the candidate of the mailpiece is skipped at once, except in STOPPING. -/
def skipCandidate (m : Nat) (s : State) : State :=
  match s.launch.candidate, s.currentMp with
  | some c, some cur =>
    if cur.id = m ∧ s.ctl.state ≠ .stopping then
      ((s.setEntry c .passed .skipped (some .mailpiecePurging)).onLaunch
        fun u => { u with candidate := none }).countTaken m
    else s
  | _, _ => s

/-- A cause of R70 for mailpiece m: FILLING or LAUNCHED becomes PURGING with that reason and steps 1 to 3 of R71;
in any other state nothing changes. -/
def enterPurging (m : Nat) (why : Reason) (s : State) : State :=
  match s.findMp m with
  | none => s
  | some r =>
    if r.state = .filling ∨ r.state = .launched then
      ((((s.updMp m fun r => { r with state := .purging, reason := some why }).markMailpieceSheets m).releaseReservation
        r).skipCandidate m)
    else s

/-- Closing by the next OPEN or by a full window: FILLING becomes PURGING with SHORT_MAILPIECE, then the record closes (R57, R71 step 4). -/
def closeShort (m : Mailpiece) (s : State) : State :=
  (if m.state = .filling then s.enterPurging m.id .shortMailpiece else s).closeMp m.id

/-! ## OPEN (R58, R59) -/

/-- The bins an OPEN names that the installed configuration has enabled, in the order of R64. -/
def enabledBins (s : State) (mask : PerBin Bool) : List Bin :=
  match s.config with
  | none => []
  | some k => Bin.order.filter fun b => mask.get b && (k.block.bins.get b).enabled

def binCapacity (s : State) (b : Bin) : Nat :=
  match s.config with
  | none => 0
  | some k => (k.block.bins.get b).capacity

/-- The checks of R58, in their order. -/
def openRefusal (s : State) (w : OrderWords) : Option Reason :=
  if !inRange 1 64 w.w5.toNat then some .badCount
  else if (s.enabledBins (binMaskOf w.w6)).isEmpty then some .noBin
  else if !(s.enabledBins (binMaskOf w.w6)).any (fun b => decide (w.w5.toNat ≤ s.binCapacity b)) then
    some .binImpossible
  else none

def tableHasRoom (s : State) : Bool := decide (s.mail.table.length < Config.mailpieceRecords)

/-- The record an accepted OPEN allocates (R59). -/
def newMailpiece (s : State) (e : Entry) : Mailpiece :=
  { id := s.mail.nextId, number := e.words.w4, sheetCount := e.words.w5.toNat
    binMask := binMaskOf e.words.w6, markBase := e.words.w7, markMask := e.words.w8
    openRef := e.id, bin := none, taken := 0, launched := 0, committed := 0, stacked := 0
    purged := 0, lost := 0, closed := false, interrupted := false, reason := none
    state := .filling }

/-- The OPEN is accepted: a record is allocated and the entry is passed (R59). Its draft comes with the settlement (R73). -/
def acceptOpen (e : Entry) (s : State) : State :=
  (s.onMail fun u =>
    { u with table := u.table ++ [s.newMailpiece e], nextId := u.nextId + 1, waitingOpen := none }).updEntry
    e.id fun x => { x with state := .passed }

/-- An OPEN taken at the front: the current mailpiece is closed, the fields are checked, and the OPEN is refused,
accepted, or left waiting for a free record (R58, R59). -/
def takeOpen (e : Entry) (s : State) : State :=
  let s := match s.currentMp with
    | some m => s.closeShort m
    | none => s
  match s.openRefusal e.words with
  | some why => s.setEntry e.id .settled .refused (some why)
  | none =>
    if s.tableHasRoom then s.acceptOpen e
    else s.onMail fun u => { u with waitingOpen := some e.id }

/-! ## SHEET (R60, R62, R76) -/

/-- A SHEET skipped because its mailpiece is PURGING (R60). -/
def skipSheet (e : Entry) (m : Nat) (s : State) : State :=
  (s.setEntry e.id .passed .skipped (some .mailpiecePurging)).countTaken m

/-- The refusal checks of a SHEET, in their order (R76). -/
def sheetRefusal (s : State) (w : OrderWords) : Option Reason :=
  match s.config, trayOf w.w4 with
  | some k, some t =>
    if (k.block.trays.get t).enabled then
      if modeOf w.w5 = .direct ∨ s.clock.loopUnusable = false then none else some .noLoop
    else some .badTray
  | _, _ => some .badTray

/-- A SHEET at the front is refused, skipped or becomes the candidate (R60, R62, R76). -/
def assignSheet (e : Entry) (s : State) : State :=
  match s.currentMp with
  | none => s.setEntry e.id .passed .refused (some .noMailpiece)
  | some m =>
    if m.state = .purging then s.skipSheet e m.id
    else
      match s.sheetRefusal e.words with
      | some why =>
        let taken := (s.setEntry e.id .passed .refused (some why)).updMp m.id fun r => { r with taken := r.taken + 1 }
        (taken.enterPurging m.id .shortMailpiece).updMp m.id fun r =>
          { r with closed := r.closed || decide (r.sheetCount ≤ r.taken) }
      | none => s.onLaunch fun u => { u with candidate := some e.id }

/-! ## Bins (R64, R66 to R69) -/

/-- The first bin that R64 selects for a mailpiece. -/
def binFor (s : State) (m : Mailpiece) : Option Bin :=
  (s.enabledBins m.binMask).find? fun b =>
    decide (m.sheetCount + (s.mail.bins.get b).stacked + (s.mail.bins.get b).reserved ≤ s.binCapacity b)

/-- The bin is written into the record and the whole sheet count reserved in it (R64). -/
def reserveBin (m : Mailpiece) (b : Bin) (s : State) : State :=
  (s.updMp m.id fun r => { r with bin := some b }).updBin b fun c =>
    { c with reserved := c.reserved + m.sheetCount }

/-- Purge full against a capacity (R68); without a configuration there is no capacity to reach. -/
def purgeFullNow (s : State) : Bool :=
  match s.config with
  | none => false
  | some k => decide (k.block.purgeCapacity ≤ s.mail.purgeCount.toNat)

/-- The purge count rises by one; what follows 4,294,967,295 is a free value (R68, log entry 16). -/
def countPurge (s : State) : State :=
  if s.mail.purgeCount = BitVec.allOnes 32 then
    { s with
      mail := { s.mail with purgeCount := Config.purgeCountPastMax s.freeIndex }
      freeIndex := s.freeIndex + 1 }
  else s.onMail fun u => { u with purgeCount := u.purgeCount + 1 }

/-- When purge full comes to hold, ATTN PURGE_FULL is set (R68). -/
def notePurgeFull (s : State) : State :=
  if s.purgeFullNow ∧ s.mail.purgeFull = false then
    (s.onMail fun u => { u with purgeFull := true }).setAttn .purgeFull
  else s

/-- Purge full evaluated from the purge count and the purge capacity as they stand (R68, R69). -/
def reevaluatePurgeFull (s : State) : State :=
  if s.purgeFullNow then s.notePurgeFull else s.onMail fun u => { u with purgeFull := false }

/-- Settled STACKED in STKb (R66). -/
def reportStacked (m : Nat) (b : Bin) (s : State) : State :=
  (s.updBin b fun c => { stacked := c.stacked + 1, reserved := c.reserved - 1 }).updMp m fun r =>
    { r with stacked := r.stacked + 1 }

/-- Settled PURGED (R66, R68); purge full is evaluated from the new count, a free value of log entry 16 included. -/
def reportPurged (m : Nat) (s : State) : State :=
  ((s.updMp m fun r => { r with purged := r.purged + 1 }).countPurge).reevaluatePurgeFull

/-- Settled LOST; a sheet committed to the mailpiece's bin gives its reserved place back (R66). -/
def reportLost (x : Sheet) (s : State) : State :=
  let s := s.updMp x.mp fun r => { r with lost := r.lost + 1 }
  match x.committed, x.dest with
  | true, some (.stk b) => s.updBin b fun c => { c with reserved := c.reserved - 1 }
  | _, _ => s

/-- An unload event (R67, R69). -/
def unload (d : Dest) (s : State) : State :=
  match d with
  | .stk b => s.updBin b fun c => { c with stacked := 0 }
  | .prg => s.onMail fun u => { u with purgeCount := 0, purgeFull := false }

/-! ## Settlement (R73) -/

/-- Whether a record settles now; `jam` says that JAMMED entry is under way (R73). -/
def mpSettles (jam : Bool) (m : Mailpiece) : Bool :=
  (m.state == .launched || m.state == .purging) && m.closed && (jam || !m.interrupted)
    && m.stacked + m.purged + m.lost == m.launched

/-- Outcome and reason of a settled mailpiece (R73). -/
def mpOutcome (m : Mailpiece) : Draft :=
  if m.stacked = m.sheetCount then ⟨.complete, none⟩
  else if m.stacked = 0 then ⟨.purged, m.reason⟩
  else ⟨.split, m.reason⟩

def settleMp (jam : Bool) (s : State) (m : Mailpiece) : State :=
  if mpSettles jam m then
    (s.updMp m.id fun r => { r with state := .settled }).setEntry m.openRef .settled
      (mpOutcome m).result (mpOutcome m).reason
  else s

/-- Every record that settles on this event settles. -/
def settleMailpieces (jam : Bool) (s : State) : State := s.mail.table.foldl (settleMp jam) s

end Sys2Proof.Machine.State
end

