-- ==== Sys2Proof/Machine/Track.lean ====
section
/-! DEFINITION. The Sheet Tracker's books (spec/06): halting sections, purge marks, routes, queues and freeing records. -/

namespace Sys2Proof.Machine

/-- The Sheet Tracker's deadline compares (R95, R99). -/
def CompareOwner.isDeadline : CompareOwner → Bool
  | .late _ | .stuck _ _ => true
  | .boundary | .pick _ => false

/-- The compares that belong to one sheet. -/
def CompareOwner.isOf (track : Nat) : CompareOwner → Bool
  | .late t | .stuck t _ | .pick t => t == track
  | .boundary => false

namespace State

/-! ## Tracking states (R97) -/

/-- Halts the tracking of the sections named and withdraws every deadline compare on their counters (R97). -/
def haltSections (named : PerSection Bool) (s : State) : State :=
  (s.onTrack fun u => { u with tracking := .of fun x => u.tracking.get x && !named.get x }).onTransport
    fun u =>
      { u with compares := u.compares.filter fun k => !(k.owner.isDeadline && named.get k.sec) }

def isTracking (s : State) (c : Checkpoint) : Bool := s.track.tracking.get c.sec

/-! ## Purge marks (R106) -/

/-- A mark given by the Sheet Tracker: not to a committed sheet, and the first reason stays;
a mark given is reported at once and the mailpiece enters PURGING with it (R106). -/
def giveMark (track : Nat) (why : Reason) (s : State) : State :=
  match s.findSheet track with
  | none => s
  | some x =>
    if x.committed = false ∧ x.purge = none then
      (s.updSheet track fun x => { x with purge := some why }).enterPurging x.mp why
    else s

/-! ## Queues (R95) -/

/-- The merge key of a sheet in the MRG queue: the final merge pitch when it comes from RTN, else the merge pitch (R95). -/
def mergeKey (x : Sheet) : Word := if x.last = some .rtn then x.finalPitch else x.mergePitch

/-- Places a sheet before every sheet with a greater merge key (R95). -/
def insertByKey (s : State) (track : Nat) (key : Word) : List Nat → List Nat
  | [] => [track]
  | t :: rest =>
    match s.findSheet t with
    | some y => if pitchGreater (mergeKey y) key then track :: t :: rest else t :: s.insertByKey track key rest
    | none => t :: s.insertByKey track key rest

def updQueue (c : Checkpoint) (f : List Nat → List Nat) : State → State :=
  onTrack fun u => { u with queues := u.queues.set c (f (u.queues.get c)) }

/-- Takes a sheet out of a queue and withdraws its late deadline compare (R95). -/
def leaveQueue (track : Nat) (c : Checkpoint) (s : State) : State :=
  (s.updQueue c fun q => q.filter (· ≠ track)).withdrawOwner (· == .late track)

/-- A sheet enters the queue of c, expected at anchor + segment, with its limits and its late deadline compare (R95). -/
def enterQueue (k : Installed) (track : Nat) (c : Checkpoint) (anchor : Pos) (segment : Nat) (s : State) : State :=
  let expected := posAdd anchor segment
  let late := posAdd expected (k.block.lateTol.get c.sec)
  let s := s.updSheet track fun x =>
    { x with
      next := some c
      due := some { expected, early := posSub expected (k.block.earlyTol.get c.sec), late } }
  let key := match s.findSheet track with
    | some x => mergeKey x
    | none => 0
  let s := s.updQueue c fun q => if c = .mrg then s.insertByKey track key q else q ++ [track]
  s.registerCompare (.late track) c.sec late

/-- The head of a queue: its first sheet that is not FROZEN (R98). -/
def queueHead (s : State) (c : Checkpoint) : Option Sheet :=
  ((s.track.queues.get c).filterMap s.findSheet).find? (·.state != .frozen)

/-! ## Freeing records (R92, R109) -/

/-- Frees a track record: its queue place, compares and occupancies go with it, and a live FIFO entry is abandoned. -/
def freeSheet (track : Nat) (s : State) : State :=
  (s.onTrack fun u =>
    { u with
      sheets := u.sheets.filter (·.id ≠ track)
      queues := u.queues.map fun q => q.filter (· ≠ track)
      fifo := u.fifo.map fun t => if t.track = track then { t with live := false } else t }).withdrawOwner
    (·.isOf track)

/-- The sheet that occupies a checkpoint, with that occupancy (R104). -/
def occupant (s : State) (c : Checkpoint) : Option (Sheet × Occupancy) :=
  s.track.sheets.findSome? fun x => (x.occ.find? (·.at_ = c)).map fun o => (x, o)

/-! ## Routes (R94) -/

/-- The media length of a sheet's tray. -/
def mediaOf (k : Installed) (x : Sheet) : Nat := (k.block.trays.get x.tray).media

def segmentToDest (k : Installed) : Dest → Nat
  | .stk b => k.block.mrkToStk.get b
  | .prg => k.block.mrkToPrg

/-- The provisional destination: PRG for a marked sheet, else the mailpiece's bin (R100).
Every launched sheet's mailpiece has a bin; were there none, PRG would stand in its place (log entry 21). -/
def provisionalDest (s : State) (x : Sheet) : Dest :=
  match x.purge, (s.findMp x.mp).bind (·.bin) with
  | none, some b => .stk b
  | _, _ => .prg

/-- Whether a sheet leaves FUS toward INV: a LOOP sheet on pass 1 (R94, R111). -/
def towardInv (x : Sheet) : Bool := x.mode == .loop && !x.pass2

/-- The next checkpoint after an on-time arrival at c, and the segment to it (R94). -/
def route (k : Installed) (s : State) (x : Sheet) : Checkpoint → Option (Checkpoint × Nat)
  | .fd t => some (.mrg, (k.block.trays.get t).fdToMrg)
  | .mrg => some (.reg, k.block.mrgToReg)
  | .reg => some (.fus, k.block.regToFus)
  | .fus => if towardInv x then some (.inv, k.block.fusToInv) else some (.mrk, k.block.fusToMrk)
  | .inv => some (.rtn, k.block.invToRtn)
  | .rtn => some (.mrg, k.block.rtnToMrg)
  | .mrk => some ((s.provisionalDest x).checkpoint, segmentToDest k (s.provisionalDest x))
  | .stk _ | .prg => none

end State
end Sys2Proof.Machine
end

