-- ==== Sys2Proof/Machine/Transport.lean ====
section
/-! DEFINITION. Transport Control (spec/01) and the Pitch Clock's start, stop and ring (spec/02). -/

namespace Sys2Proof.Machine.State

/-! ## Pitch Clock (R17 to R20, R26 to R32) -/

def pitchLength (s : State) : Nat :=
  match s.config with
  | some k => k.block.pitchLength
  | none => 0

/-- The pitch counter: the signed difference between the UP count and B(q) (section 2.1). -/
def pitchCounter (s : State) : Int := posDiff s.transport.count.up s.clock.boundary

/-- B(p) for a pitch p at or after the current pitch (R20). -/
def boundaryOf (s : State) (p : Word) : Pos :=
  posAdd s.clock.boundary ((p - s.clock.pitch).toNat * s.pitchLength)

/-- Registers the one boundary compare, P TU beyond the current boundary (R17, R18). -/
def registerBoundary (s : State) : State :=
  s.registerCompare .boundary .up (posAdd s.clock.boundary s.pitchLength)

/-- The Pitch Clock stops: its compare is withdrawn and its values are kept (R19). -/
def stopClock (s : State) : State :=
  (s.onClock fun u => { u with running := false }).withdrawOwner (· == .boundary)

/-- The Pitch Clock starts at an entry to AT-SPEED (R18). -/
def startClock (s : State) : State :=
  (s.onClock fun u =>
    { u with running := true, pitch := 0, boundary := s.transport.count.up, lastFinal := none }).registerBoundary

/-- A pitch boundary: the pitch number advances and the next compare is registered (R17). -/
def advancePitch (s : State) : State :=
  (s.onClock fun u =>
    { u with pitch := u.pitch + 1, boundary := posAdd u.boundary s.pitchLength }).registerBoundary

/-- Whether the ring entry of pitch r is free (R28). -/
def ringFree (s : State) (r : Word) : Bool := s.clock.ring.all fun h => ringIndex h.pitch != ringIndex r

/-- Reserves the return pitch r for a track record (R27). -/
def reserveReturn (track : Nat) (r : Word) : State → State :=
  onClock fun u => { u with ring := u.ring ++ [⟨track, r⟩] }

/-- Releases the reservation a track record holds (R29, R30). -/
def releaseReturn (track : Nat) : State → State :=
  onClock fun u => { u with ring := u.ring.filter (·.track ≠ track) }

/-- Whether a final merge pitch keeps the exit order (R32). -/
def exitOrderOk (s : State) (final : Word) : Bool :=
  match s.clock.lastFinal with
  | none => true
  | some last => pitchGreater final last

/-! ## Run-out and stop orders (R9, R10) -/

/-- The transport enters RUN-OUT: every run output negated, the run-up timer cancelled; leaving AT-SPEED clears the
speed deviation indication (R14) and stops the Pitch Clock (R19). -/
def enterRunOut (s : State) : State :=
  let s := if s.transport.state = .atSpeed then
      (s.onTransport fun u => { u with speedDeviation := false }).stopClock
    else s
  s.onTransport fun u => { u with run := perSection false, runUpTimer := none, state := .runOut }

/-- A run-out order (R10). -/
def runOutOrder (s : State) : State :=
  match s.transport.state with
  | .stopped => s
  | .runUp | .atSpeed => s.enterRunOut
  | .runOut => s.onTransport fun u => { u with heldRunUp := false }

/-- A stop order for a set of sections (R9); it cancels a held run-up in every state. -/
def stopOrder (named : PerSection Bool) (s : State) : State :=
  let s := s.onTransport fun u =>
    { u with heldRunUp := false, run := .of fun x => u.run.get x && !named.get x }
  match s.transport.state with
  | .stopped | .runOut => s
  | .runUp => s.enterRunOut
  | .atSpeed => if s.transport.run.any then s else s.enterRunOut

/-! ## Run-up (R10, R11) -/

/-- A run-up starts (R11); every section becomes TRACKING (R97), the empty-pitch count returns to 0 and the arming
flags are set (R65, R81, R88). -/
def startRunUp (s : State) : State :=
  let s := s.onTransport fun u =>
    { u with
      run := perSection true
      state := .runUp
      heldRunUp := false
      ref := u.count
      below := perSection 0
      allInBand := 0
      runUpTimer := s.config.map (·.block.runUpTimeout)
      samplePeriod := s.config.map (·.block.samplePeriod) }
  let s := s.onTrack fun u => { u with tracking := perSection true }
  let s := s.onLaunch fun u => { u with emptyCount := 0, starvedArm := true, trayArm := true }
  s.onMail fun u => { u with binWaitArm := true }

/-- A run-up order (R10). -/
def runUpOrder (s : State) : State :=
  match s.transport.state with
  | .stopped => s.startRunUp
  | .runUp | .atSpeed => s
  | .runOut => s.onTransport fun u => { u with heldRunUp := true }

/-! ## Sampling (R13) -/

/-- The class of a speed (R13). -/
inductive SpeedClass where
  | inBand | deviating | belowFloor
deriving DecidableEq, Repr

def speedClass (b : ConfigBlock) (speed : Nat) : SpeedClass :=
  if speed < b.floor ∨ speed = 0 then .belowFloor
  else if b.nominal - b.band ≤ speed ∧ speed ≤ b.nominal + b.band then .inBand
  else .deviating

/-- The speed of each section since its reference (R13). -/
def speeds (s : State) : PerSection Nat :=
  .of fun x => posLength (s.transport.count.get x) (s.transport.ref.get x)

/-- The class of each section's present speed. -/
def speedClasses (b : ConfigBlock) (s : State) : PerSection SpeedClass :=
  s.speeds.map (speedClass b)

/-- The below-floor count after a sample: a below-floor sample advances it, holding at 2 (R13). -/
def nextBelow (old : Nat) : SpeedClass → Nat
  | .belowFloor => min 2 (old + 1)
  | .inBand | .deviating => 0

/-- What every sample does: references, below-floor counts and the next interval (R13). -/
def takeSample (b : ConfigBlock) (s : State) : State :=
  s.onTransport fun u =>
    { u with
      ref := u.count
      below := .of fun x => nextBelow (u.below.get x) ((s.speedClasses b).get x)
      samplePeriod := some b.samplePeriod }

/-- The sections that stall at a sample in AT-SPEED: running, and the below-floor count becomes 2 at it (R14). -/
def stalls (b : ConfigBlock) (s : State) : List Section :=
  [Section.up, .loop, .down].filter fun x =>
    s.transport.run.get x && s.transport.below.get x != 2
      && nextBelow (s.transport.below.get x) ((s.speedClasses b).get x) == 2

/-- The speed deviation judgement at a sample in AT-SPEED (R14). -/
def judgeDeviation (b : ConfigBlock) (s : State) : State :=
  let off : Section → Bool := fun x => s.transport.run.get x && (s.speedClasses b).get x != .inBand
  if off .up || off .loop || off .down then
    if s.transport.speedDeviation then s
    else (s.onTransport fun u => { u with speedDeviation := true }).setAttn .speed
  else s.onTransport fun u => { u with speedDeviation := false }

/-- The transport enters STOPPED; a held run-up is carried out at once (R10, R15). -/
def enterStopped (s : State) : State :=
  let s := s.onTransport fun u => { u with state := .stopped, samplePeriod := none }
  if s.transport.heldRunUp then s.startRunUp else s

end Sys2Proof.Machine.State
end

