-- ==== Sys2Proof/Machine/Control.lean ====
section
/-! DEFINITION. The Command and Attention Unit (spec/10): ends of commands and the controller's state changes. -/

namespace Sys2Proof.Machine.State

def setState (c : ControllerState) : State → State := onCtl fun u => { u with state := c }

/-- The state is one in which orders at the front are taken (R75). -/
def takesFront (s : State) : Bool := s.ctl.state == .running || s.ctl.state == .standby

/-- A command ends: its code and outcome are written, command busy becomes no, ATTN COMMAND is set (R160). -/
def endCommand (code : Word) (o : CommandOutcome) (s : State) : State :=
  (s.onCtl fun u => { u with lastCommand := some code, lastOutcome := some o, cmd := none }).setAttn .command

/-- A CMD write taken while command busy is yes: OVERRUN, and the command being taken goes on (R160). -/
def overrunCommand (code : Word) (s : State) : State :=
  (s.onCtl fun u => { u with lastCommand := some code, lastOutcome := some .overrun }).setAttn .command

/-- The command goes on to wait for a read (R160). -/
def beginCommand (code : Word) (phase : CommandPhase) : State → State :=
  onCtl fun u => { u with cmd := some { code, phase } }

def setPhase (phase : CommandPhase) : State → State :=
  onCtl fun u => { u with cmd := u.cmd.map fun c => { c with phase } }

/-- The PAUSE that began the draining becomes SETTLED and its record is cleared (R162 step 3). -/
def settlePause (s : State) : State :=
  match s.ctl.pauseRec with
  | none => s
  | some id => (s.updEntry id fun e => { e with state := .settled }).onCtl fun u => { u with pauseRec := none }

/-- Every entry to HALTED (R162): sections halt, a run-out order is given, a PAUSE settles, ATTN HALTED is set. -/
def enterHalted (s : State) : State :=
  ((((s.setState .halted).haltSections (perSection true)).runOutOrder).settlePause).setAttn .halted

/-- Entry to DRAINING; with the track table empty the entry to HALTED follows on the same event (R161, R162). -/
def enterDraining (s : State) : State :=
  let s := s.setState .draining
  if s.track.sheets.isEmpty then s.enterHalted else s

/-- Entry to STANDBY (R88). DOWN is HALTED in STANDBY, so that edges at the bins are not handed on (R126); that it halts on
the event of the entry is read from the two rules together (log entry 25). -/
def enterStandby (s : State) : State :=
  (((s.runOutOrder).haltSections ((perSection false).set .down true)).setState .standby).setAttn .standby

/-- STANDBY entry is considered: RUNNING, the count at the run-out limit, the track table empty (R88). -/
def considerStandby (s : State) : State :=
  if s.ctl.state = .running ∧ s.launch.emptyCount = s.runOutLimit ∧ s.track.sheets.isEmpty then
    s.enterStandby
  else s

/-- In STANDBY an event of R89 asks for a wake evaluation (log entry 10). -/
def askWake (s : State) : State :=
  if s.ctl.state = .standby then s.onLaunch fun u => { u with wakeAsked := true } else s

/-- The sensor-clear test (R8). -/
def sensorsClear (s : State) : Bool := s.transport.sensors.toList.all (!·)

end Sys2Proof.Machine.State
end

