-- ==== Sys2Proof/Machine/Retire.lean ====
section
/-! DEFINITION. The Retire Unit (spec/08): what is retirable, the write sequence, and leaving the window. -/

namespace Sys2Proof.Machine

/-- Whether an entry is retirable (R129). A PASSED OPEN waits for its mailpiece, a PASSED PAUSE for its entry to HALTED
and a CALL that entered its sequence for R130; every other PASSED entry is retirable. -/
def Entry.retirable (e : Entry) : Bool :=
  match e.state with
  | .fetched | .launched => false
  | .settled => true
  | .passed =>
    match e.kind with
    | .mpOpen => e.notAllowed
    | .pause => e.notAllowed || (e.draft.map (·.result)) == some .skipped
    | .call => e.callStatus == .notEntered
    | .sheet | .ret | .head | .nop | .unknown => true

/-- One write of the sequence of R134. -/
inductive RetireStep where
  | result (k : Nat)
  | disposition
  | counter (k : Nat)
  | lastAddress
  | count
deriving DecidableEq, Repr

/-- The write sequence of R134: result fields of an OPEN (words 10 to 14) or CALL (words 10 to 13), disposition,
the five counters, the last retired address, the retired count. -/
def Entry.retireSteps (e : Entry) : List RetireStep :=
  (match e.kind with
    | .mpOpen => [.result 0, .result 1, .result 2, .result 3, .result 4]
    | .call => [.result 0, .result 1, .result 2, .result 3]
    | .sheet | .ret | .head | .pause | .nop | .unknown => [])
  ++ [.disposition, .counter 0, .counter 1, .counter 2, .counter 3, .counter 4, .lastAddress, .count]

namespace State

/-- The mailpiece record that refers to an OPEN's entry (R56). -/
def mpOfOpen (s : State) (openId : Nat) : Option Mailpiece := s.mail.table.find? (·.openRef == openId)

/-- The result field values of an OPEN (R132, R175): from its record, or those of a refused OPEN. -/
def openResult (s : State) (e : Entry) (k : Nat) : Nat :=
  match s.mpOfOpen e.id with
  | some m =>
    match k with
    | 0 => (mpOutcome m).result.code
    | 1 => binCode m.bin
    | 2 => m.stacked
    | 3 => m.purged
    | _ => m.lost
  | none =>
    match k with
    | 0 => Result.refused.code
    | _ => 0

/-- The result field values of a CALL (R132, R175). -/
def callResult (e : Entry) (k : Nat) : Nat :=
  match k with
  | 0 => e.summary.stacked
  | 1 => e.summary.purged
  | 2 => e.summary.lost
  | _ => e.summary.fault.toNat

/-- The progress counters in the word order 6 to 10 (R133). -/
def progressCounter (s : State) : Nat → Word
  | 0 => s.retire.launched
  | 1 => s.retire.stacked
  | 2 => s.retire.purged
  | 3 => s.retire.lost
  | _ => s.retire.skipped

/-- The disposition an entry retires with: its draft (R129). A retirable entry has one. -/
def dispositionOf (e : Entry) : Draft := e.draft.getD ⟨.passed, none⟩

/-- The write of one step, with the values as they stand when it is issued (R134). -/
def retireWrite (s : State) (e : Entry) : RetireStep → Write
  | .result k =>
    ⟨5, wordAddr e.addr (10 + k),
      BitVec.ofNat 32 (if e.kind = .call then callResult e k else s.openResult e k), .plain⟩
  | .disposition => ⟨5, wordAddr e.addr 2, dispositionWord (dispositionOf e), .plain⟩
  | .counter k => ⟨5, s.controlWord (6 + k), s.progressCounter k, .plain⟩
  | .lastAddress => ⟨5, s.controlWord 5, e.addr, .plain⟩
  | .count =>
    ⟨5, s.controlWord 4, s.retire.retired + 1,
      if (s.retire.retired + 1).toNat % s.retireBatch = 0 then .retiredCount else .plain⟩

/-- What a step changes in the unit as it is issued: step 5 advances the retired count and the batching count (R136, R137). -/
def retireAdvance (x : RetireStep) (n : Nat) (s : State) : State :=
  s.onRetire fun u =>
    match x with
    | .count =>
      { u with
        step := some (n + 1), retired := u.retired + 1
        batching := (u.retired + 1).toNat % s.retireBatch }
    | .result _ | .disposition | .counter _ | .lastAddress => { u with step := some (n + 1) }

/-- The Retire Unit holds a write (R54, R128). -/
def retireHeld (s : State) : Bool := s.mem.held.any (·.steps == .retire)

/-- The head entry leaves the window; the record of an OPEN is freed (R74, R128, R135). -/
def removeHead (e : Entry) (rest : List Entry) (s : State) : State :=
  let s := s.onFetch fun u => { u with window := rest }
  let s := s.onRetire fun u => { u with step := none }
  if (s.mpOfOpen e.id).isSome then
    (s.onMail fun u => { u with table := u.table.filter (·.openRef ≠ e.id) }).askWake
  else s

/-- One move of the Retire Unit, or none when the head is not retirable or its write is held (R128, R134, R135). -/
def retireMove (s : State) : Option State :=
  match s.fetch.window with
  | [] => none
  | e :: rest =>
    if !e.retirable || s.retireHeld then none
    else if e.chain = .sequence then some (s.removeHead e rest)
    else
      match e.retireSteps[s.retire.step.getD 0]? with
      | some x =>
        let w := s.retireWrite e x
        some (issueWrite w .retire id (s.retireAdvance x (s.retire.step.getD 0)))
      | none => some (s.removeHead e rest)

/-- Moves of the Retire Unit until none is left, at most `n`. -/
def retireLoop : Nat → State → State
  | 0, s => s
  | n + 1, s =>
    match s.retireMove with
    | none => s
    | some s' => s'.retireLoop n

/-- A bound on the moves of one event: a write for each place of the queue and one more, and a removal for each entry. -/
def retireFuel (s : State) : Nat := s.fetch.window.length + Config.writeQueueSize + 2

/-- The Retire Unit on one event (R128). -/
def retireAll (s : State) : State := s.retireLoop s.retireFuel

/-! ## CALL settlement (R130) -/

/-- Whether a SHEET entry of a sequence is finished (R130). -/
def sheetFinished (e : Entry) : Bool :=
  e.state == .settled || (e.state == .passed && e.draft.isSome)

/-- Whether a CALL becomes SETTLED now (R130): it has been passed and its sequence left, and, in the main or recovery chain,
every SHEET that names it as caller is finished. -/
def callSettles (s : State) (e : Entry) : Bool :=
  e.kind == .call && e.state == .passed && e.callStatus == .left
    && (e.chain == .sequence
      || s.fetch.window.all fun x => !(x.kind == .sheet && x.caller == some e.id) || sheetFinished x)

/-- Every CALL that settles on this event settles. -/
def settleCalls (s : State) : State :=
  s.onFetch fun u =>
    { u with window := u.window.map fun e => if s.callSettles e then { e with state := .settled } else e }

end State
end Sys2Proof.Machine
end

