-- ==== Sys2Proof/Machine/Fetch.lean ====
section
/-! DEFINITION. The Order Fetch Unit (spec/03): following links, chain faults, sequences, starts and switches. -/

namespace Sys2Proof.Machine

def Stream.chain : Stream → Chain
  | .main => .main
  | .recovery => .recovery

namespace State

def setPos (p : FetchPos) : State → State := onFetch fun u => { u with pos := p }

/-! ## Chain faults (R42) -/

/-- The end of a chain fault: ATTN CHAIN_FAULT, and the last skip reason becomes CHAIN_FAULT (R42). -/
def tellChainFault (s : State) : State :=
  (s.setAttn .chainFault).onCtl fun u => { u with lastSkip := some .chainFault }

/-- A chain fault: the position, the bad address into control area word 11, then the attention (R42). -/
def chainFault (src : FaultSource) (bad : Word) (s : State) : State :=
  let s := s.setPos (.chainFault src)
  s.issueWrite ⟨5, s.controlWord 11, bad, .plain⟩ .chainFault tellChainFault

/-- A nonzero address is followed: a next block when it passes the window check, else a chain fault (R41, R49). -/
def follow (src : FaultSource) (addr : Word) (s : State) : State :=
  if s.orderAddrOk addr then s.setPos (.next addr) else s.chainFault src addr

/-- A main resume point taken as a start address: 0 makes a chain end with word 2 in the tail's place (R156). -/
def startMainResume (s : State) : State :=
  if s.jam.mainResume = 0 then s.setPos (.chainEnd .controlWord2)
  else s.follow (.value s.jam.mainResume) s.jam.mainResume

/-- The recovery chain has ended: the main chain goes on at the main resume point with its resync flag (R51). -/
def switchToMain (s : State) : State :=
  (s.onFetch fun u => { u with chain := .main, resync := s.jam.mainResync }).startMainResume

/-- The link of a block is followed: 0 is a chain end with that block as the tail, or, in the recovery chain with the
call stack empty, the switch to the main chain (R41, R51). -/
def followLink (block link : Word) (s : State) : State :=
  if link = 0 then
    if s.fetch.stack.isEmpty ∧ s.fetch.chain = .recovery then s.switchToMain
    else s.setPos (.chainEnd (.block block))
  else s.follow (.link block) link

/-! ## Entries (R38, R41) -/

def noSummary : Summary := ⟨0, 0, 0, false⟩

/-- The entry of a fetched block (R38, R41). -/
def newEntry (s : State) (addr : Word) (w : OrderWords) : Entry :=
  { id := s.fetch.nextId, addr := addr, kind := kindOf w.kind
    chain := if s.fetch.stack.isEmpty then s.fetch.chain.chain else .sequence
    caller := if s.fetch.stack.isEmpty then none else s.fetch.outer
    words := w, state := .fetched, draft := none, notAllowed := false, summary := noSummary
    callStatus := .notEntered, dropped := false }

/-- Adds an entry at the tail; the window never holds more than 64 (R38, R40). -/
def addEntry (e : Entry) : State → State :=
  onFetch fun u =>
    if u.window.length < Config.orderWindowSize then
      { u with window := u.window ++ [e], nextId := u.nextId + 1 }
    else u

/-- The sequence fault: the flag of the outermost active CALL and ATTN CHAIN_FAULT (R46, R47, R48). -/
def sequenceFault (s : State) : State :=
  (match s.fetch.outer with
    | some c => s.updEntry c fun e => { e with summary := { e.summary with fault := true } }
    | none => s).setAttn .chainFault

/-- A CALL is refused: its draft, the sequence fault when it stands inside a sequence, and its own link is followed (R46). -/
def refuseCall (call : Nat) (block link : Word) (why : Reason) (s : State) : State :=
  let s := s.updEntry call fun e =>
    { e with draft := some ⟨.refused, some why⟩, callStatus := .notEntered }
  (if s.fetch.stack.isEmpty then s else s.sequenceFault).followLink block link

/-- Step 6 of R46 after the return link's write: the head is pushed, its entry added, its link followed. -/
def enterSequence (call : Nat) (head : Word) (w : OrderWords) (s : State) : State :=
  let s := s.onFetch fun u =>
    { u with
      outer := if u.stack.isEmpty then some call else u.outer
      stack := if u.stack.length < Config.callStackDepth then ⟨head, call⟩ :: u.stack else u.stack }
  (s.addEntry (s.newEntry head w)).followLink head w.link

/-- The block at a CALL's head address has been fetched (R46 steps 5 and 6). -/
def takeHead (call : Nat) (head : Word) (w : OrderWords) (s : State) : State :=
  match s.findEntry call with
  | none => s
  | some c =>
    if kindOf w.kind = .head then
      s.issueWrite ⟨5, wordAddr head 4, c.addr, .plain⟩ (.enterSequence call head w)
        (enterSequence call head w)
    else s.refuseCall call c.addr c.words.link .badKind

/-- A CALL has been fetched (R46 steps 1 to 5); its entry `e` is added first. -/
def takeCall (e : Entry) (s : State) : State :=
  let head := e.words.w4
  if s.fetch.resync ∧ s.fetch.chain = .main then
    (s.addEntry { e with draft := some ⟨.skipped, some .resync⟩ }).followLink e.addr e.words.link
  else if Config.callStackDepth ≤ s.fetch.stack.length then
    (s.addEntry e).refuseCall e.id e.addr e.words.link .callDepth
  else if s.fetch.stack.any (·.head == head) then
    (s.addEntry e).refuseCall e.id e.addr e.words.link .callLoop
  else
    let s := s.addEntry { e with callStatus := .pending }
    if s.orderAddrOk head then s.setPos (.awaitingHead e.id head)
    else s.chainFault (.callHead e.id e.addr) head

/-- Leaving the innermost sequence begins: the unit is to read word 4 of the innermost head (R47 step 1). -/
def beginReturn (s : State) : State :=
  match s.fetch.stack with
  | [] => s
  | f :: _ => s.setPos (.returning f.head)

/-- A block fetched as the next block of the chain (R37, R41, R47, R48, R51). -/
def takeBlock (addr : Word) (w : OrderWords) (s : State) : State :=
  let e := s.newEntry addr w
  let inSequence := !s.fetch.stack.isEmpty
  if e.kind = .call then s.takeCall e
  else if s.fetch.resync ∧ s.fetch.chain = .main ∧ e.kind ≠ .mpOpen then
    (s.addEntry { e with draft := some ⟨.skipped, some .resync⟩ }).followLink addr w.link
  else
    match e.kind with
    | .ret =>
      match s.fetch.stack with
      | [] => (s.addEntry { e with draft := some ⟨.refused, some .badKind⟩ }).followLink addr w.link
      | f :: _ =>
        let s := s.addEntry e
        (if w.w4 = f.head then s else s.sequenceFault).beginReturn
    | .mpOpen | .pause | .head =>
      if inSequence then ((s.addEntry { e with notAllowed := true }).sequenceFault).beginReturn
      else
        let s := if e.kind = .mpOpen ∧ s.fetch.chain = .main then
            s.onFetch fun u => { u with resync := false }
          else s
        (s.addEntry e).followLink addr w.link
    | .unknown => (s.addEntry { e with draft := some ⟨.refused, some .badKind⟩ }).followLink addr w.link
    | .sheet | .nop | .call => (s.addEntry e).followLink addr w.link

/-- An order fetch completes, and is not discarded: the block is the head awaited or the next block (R41). -/
def takeFetched (w : OrderWords) (s : State) : State :=
  match s.fetch.pos with
  | .next addr => s.takeBlock addr w
  | .awaitingHead call head => s.takeHead call head w
  | .idle | .chainEnd _ | .chainFault _ | .returning _ | .continuing _ _ => s

/-! ## The other reads -/

/-- A return link that passes the window check: the innermost head is popped and the position becomes continuing (R47 step 3). -/
def leaveSequence (block : Word) (s : State) : State :=
  match s.fetch.stack with
  | [] => s
  | f :: rest =>
    s.onFetch fun u =>
      { u with
        stack := rest
        outer := if rest.isEmpty then none else u.outer
        pos := .continuing block f.call }

/-- The value of a head's return link (R47 steps 2 and 3). -/
def takeReturnLink (v : Word) (s : State) : State :=
  match s.fetch.pos with
  | .returning head => if s.orderAddrOk v then s.leaveSequence v else s.chainFault (.returnLink head) v
  | .idle | .next _ | .chainEnd _ | .chainFault _ | .awaitingHead _ _ | .continuing _ _ => s

/-- The link of the block a return link names (R47 step 3); the sequence has been left (R130). -/
def takeContinuation (v : Word) (s : State) : State :=
  match s.fetch.pos with
  | .continuing block call =>
    (s.updEntry call fun e => { e with callStatus := .left }).followLink block v
  | .idle | .next _ | .chainEnd _ | .chainFault _ | .awaitingHead _ _ | .returning _ => s

/-- The word that stands in a tail's place, as a fault source (R43). -/
def Tail.source : Tail → FaultSource
  | .block a => .link a
  | .controlWord2 => .controlWord2

/-- The value of a tail re-read (R43): 0 keeps the chain end; any other value drops a remembered request and is followed. -/
def takeTail (v : Word) (s : State) : State :=
  match s.fetch.pos with
  | .chainEnd t =>
    if v = 0 then s
    else (s.onFetch fun u => { u with rereadAsked := false }).follow (Tail.source t) v
  | .idle | .next _ | .chainFault _ | .awaitingHead _ _ | .returning _ | .continuing _ _ => s

/-- The value of a chain fault's source word (R44); a head address that passes goes on from step 5 of R46 (log entry 14). -/
def takeFaultSource (v : Word) (s : State) : State :=
  match s.fetch.pos with
  | .chainFault src =>
    match src with
    | .link block => if v = 0 then s.setPos (.chainEnd (.block block)) else s.follow src v
    | .controlWord2 => if v = 0 then s.setPos (.chainEnd .controlWord2) else s.follow src v
    | .controlWord3 => if v = 0 then s.switchToMain else s.follow src v
    | .callHead call _ =>
      if s.orderAddrOk v then s.setPos (.awaitingHead call v) else s.chainFault src v
    | .returnLink _ => if s.orderAddrOk v then s.leaveSequence v else s.chainFault src v
    | .value _ => s
  | .idle | .next _ | .chainEnd _ | .awaitingHead _ _ | .returning _ | .continuing _ _ => s

/-! ## Starting, asking and stopping (R43, R44, R49, R52) -/

/-- A read of the unit already outstanding is to be discarded when it completes (R43, R52). -/
def discardRead : State → State :=
  onFetch fun u =>
    { u with read := u.read.map fun r => { r with discard := true }, rereadAsked := false }

/-- The unit is set afresh: empty stack, the chain and the resync flag given, no position yet (R49). -/
def freshFetch (chain : Stream) (resync : Bool) (s : State) : State :=
  (s.discardRead).onFetch fun u =>
    { u with stack := [], outer := none, chain := chain, resync := resync, pos := .idle }

/-- The start address RUN read from control area word 2 (R49, R50). -/
def startFromWord2 (v : Word) (s : State) : State :=
  if v = 0 then s.setPos (.chainEnd .controlWord2) else s.follow .controlWord2 v

/-- The start address RECOVER read from control area word 3: 0 is an empty recovery chain (R49). -/
def startFromWord3 (v : Word) (s : State) : State :=
  if v = 0 then s.switchToMain else s.follow .controlWord3 v

/-- A tail re-read is asked for; the unit acts on it when its position is a chain end (R43, R79). -/
def askReread (s : State) : State :=
  match s.fetch.pos with
  | .chainEnd _ => s.onFetch fun u => { u with rereadAsked := true }
  | .idle | .next _ | .chainFault _ | .awaitingHead _ _ | .returning _ | .continuing _ _ => s

/-- What EXTEND does to the fetch position (R44). Awaiting head, returning and continuing, which the table of R44 does not
list, are left as a next block is: the model's choice (log entry 23). -/
def extendFetch (s : State) : State :=
  match s.fetch.pos with
  | .chainEnd _ => s.askReread
  | .chainFault (.value v) => s.follow (.value v) v
  | .chainFault _ =>
    if s.fetch.read = some ⟨.faultSource, false⟩ then s
    else s.onFetch fun u => { u with rereadAsked := true }
  | .idle | .next _ | .awaitingHead _ _ | .returning _ | .continuing _ _ => s

/-! ## Issuing reads (R40, R43, R44) -/

/-- The controller states in which the unit issues reads (R40). -/
def fetches (s : State) : Bool :=
  match s.ctl.state with
  | .running | .standby | .draining | .halted => true
  | .unconfigured | .ready | .stopping | .jammed => false

/-- The unit holds the write of a return link, and with it step 6 of R46 (R54). A held write of a chain fault holds back no
read: the model's choice (log entry 27). -/
def fetchHeld (s : State) : Bool :=
  s.mem.held.any fun h =>
    match h.steps with
    | .enterSequence _ _ _ => true
    | .retire | .chainFault | .endOfDrain | .stopRecord _ | .nothing => false

/-- The address of the word a chain fault was read from (R42). -/
def sourceAddr (s : State) : FaultSource → Option Word
  | .link block => some block
  | .callHead _ block => some (wordAddr block 4)
  | .returnLink head => some (wordAddr head 4)
  | .controlWord2 => some (s.controlWord 2)
  | .controlWord3 => some (s.controlWord 3)
  | .value _ => none

/-- The read the fetch position now calls for, with its word addresses. -/
def wantedRead (s : State) : Option (FetchRead × List Word) :=
  match s.fetch.pos with
  | .next a | .awaitingHead _ a =>
    if s.fetch.window.length < Config.orderWindowSize then some (.order, orderReadAddrs a) else none
  | .returning head => some (.returnLink, [wordAddr head 4])
  | .continuing block _ => some (.continuation, [block])
  | .chainEnd t =>
    if s.fetch.rereadAsked then
      some (.tail, [match t with | .block a => a | .controlWord2 => s.controlWord 2])
    else none
  | .chainFault src =>
    if s.fetch.rereadAsked then (s.sourceAddr src).map fun a => (.faultSource, [a]) else none
  | .idle => none

/-- The unit issues the read its position calls for, when it has none outstanding and the controller state allows it (R40). -/
def issueReads (s : State) : State :=
  if s.fetches ∧ s.fetch.read = none ∧ s.fetchHeld = false then
    match s.wantedRead with
    | some (k, addrs) =>
      (s.onFetch fun u => { u with read := some ⟨k, false⟩, rereadAsked := false }).requestRead
        (.fetch k) addrs
    | none => s
  else s

/-- The unit's outstanding read ends; answers whether its value is to be used. -/
def endRead (s : State) : State := s.onFetch fun u => { u with read := none }

end State
end Sys2Proof.Machine
end

