-- ==== Sys2Proof/Machine/Launch.lean ====
section
/-! DEFINITION. The Launch Scheduler (spec/05): orders at the front, the launch decision, skips, launches, wakes. -/

namespace Sys2Proof.Machine.State

/-! ## Orders at the front (R60, R75, R77) -/

/-- A PAUSE taken at the front (R77): RUNNING enters DRAINING; STANDBY passes through DRAINING into HALTED. -/
def takePause (id : Nat) (s : State) : State :=
  let s := (s.setEntry id .passed .passed none).onCtl fun u => { u with pauseRec := some id }
  if s.ctl.state = .standby then (s.setState .draining).enterHalted else s.enterDraining

/-- A CALL taken at the front: SKIPPED while the current mailpiece is PURGING and open, else PASSED (R60). -/
def takeCallAtFront (id : Nat) (s : State) : State :=
  match s.currentMp with
  | some m =>
    if m.state = .purging then s.setEntry id .passed .skipped (some .mailpiecePurging)
    else s.setEntry id .passed .passed none
  | none => s.setEntry id .passed .passed none

/-- The order at the front is handled by its draft and kind (R75). -/
def handleFront (e : Entry) (s : State) : State :=
  match e.draft with
  | some _ => s.updEntry e.id fun x => { x with state := .passed }
  | none =>
    if e.notAllowed then s.setEntry e.id .passed .passed none
    else
      match e.kind with
      | .mpOpen => s.takeOpen e
      | .sheet => s.assignSheet e
      | .call => s.takeCallAtFront e.id
      | .pause => s.takePause e.id
      | .head | .ret | .nop | .unknown => s.setEntry e.id .passed .passed none

/-- Takes the order at the front, if one stands there that is to be handled now: not the candidate, and a waiting OPEN
only when a record is free (R59, R75). An order taken in STANDBY asks for a wake evaluation (R89). -/
def takeFront (s : State) : Option State :=
  if s.takesFront then
    match s.front with
    | none => none
    | some e =>
      if s.launch.candidate = some e.id then none
      else if s.mail.waitingOpen = some e.id then
        if s.tableHasRoom then some (s.askWake.acceptOpen e) else none
      else some (s.askWake.handleFront e)
  else none

/-! ## Checks 1 to 4 (R79, R80, R83) -/

/-- The candidate's window entry. -/
def candidateEntry (s : State) : Option Entry := s.launch.candidate.bind s.findEntry

/-- The skip reason when no candidate stands at the front (R79). -/
def noCandidateReason (s : State) : SkipReason :=
  if s.mail.waitingOpen.isSome then .pathFull
  else
    match s.fetch.pos with
    | .chainFault _ => .chainFault
    | .idle | .next _ | .chainEnd _ | .awaitingHead _ _ | .returning _ | .continuing _ _ =>
      if s.front.isNone ∧ s.fetch.window.length = Config.orderWindowSize then .windowFull
      else .starved

/-- Check 2: the candidate's mailpiece has a bin, or one is selected and reserved now (R64). -/
def binCheck (s : State) : State × Bool :=
  match s.currentMp with
  | none => (s, false)
  | some m =>
    if m.bin.isSome then (s, true)
    else
      match s.binFor m with
      | some b => (s.reserveBin m b, true)
      | none => (s, false)

/-- Check 3: the tray is enabled and its held level is not empty (R80, R84). -/
def trayCheck (s : State) (w : OrderWords) : Bool :=
  match s.config, trayOf w.w4 with
  | some k, some t => (k.block.trays.get t).enabled && !s.launch.trays.get t
  | _, _ => false

/-- Check 4: the images are ready under the duplex readiness gate (R83). -/
def imageCheck (s : State) (w : OrderWords) : Bool :=
  match s.config with
  | some k =>
    side1Ready w.ready && (!(k.block.duplexGate && (side2Of w).isSome) || side2Ready w.ready)
  | none => false

/-- Checks 1 to 4, with the bin selected on the way; the first that fails gives its skip reason (R79, R80). -/
def checks1to4 (s : State) : State × Option SkipReason :=
  match s.candidateEntry with
  | none => (s, some s.noCandidateReason)
  | some e =>
    let (s', hasBin) := s.binCheck
    if !hasBin then (s', some .binWait)
    else if !s'.trayCheck e.words then (s', some .trayEmpty)
    else if !s'.imageCheck e.words then (s', some .imageWait)
    else (s', none)

/-! ## Launching (R85, R86) -/

/-- Everything a launch decides on: the candidate, its mailpiece and its tray. -/
structure Candidate where
  order : Entry
  mp : Mailpiece
  tray : Tray
deriving DecidableEq, Repr

def launchable (s : State) : Option Candidate :=
  match s.candidateEntry, s.currentMp with
  | some e, some m => (trayOf e.words.w4).map fun t => ⟨e, m, t⟩
  | _, _ => none

/-- The final merge pitch of a candidate for merge pitch p (R32). -/
def finalPitchOf (k : Installed) (w : OrderWords) (p : Word) : Word :=
  match modeOf w.w5 with
  | .direct => p
  | .loop => p + BitVec.ofNat 32 k.qty.loopDelay

/-- The pick position for merge pitch p from a tray (R86). -/
def pickPosition (k : Installed) (s : State) (p : Word) (t : Tray) : Pos :=
  posSub (s.boundaryOf p) (k.block.trays.get t).feedLength

/-- Check 5: a free track record, and room in the feed schedule at the pick position (R80, R85). -/
def pathCheck (s : State) (pos : Pos) : Bool :=
  decide (s.track.sheets.length < Config.trackRecords)
    && decide (s.launch.schedule.length < Config.feedScheduleSize)
    && match s.launch.schedule.getLast? with
      | none => true
      | some l => decide (0 ≤ posDiff pos l.pos)

/-- Check 6, for LOOP sheets: the return pitch is a RETURN slot and its ring entry is free (R80). -/
def returnCheck (k : Installed) (s : State) (w : OrderWords) (final : Word) : Bool :=
  match modeOf w.w5 with
  | .direct => true
  | .loop => k.block.slotOfPitch final == some .ret && s.ringFree final

/-- Checks 5 to 7 (R80). -/
def checks5to7 (k : Installed) (s : State) (c : Candidate) (p : Word) : Option SkipReason :=
  if !s.pathCheck (pickPosition k s p c.tray) then some .pathFull
  else if !returnCheck k s c.order.words (finalPitchOf k c.order.words p) then some .noReturnSlot
  else if !s.exitOrderOk (finalPitchOf k c.order.words p) then some .orderHold
  else none

/-- The track record a launch allocates (R86 step 1, R92). -/
def newSheet (k : Installed) (s : State) (c : Candidate) (p : Word) : Sheet :=
  { id := s.track.nextId, order := c.order.id, mp := c.mp.id, tray := c.tray
    mode := modeOf c.order.words.w5, side2 := side2Of c.order.words, pass2 := false
    index := c.mp.launched, mergePitch := p, finalPitch := finalPitchOf k c.order.words p
    last := none, next := none, due := none, occ := [], dest := none, committed := false
    purge := none, transfer := .none, side2Check := .notDue, mark := .empty
    state := .pickPending }

/-- The Mailpiece Unit records a launch (R61). -/
def countLaunch (m : Nat) : State → State :=
  updMp m fun r =>
    let last : Bool := decide (r.sheetCount ≤ r.taken + 1)
    { r with
      launched := r.launched + 1
      taken := r.taken + 1
      closed := r.closed || last
      state := if last then .launched else r.state }

/-- The candidate is launched for merge pitch p (R86, steps 1 to 8). -/
def launchCandidate (k : Installed) (c : Candidate) (p : Word) (s : State) : State :=
  let x := s.newSheet k c p
  let pos := pickPosition k s p c.tray
  let s := s.onTrack fun u => { u with sheets := u.sheets ++ [x], nextId := u.nextId + 1 }
  let s := s.countLaunch c.mp.id
  let s := if x.mode = .loop then s.reserveReturn x.id x.finalPitch else s
  let s := s.onClock fun u => { u with lastFinal := some x.finalPitch }
  let s := (s.onLaunch fun u => { u with schedule := u.schedule ++ [⟨x.id, c.tray, pos⟩] }).registerCompare
    (.pick x.id) .up pos
  let s := s.updEntry c.order.id fun e => { e with state := .launched }
  let s := s.onLaunch fun u =>
    { u with candidate := none, emptyCount := 0, starvedArm := true, trayArm := true }
  let s := s.onMail fun u => { u with binWaitArm := true }
  s.onRetire fun u => { u with launched := u.launched + 1 }

/-! ## Skips (R57, R65, R81) -/

/-- A candidate ready-word read is requested; at most one is outstanding (R82). -/
def requestCandidateRead (s : State) : State :=
  match s.candidateEntry with
  | some e =>
    if s.launch.candRead.isNone then
      (s.onLaunch fun u => { u with candRead := some e.id }).requestRead .candidateReady
        [wordAddr e.addr 3]
    else s
  | none => s

/-- Step 5 of R81: the attention of a skip. -/
def skipAttention (r : SkipReason) (s : State) : State :=
  match r with
  | .starved =>
    if s.launch.starvedArm then
      (s.onLaunch fun u => { u with starvedArm := false }).setAttn .starved
    else s
  | .trayEmpty =>
    if s.launch.trayArm then
      (s.onLaunch fun u => { u with trayArm := false }).setAttn .trayEmpty
    else s
  | .binWait =>
    if s.mail.binWaitArm then
      (s.onMail fun u => { u with binWaitArm := false }).setAttn .binWait
    else s
  | .windowFull | .chainFault | .imageWait | .pathFull | .noReturnSlot | .orderHold => s

/-- Step 4 of R81: what a skip asks the memory for. -/
def skipRequests (r : SkipReason) (s : State) : State :=
  match r with
  | .starved => s.askReread
  | .imageWait => s.requestCandidateRead
  | .windowFull | .chainFault | .binWait | .trayEmpty | .pathFull | .noReturnSlot | .orderHold => s

/-- A full window closes the current mailpiece short when its OPEN is the head entry (R57). -/
def closeFullWindow (r : SkipReason) (s : State) : State :=
  match r, s.currentMp, s.fetch.window with
  | .windowFull, some m, h :: _ => if m.openRef = h.id then s.closeShort m else s
  | _, _, _ => s

/-- A skip (R81): the reason, the counter, the empty-pitch count with STANDBY considered, the requests, the attention. -/
def skip (r : SkipReason) (s : State) : State :=
  let s := s.onCtl fun u => { u with lastSkip := some r }
  let s := s.onRetire fun u => { u with skipped := u.skipped + 1 }
  let s := (s.onLaunch fun u => { u with emptyCount := min s.runOutLimit (u.emptyCount + 1) }).considerStandby
  ((s.skipRequests r).skipAttention r).closeFullWindow r

/-! ## The decision (R78) -/

/-- The merge pitch the decision at the present boundary concerns (R24). -/
def decisionPitch (k : Installed) (s : State) : Word := s.clock.pitch + BitVec.ofNat 32 k.qty.lmax

/-- Checks 5 to 7 for the candidate that passed checks 1 to 4: it is launched, or the pitch is skipped (R80). -/
def decideLaunch (k : Installed) (p : Word) (s : State) : State :=
  match s.launchable with
  | none => s
  | some c =>
    match s.checks5to7 k c p with
    | some r => s.skip r
    | none => s.launchCandidate k c p

/-- The decision at a boundary: only a FEED slot in RUNNING is launched or skipped (R78 to R80). -/
def launchDecision (s : State) : State :=
  match s.config with
  | none => s
  | some k =>
    let p := s.decisionPitch k
    if k.block.slotOfPitch p = some .feed ∧ s.ctl.state = .running then
      match s.checks1to4.2 with
      | some r => s.checks1to4.1.skip r
      | none => s.checks1to4.1.decideLaunch k p
    else s

/-! ## Wakes (R89) -/

/-- The wake evaluation asked for on this event: checks 1 to 4, and a wake when all pass (R89). -/
def evaluateWake (s : State) : State :=
  if s.launch.wakeAsked then
    let s := s.onLaunch fun u => { u with wakeAsked := false }
    if s.ctl.state = .standby then
      if s.checks1to4.2.isNone then (s.checks1to4.1.setState .running).runUpOrder
      else s.checks1to4.1
    else s
  else s

/-! ## Picks (R87, R96) -/

/-- The pick of a track record is issued with the latched counts of its compare event (R87, R96). -/
def issuePick (track : Nat) (latch : PerSection Pos) (s : State) : State :=
  match s.config, s.launch.schedule.find? (·.track == track) with
  | some k, some q =>
    let s := (s.emit (.pickPulse q.tray)).updSheet track fun x => { x with state := .inPath }
    let s := s.enterQueue k track (.fd q.tray) latch.up (k.block.trays.get q.tray).pickToFd
    s.onLaunch fun u => { u with schedule := u.schedule.filter (·.track ≠ track) }
  | _, _ => s

end Sys2Proof.Machine.State
end

