-- ==== Sys2Proof/Machine/Jam.lean ====
section
/-! DEFINITION. Jam Control (spec/09): reports, the primary and secondary jam, JAMMED entry, the resume point, the stop record. -/

namespace Sys2Proof.Machine.State

/-! ## Dropped picks (R144) -/

/-- The Mailpiece Unit undoes the launch of a dropped sheet (R61, R144). -/
def uncountLaunch (m : Nat) : State → State :=
  updMp m fun r =>
    { r with
      launched := r.launched - 1
      taken := r.taken - 1
      interrupted := true
      state := if r.state = .launched then .filling else r.state }

/-- One dropped entry of the feed schedule (R144). -/
def dropPick (s : State) (q : Pick) : State :=
  match s.findSheet q.track with
  | none => s
  | some x =>
    let s := ((s.freeSheet q.track).releaseReturn q.track).uncountLaunch x.mp
    let s := s.onRetire fun u => { u with launched := u.launched - 1 }
    s.updEntry x.order fun e => { e with dropped := true }

/-- Every entry of the feed schedule is dropped, in launch order (R144). -/
def dropPicks (s : State) : State :=
  (s.launch.schedule.foldl dropPick s).onLaunch fun u => { u with schedule := [] }

/-! ## Classification (R145, R146) -/

/-- Whether a sheet is stranded when the named sections stop (R145). -/
def isStranded (stopped : PerSection Bool) (x : Sheet) : Bool :=
  x.occ.any (fun o => stopped.get o.at_.sec)
    || match x.next with
      | some c => stopped.get c.sec
      | none => false

/-- A stranded sheet becomes FROZEN and its deadline compares are withdrawn (R93, R145). -/
def freeze (x : Nat) (s : State) : State :=
  (s.updSheet x fun r => { r with state := .frozen }).withdrawOwner (·.isOf x)

/-- Freezes every sheet in the path for which p holds. -/
def freezeWhere (p : Sheet → Bool) (s : State) : State :=
  (s.track.sheets.filter fun x => x.state == .inPath && p x).foldl (fun s x => s.freeze x.id) s

/-- A mailpiece is interrupted (R146): it has a stranded sheet, it lost a pick (flag already set), or it is not closed. -/
def becomesInterrupted (s : State) (m : Mailpiece) : Bool :=
  m.interrupted || !m.closed || s.track.sheets.any fun x => x.state == .frozen && x.mp == m.id

/-- The interrupted flags are set (R146). -/
def setInterrupted (s : State) : State :=
  s.onMail fun u =>
    { u with table := u.table.map fun m => { m with interrupted := s.becomesInterrupted m } }

/-- The draining sheets of interrupted mailpieces that are neither committed nor marked (R146). -/
def toMarkJam (s : State) : List Sheet :=
  s.track.sheets.filter fun x =>
    x.state == .inPath && !x.committed && x.purge.isNone
      && s.mail.table.any fun m => m.id == x.mp && m.interrupted

/-- The purge mark JAM is given to all of them before any is reported (R146). -/
def markJam (s : State) : State :=
  let marked := s.toMarkJam
  let s := s.onTrack fun u =>
    { u with
      sheets := u.sheets.map fun x =>
        if marked.any (·.id == x.id) then { x with purge := some .jam } else x }
  marked.foldl (fun s x => s.enterPurging x.mp .jam) s

/-! ## JAMMED entry (R149 to R153) -/

/-- A LOST settlement is summed into the outermost CALL of a sequence SHEET (R130). -/
def sumIntoCaller (order : Nat) (f : Summary → Summary) (s : State) : State :=
  match (s.findEntry order).bind (·.caller) with
  | some c => s.updEntry c fun e => { e with summary := f e.summary }
  | none => s

/-- The address of the block an entry was fetched from; 0 for an entry no longer in the window. -/
def entryAddr (s : State) (id : Nat) : Word :=
  match s.findEntry id with
  | some e => e.addr
  | none => 0

/-- The mailpiece number of a record; 0 for a record no longer in the table. -/
def mailpieceNumber (s : State) (m : Nat) : Word :=
  match s.findMp m with
  | some r => r.number
  | none => 0

/-- One stranded sheet settles LOST (R150). -/
def settleLost (s : State) (x : Sheet) : State :=
  let item : Stranded :=
    { addr := s.entryAddr x.order, number := s.mailpieceNumber x.mp, index := x.index, last := x.last }
  let s := s.onJam fun u => { u with stranded := u.stranded ++ [item] }
  let s := s.reportLost x
  let s := s.onRetire fun u => { u with lost := u.lost + 1 }
  let s := s.setEntry x.order .settled .lost (some .jam)
  let s := s.sumIntoCaller x.order fun c => { c with lost := c.lost + 1 }
  (s.releaseReturn x.id).freeSheet x.id

/-- Every sheet left in the track table settles LOST, in launch order; at JAMMED entry all of them are stranded (R150). -/
def settleAllLost (s : State) : State := s.track.sheets.foldl settleLost s

/-- Whether an OPEN entry qualifies under case 1 of R151. -/
def opensResume (s : State) (e : Entry) : Bool :=
  e.kind == .mpOpen && e.chain != .sequence
    && (e.state == .fetched
      || s.mail.table.any fun m => m.openRef == e.id && m.state == .filling && m.bin.isNone)

/-- The CALL of the main or recovery chain whose sequence has not been left (R151 case 2). -/
def unfinishedCall (s : State) : Option Entry :=
  s.fetch.window.find? fun e => e.kind == .call && e.chain != .sequence && e.callStatus == .pending

/-- The resume point found: its address, its chain, and the OPEN entry it names under case 1. -/
structure ResumePoint where
  addr : Word
  chain : Stream
  opener : Option Nat
deriving DecidableEq, Repr

def streamOf : Chain → Stream
  | .recovery => .recovery
  | .main | .sequence => .main

/-- The resume point (R151) and the chain it belongs to (R152). -/
def resumePoint (s : State) : ResumePoint :=
  match s.fetch.window.find? s.opensResume with
  | some e => ⟨e.addr, streamOf e.chain, some e.id⟩
  | none =>
    match s.unfinishedCall with
    | some e =>
      ⟨if e.words.link ≠ 0 ∧ s.orderAddrOk e.words.link then e.words.link else 0, streamOf e.chain, none⟩
    | none =>
      match s.fetch.pos with
      | .next a => ⟨a, s.fetch.chain, none⟩
      | .idle | .chainEnd _ | .chainFault _ | .awaitingHead _ _ | .returning _ | .continuing _ _ =>
        ⟨0, s.fetch.chain, none⟩

/-- The resync flag of a new main resume point (R152). -/
def resumeResync (s : State) (r : ResumePoint) : Bool :=
  r.opener.isNone
    && ((match s.mail.table.getLast? with
          | some m => m.interrupted
          | none => false)
      || (s.fetch.resync && s.fetch.chain == .main))

/-- The resume point is given to its chain (R152). -/
def assignResume (r : ResumePoint) (s : State) : State :=
  match r.chain with
  | .main =>
    s.onJam fun u =>
      { u with mainResume := r.addr, mainResync := s.resumeResync r, recoveryResume := 0 }
  | .recovery => s.onJam fun u => { u with recoveryResume := r.addr }

/-- The entries from the resume point on are discarded and the records of discarded OPENs are freed (R149 step 4). -/
def discardTail (r : ResumePoint) (s : State) : State :=
  match r.opener with
  | none => s
  | some id =>
    let kept := s.fetch.window.takeWhile (·.id ≠ id)
    (s.onFetch fun u => { u with window := kept }).onMail fun u =>
      { u with table := u.table.filter fun m => kept.any (·.id == m.openRef) }

/-- Step 4 of R149 for the other blocks: the Order Fetch Unit is idle with an empty stack (R52), its held steps are
dropped, and no order stands at the front (R91). -/
def clearFetch (s : State) : State :=
  let s := (s.discardRead).onFetch fun u => { u with pos := .idle, stack := [], outer := none }
  let s := s.onMem fun u =>
    { u with
      held := u.held.map fun h =>
        match h.steps with
        | .enterSequence _ _ _ => { h with steps := .nothing }
        | .retire | .chainFault | .endOfDrain | .stopRecord _ | .nothing => h }
  (s.onLaunch fun u => { u with candidate := none }).onMail fun u => { u with waitingOpen := none }

def skippedJam : Option Draft := some ⟨.skipped, some .jam⟩

/-- Step 5 of R149 for one entry (R153). -/
def settleOrder (s : State) (e : Entry) : Entry :=
  if e.retirable || (e.kind == .mpOpen && (s.mpOfOpen e.id).isSome) then e
  else if e.kind = .call ∧ e.callStatus = .left then
    -- left for R130; one not yet taken at the front is passed (log entry 15)
    if e.state = .fetched then { e with state := .passed, draft := some ⟨.passed, none⟩ } else e
  else
    match e.state with
    | .fetched =>
      if e.draft.isSome then { e with state := .passed }
      else { e with state := .settled, draft := skippedJam }
    | .passed =>
      if e.kind = .pause ∨ e.kind = .call then { e with state := .settled, draft := skippedJam }
      else e
    | .launched => if e.dropped then { e with state := .settled, draft := skippedJam } else e
    | .settled => e

def settleOrders (s : State) : State :=
  s.onFetch fun u => { u with window := u.window.map s.settleOrder }

/-- Step 6 of R149: every record is closed; an interrupted FILLING or LAUNCHED one enters PURGING with JAM; all settle
(R72, R73). -/
def closeMailpieces (s : State) : State :=
  let s := s.onMail fun u => { u with table := u.table.map fun m => { m with closed := true } }
  let s := (s.mail.table.filter (·.interrupted)).foldl (fun s m => s.enterPurging m.id .jam) s
  s.settleMailpieces true

/-- JAMMED entry (R149). The retirements and the stop record follow on the same event when the queue has room. -/
def jammedEntry (s : State) : State :=
  let s := (s.stopOrder ((perSection false).set .down true)).haltSections (perSection true)
  let s := s.settleAllLost
  let r := s.resumePoint
  let s := (((s.assignResume r).discardTail r).clearFetch).settleOrders.settleCalls
  let s := s.onJam fun u =>
    { u with
      interrupted := (s.mail.table.filter (·.interrupted)).map (·.number)
      recordDue := true
      recordIssued := false }
  (s.closeMailpieces).setState .jammed

/-! ## The stop record (R154, R178) -/

def optCode {α : Type} (code : α → Nat) (a : Option α) : Word := BitVec.ofNat 32 (codeOr0 code a)

/-- The four words of stranded place i (R178). -/
def strandedWords (i : Nat) (x : Stranded) : List (Nat × Word) :=
  [(30 + 4 * i, x.addr), (31 + 4 * i, x.number), (32 + 4 * i, BitVec.ofNat 32 x.index),
    (33 + 4 * i, optCode Checkpoint.code x.last)]

/-- The fields of the primary cause record: words 16 to 22 (R178). -/
def primaryWords : Option PrimaryCause → List (Nat × Word)
  | none => [(16, 0), (17, 0), (18, 0), (19, 0), (20, 0), (21, 0), (22, 0)]
  | some p =>
    [(16, BitVec.ofNat 32 p.cause.code), (17, BitVec.ofNat 32 p.place.code), (18, p.sheetAddr.getD 0),
      (19, p.counts.up.setWidth 32), (20, p.counts.loop.setWidth 32),
      (21, p.counts.down.setWidth 32), (22, p.pitch)]

/-- The stop record's words in layout order, the valid word last; list places beyond each count are not written (R154, R178). -/
def stopRecordWords (j : Jam) : List (Nat × Word) :=
  primaryWords j.primary
    ++ [(23, j.secondary), (24, optCode Cause.code (j.lastSecondary.map (·.1))),
      (25, optCode Place.code (j.lastSecondary.map (·.2))), (26, j.mainResume),
      (27, BitVec.ofNat 32 j.mainResync.toNat), (28, j.recoveryResume),
      (29, BitVec.ofNat 32 j.stranded.length)]
    ++ (j.stranded.zipIdx.flatMap fun (x, i) => strandedWords i x)
    ++ [(126, BitVec.ofNat 32 j.interrupted.length)]
    ++ (j.interrupted.zipIdx.map fun (n, i) => (127 + i, n))
    ++ [(159, j.seq)]

def stopRecordWrites (s : State) : List Write :=
  (stopRecordWords s.jam).map fun (k, v) =>
    ⟨2, s.controlWord k, v, if k = 159 then .validWord else .plain⟩

/-- Issues the rest of the stop record; a write that finds the queue full is held with those after it (R54, R154). -/
def issueStopRecord : List Write → State → State
  | [], s => s.onJam fun u => { u with recordIssued := true }
  | w :: rest, s => s.issueWrite w (.stopRecord rest) (issueStopRecord rest)

/-- The stop record is begun when the window is empty (R149 step 7, R154). -/
def beginStopRecord (s : State) : State :=
  if s.jam.recordDue ∧ s.fetch.window.isEmpty then
    (s.onJam fun u => { u with recordDue := false }).issueStopRecord s.stopRecordWrites
  else s

/-! ## Primary and secondary jam (R142, R143, R148) -/

/-- The sections stopped at once at a primary jam (R143). -/
def stoppedBy (fault : PerSection Bool) : PerSection Bool :=
  if fault.down then perSection true else ⟨true, true, false⟩

/-- JAMMED entry when no draining sheet is left (R142 step 7, R147). -/
def endOfDrain (s : State) : State :=
  if s.ctl.state = .stopping ∧ s.track.sheets.all (·.state == .frozen) then s.jammedEntry else s

/-- Step 1 of R142: the primary cause record. -/
def recordPrimary (r : Report) (s : State) : State :=
  s.onJam fun u =>
    { u with
      seq := if u.seq = BitVec.allOnes 32 then 1 else u.seq + 1
      primary := some
        { cause := r.cause, place := r.place, sheetAddr := r.sheet.map s.entryAddr
          counts := r.counts, pitch := s.clock.pitch }
      secondary := 0
      lastSecondary := none
      stranded := []
      interrupted := []
      recordIssued := false }

/-- The primary jam (R142). -/
def primaryJam (r : Report) (s : State) : State :=
  let stopped := stoppedBy r.place.sections
  let s := s.recordPrimary r
  let s := ((s.onCtl fun u => { u with state := .stopping, pauseRec := none }).setAttn .jam).discardRead
  let s := (s.stopOrder stopped).haltSections stopped
  let s := s.dropPicks
  let s := ((s.freezeWhere (isStranded stopped)).setInterrupted).markJam
  s.issueWrite ⟨2, s.controlWord 159, 0, .plain⟩ .endOfDrain endOfDrain

/-- A secondary jam (R148). -/
def secondaryJam (r : Report) (s : State) : State :=
  let s := s.onJam fun u =>
    { u with
      secondary := if u.secondary = BitVec.allOnes 32 then u.secondary else u.secondary + 1
      lastSecondary := some (r.cause, r.place) }
  let down := (perSection false).set .down true
  let s := (s.stopOrder down).haltSections down
  ((s.freezeWhere fun _ => true).setInterrupted).jammedEntry

/-- What Jam Control does with a report, by the controller state (R141). -/
def report (r : Report) (s : State) : State :=
  match s.ctl.state with
  | .running | .draining | .standby => s.primaryJam r
  | .stopping => s.secondaryJam r
  | .unconfigured | .ready | .halted | .jammed => s

/-- A path fault found by the Sheet Tracker or the Exit Unit: the section halts on the event of detection, then the
report is made (R97, R140). -/
def pathFault (cause : Cause) (c : Checkpoint) (sheet : Option Nat) (counts : PerSection Pos) (s : State) : State :=
  (s.haltSections ((perSection false).set c.sec true)).report
    { cause := cause, place := .checkpoint c, sheet := sheet, counts := counts }

end Sys2Proof.Machine.State
end

