-- ==== Sys2Proof/Machine/Exit.lean ====
section
/-! DEFINITION. The Exit Unit (spec/07): mark results, the masked compare, the commit at MRK, settlement in a bin. -/

namespace Sys2Proof.Machine.State

/-! ## Mark results (R114) -/

/-- A result is attributed to the sheet that occupies MRK if its mark result is empty (R114). -/
def attributeMark (r : MarkResult) (s : State) : State :=
  match s.occupant .mrk with
  | none => s
  | some (x, _) => if x.mark = .empty then s.updSheet x.id fun x => { x with mark := r } else s

/-- The expected mark of a sheet (R116). -/
def expectedMark (m : Mailpiece) (x : Sheet) : Word := m.markBase + BitVec.ofNat 32 x.index

/-- The masked compare (R116). -/
def markMatches (m : Mailpiece) (x : Sheet) (v : Word) : Bool :=
  (v ^^^ expectedMark m x) &&& m.markMask == 0

/-- Whether the mark check applies to a sheet (R117). -/
def markCheckApplies (k : Installed) (m : Mailpiece) (x : Sheet) : Bool :=
  (k.block.trays.get x.tray).markCheck && m.markMask != 0

/-! ## The commit (R119 to R121) -/

/-- The reason of a mark failure, rows 2 and 3 of R119. -/
def markFailure (k : Installed) (m : Mailpiece) (x : Sheet) : Option Reason :=
  if markCheckApplies k m x then
    match x.mark with
    | .empty | .noRead => some .markMissing
    | .value v => if markMatches m x v then none else some .markMismatch
  else none

/-- The destination and, for rows 2 and 3, the purge reason (R119).
Row 4 always finds a bin; were there none, PRG would stand in its place (log entry 21). -/
def chooseDest (k : Installed) (s : State) (x : Sheet) : Dest × Option Reason :=
  match x.purge, s.findMp x.mp with
  | none, some m =>
    match markFailure k m x with
    | some why => (.prg, some why)
    | none =>
      match m.bin with
      | some b => (.stk b, none)
      | none => (.prg, none)
  | _, _ => (.prg, none)

/-- Step 3 of R120: a sheet committed elsewhere than its provisional queue moves, expected from the same MRK anchor (R100). -/
def moveToDest (k : Installed) (x : Sheet) (anchor : Pos) (d : Dest) (s : State) : State :=
  match x.next with
  | some c =>
    if c = d.checkpoint then s
    else (s.leaveQueue x.id c).enterQueue k x.id d.checkpoint anchor (segmentToDest k d)
  | none => s

/-- Step 4 of R120: the Mailpiece Unit is told of the commit; a mark failure brings the mailpiece into PURGING (R66, R121). -/
def tellCommit (x : Sheet) (d : Dest) (failure : Option Reason) (s : State) : State :=
  match failure, d with
  | some why, _ => s.enterPurging x.mp why
  | none, .stk _ => s.updMp x.mp fun r => { r with committed := r.committed + 1 }
  | none, .prg => s

/-- The commit of a sheet at its MRK trailing edge; `anchor` is the DOWN count of its MRK leading edge (R119, R120). -/
def commit (k : Installed) (x : Sheet) (anchor : Pos) (s : State) : State :=
  let (d, failure) := chooseDest k s x
  let s := s.updSheet x.id fun r =>
    { r with
      dest := some d
      committed := true
      purge := match failure with
        | some why => some why
        | none => r.purge }
  let s := s.onExit fun u => { u with diverter := d }
  (s.moveToDest k x anchor d).tellCommit x d failure

/-! ## Settlement in a bin (R124, R125) -/

/-- What follows a settlement (R125 step 3): mailpieces settle, STANDBY is considered, DRAINING ends when the track table is
empty, STOPPING ends when no draining sheet is left. The rule places purge full's change to DRAINING (R68) at step 3 and
not before or after these; taking it before STANDBY is considered is the model's choice (log entry 24). -/
def afterSettlement (wasFull : Bool) (s : State) : State :=
  let s := s.settleMailpieces false
  let s := if s.mail.purgeFull ∧ wasFull = false ∧ s.ctl.state = .running then s.enterDraining else s
  let s := s.considerStandby
  let s := if s.ctl.state = .draining ∧ s.track.sheets.isEmpty then s.enterHalted else s
  s.endOfDrain

/-- The sheet's entry becomes SETTLED with its draft, and its outcome is summed into the outermost CALL (R125 step 1). -/
def settleSheetOrder (x : Sheet) (d : Dest) (s : State) : State :=
  match d with
  | .stk _ =>
    (s.setEntry x.order .settled .stacked none).sumIntoCaller x.order fun c =>
      { c with stacked := c.stacked + 1 }
  | .prg =>
    (s.setEntry x.order .settled .purged x.purge).sumIntoCaller x.order fun c =>
      { c with purged := c.purged + 1 }

/-- A sheet settles STACKED or PURGED at the trailing edge of its bin (R124, R125). -/
def settleSheet (x : Sheet) (d : Dest) (s : State) : State :=
  let wasFull := s.mail.purgeFull
  let s := match d with
    | .stk b => (s.reportStacked x.mp b).onRetire fun u => { u with stacked := u.stacked + 1 }
    | .prg => (s.reportPurged x.mp).onRetire fun u => { u with purged := u.purged + 1 }
  ((s.settleSheetOrder x d).freeSheet x.id).afterSettlement wasFull

end Sys2Proof.Machine.State
end

