-- ==== Sys2Proof/Machine/Edges.lean ====
section
/-! DEFINITION. The Sheet Tracker's edges, deadlines and answers (spec/06): classification, arrivals, lengths, transfers. -/

namespace Sys2Proof.Machine.State

/-! ## Arrivals (R99, R107, R109 to R112) -/

/-- The transfer decision at REG (R107). -/
def transferAtReg (x : Sheet) (s : State) : State :=
  let none_ := s.updSheet x.id fun r => { r with transfer := .none }
  if x.purge.isSome then none_
  else if x.pass2 ∧ x.side2 = none then none_
  else if x.pass2 ∧ x.side2Check ≠ .ready then none_.giveMark x.id .side2Late
  else if Config.transferFifoSize ≤ s.track.fifo.length then none_.giveMark x.id .transferFault
  else
    let image := if x.pass2 then x.side2.getD 0 else
      match s.findEntry x.order with
      | some e => e.words.w6
      | none => 0
    ((s.onTrack fun u => { u with fifo := u.fifo ++ [⟨x.id, true⟩] }).updSheet x.id fun r =>
      { r with transfer := .outstanding }).emit (.transferRequest image x.pass2)

/-- The pass-2 REG arrival ends a pending side-2 check (R110). -/
def endSide2Check (x : Sheet) (s : State) : State :=
  if x.pass2 ∧ x.side2Check = .pending then
    s.updSheet x.id fun r => { r with side2Check := .notReady }
  else s

/-- FUS: an unanswered transfer is abandoned (R109) and D1 is set (R111). -/
def workAtFus (x : Sheet) (s : State) : State :=
  let s := if x.transfer = .outstanding then
      let s := s.onTrack fun u =>
        { u with
          fifo := u.fifo.map fun t =>
            if t.track = x.id then { t with live := false } else t }
      (s.updSheet x.id fun r => { r with transfer := .abandoned }).giveMark x.id .transferFault
    else s
  s.onTrack fun u => { u with d1 := if towardInv x then .towardInv else .towardMrk }

/-- INV: the side-2 check becomes PENDING and the ready word is requested (R110). -/
def workAtInv (x : Sheet) (s : State) : State :=
  if towardInv x ∧ x.side2.isSome ∧ x.purge = none then
    (s.updSheet x.id fun r => { r with side2Check := .pending }).requestRead (.invReady x.id)
      [wordAddr (s.entryAddr x.order) 3]
  else s

/-- MRG: the pass-2 arrival of a LOOP sheet that comes from RTN (R112). -/
def workAtMrg (x : Sheet) (s : State) : State :=
  if x.mode = .loop ∧ x.pass2 = false ∧ x.last = some .rtn then
    (s.updSheet x.id fun r => { r with pass2 := true }).releaseReturn x.id
  else s

/-- The work of a checkpoint (R99 step 3); `x` is the record as it stood before the edge. -/
def checkpointWork (c : Checkpoint) (x : Sheet) (s : State) : State :=
  match c with
  | .mrg => s.workAtMrg x
  | .reg => (s.transferAtReg x).endSide2Check x
  | .fus => s.workAtFus x
  | .inv => s.workAtInv x
  | .fd _ | .rtn | .mrk | .stk _ | .prg => s

/-- Re-anchoring (R99 step 4): the sheet enters the queue of its next checkpoint, expected from the count this edge latched. -/
def reanchor (k : Installed) (c : Checkpoint) (id : Nat) (latch : PerSection Pos) (s : State) : State :=
  match s.findSheet id with
  | none => s
  | some x =>
    match route k s x c with
    | some (n, seg) => s.enterQueue k id n (latch.get n.sec) seg
    | none => s.updSheet id fun r => { r with next := none, due := none }

/-- An uncommitted sheet at a bin entry: path fault UNEXPECTED, DOWN halted (R123). -/
def checkCommitted (c : Checkpoint) (id : Nat) (latch : PerSection Pos) (s : State) : State :=
  match c.dest?, s.findSheet id with
  | some _, some x => if x.committed then s else s.pathFault .unexpected c (some x.order) latch
  | _, _ => s

/-- An on-time leading edge (R99): occupancy, last checkpoint, checkpoint work, re-anchoring, hand-off. -/
def onTime (k : Installed) (c : Checkpoint) (x : Sheet) (latch : PerSection Pos) (s : State) : State :=
  if 2 ≤ x.occ.length then s.pathFault .length c (some x.order) latch
  else
    let lead := latch.get c.sec
    let stuck := posAdd lead (2 * mediaOf k x)
    let s := s.leaveQueue x.id c
    let s := (s.updSheet x.id fun r =>
      { r with occ := r.occ ++ [⟨c, lead, stuck⟩], last := some c }).registerCompare (.stuck x.id c) c.sec stuck
    let s := s.checkpointWork c x
    (s.reanchor k c x.id latch).checkCommitted c x.id latch

/-! ## Leading edges (R98) -/

/-- How a leading edge is classified against the head of its queue (R98). -/
inductive Arrival where
  | early | onTime | late
deriving DecidableEq, Repr

/-- The classification by the signed differences to the early limit and to the expected position (R98). -/
def classify (due : Due) (capture : Pos) (lateTol : Nat) : Arrival :=
  if posDiff capture due.early < 0 then .early
  else if posDiff capture due.expected ≤ lateTol then .onTime
  else .late

/-- A leading edge at a checkpoint of a TRACKING section is matched against the head of its queue (R98). -/
def matchLeading (c : Checkpoint) (latch : PerSection Pos) (s : State) : State :=
  match s.config, s.queueHead c with
  | some k, some x =>
    match x.due with
    | some d =>
      match classify d (latch.get c.sec) (k.block.lateTol.get c.sec) with
      | .early => s.pathFault .early c (some x.order) latch
      | .onTime => s.onTime k c x latch
      | .late => s.pathFault .late c (some x.order) latch
    | none => s.pathFault .unexpected c none latch
  | _, _ => s.pathFault .unexpected c none latch

/-- A change of a sensor's held level (R6). -/
def setSensor (c : Checkpoint) (covered : Bool) : State → State :=
  onTransport fun u => { u with sensors := u.sensors.set c covered }

/-- A leading edge event (R6, R7, R97, R98); a sensor already covered has no leading edge (log entry 3). -/
def leadingEdge (c : Checkpoint) (s : State) : State :=
  if s.transport.sensors.get c then s
  else
    let s' := s.setSensor c true
    if s'.isTracking c then s'.matchLeading c s.transport.count else s'

/-! ## Trailing edges (R104, R105) -/

/-- The length check passes (R105). -/
def lengthOk (k : Installed) (x : Sheet) (len : Nat) : Bool :=
  decide (((len : Int) - (mediaOf k x : Int)).natAbs ≤ k.block.lengthTol)

/-- Whether a length failure at a checkpoint is a path fault (R105): FUS, INV, RTN, MRG on pass 2, MRK, unless the sheet
carries MULTIFEED or SHORT_SHEET. -/
def lengthFaults (c : Checkpoint) (x : Sheet) : Bool :=
  (match c with
    | .fus | .inv | .rtn | .mrk => true
    | .mrg => x.pass2
    | .fd _ | .reg | .stk _ | .prg => false)
  && x.purge != some .multifeed && x.purge != some .shortSheet

/-- What a trailing edge that ended an occupancy leads to (R105, R118, R124). -/
def afterOccupancy (k : Installed) (c : Checkpoint) (x : Sheet) (o : Occupancy) (latch : PerSection Pos) (s : State) :
    State :=
  let len := posLength (latch.get c.sec) o.lead
  if c = .reg then
    if lengthOk k x len then s
    else s.giveMark x.id (if mediaOf k x < len then .multifeed else .shortSheet)
  else if lengthFaults c x && !lengthOk k x len then s.pathFault .length c (some x.order) latch
  else
    match c.dest? with
    | some d => s.settleSheet x d
    | none => if c = .mrk then s.commit k x o.lead else s

/-- A trailing edge at a checkpoint of a TRACKING section (R104). -/
def matchTrailing (c : Checkpoint) (latch : PerSection Pos) (s : State) : State :=
  match s.config, s.occupant c with
  | some k, some (x, o) =>
    if x.state = .frozen then s.pathFault .unexpected c (some x.order) latch
    else
      let s := (s.updSheet x.id fun r => { r with occ := r.occ.filter (·.at_ ≠ c) }).withdrawOwner
        (· == .stuck x.id c)
      s.afterOccupancy k c x o latch
  | _, _ => s

/-- A trailing edge event (R6, R7, R97, R104); a sensor already clear has no trailing edge (log entry 3). -/
def trailingEdge (c : Checkpoint) (s : State) : State :=
  if s.transport.sensors.get c then
    let s' := s.setSensor c false
    if s'.isTracking c then s'.matchTrailing c s.transport.count else s'
  else s

/-! ## Compare events (R17, R87, R102, R103) -/

/-- The event of a compare that has been reached is taken: a boundary, a pick, or a deadline. -/
def takeCompare (owner : CompareOwner) (latch : PerSection Pos) (s : State) : State :=
  match owner with
  | .boundary => s.advancePitch.launchDecision
  | .pick t => s.issuePick t latch
  | .late t =>
    match s.findSheet t with
    | some x =>
      match x.next with
      | some c => s.pathFault .late c (some x.order) latch
      | none => s
    | none => s
  | .stuck t c =>
    match s.findSheet t with
    | some x => s.pathFault .stuck c (some x.order) latch
    | none => s

/-- The first compare whose event is to be taken and whose owner satisfies p. -/
def reachedCompare (s : State) (p : CompareOwner → Bool) : Option Compare :=
  s.transport.compares.find? fun k => k.event.isSome && p k.owner

/-- Takes the event of the first reached compare whose owner satisfies p; with none, nothing is taken (R5, log entry 3). -/
def takeReached (p : CompareOwner → Bool) (s : State) : State :=
  match s.reachedCompare p with
  | some k =>
    match k.event with
    | some latch => (s.withdrawOwner (· == k.owner)).takeCompare k.owner latch
    | none => s
  | none => s

/-- Whether a compare is the late deadline of a sheet due at c. -/
def isLateAt (s : State) (c : Checkpoint) : CompareOwner → Bool
  | .late t => (s.findSheet t).any fun x => x.next == some c
  | .boundary | .pick _ | .stuck _ _ => false

def isStuckAt (c : Checkpoint) : CompareOwner → Bool
  | .stuck _ d => d == c
  | .boundary | .pick _ | .late _ => false

def isPick : CompareOwner → Bool
  | .pick _ => true
  | .boundary | .late _ | .stuck _ _ => false

/-- Compares already reached when they were registered are taken within the event that registered them (R5, R100). -/
def takeAtOnce : Nat → State → State
  | 0, s => s
  | n + 1, s =>
    match s.transport.compares.find? (·.atOnce) with
    | some k =>
      match k.event with
      | some latch => ((s.withdrawOwner (· == k.owner)).takeCompare k.owner latch).takeAtOnce n
      | none => s
    | none => s

/-- An encoder step (R2, R5): the count advances by one, and every held compare on it that is now reached has its event,
with the three counts of this step. -/
def stepCounter (x : Section) : State → State :=
  onTransport fun u =>
    let count := u.count.set x (u.count.get x + 1)
    { u with
      count := count
      compares := u.compares.map fun k =>
        if k.event.isNone && k.sec == x && reaches (count.get x) k.pos then
          { k with event := some count }
        else k }

/-! ## Samples and the run-up timer (R11 to R15) -/

def reportStalls (stalled : List Section) (s : State) : State :=
  stalled.foldl
    (fun s x => s.report { cause := .stall, place := .sec x, sheet := none, counts := s.transport.count }) s

/-- The third all-in-band sample: AT-SPEED, the timer cancelled, the Pitch Clock started, and the boundary of pitch 0 handed
over (R11, R18). -/
def enterAtSpeed (s : State) : State :=
  ((s.onTransport fun u => { u with state := .atSpeed, runUpTimer := none }).startClock).launchDecision

/-- A sample in RUN-UP (R11). -/
def sampleRunUp (b : ConfigBlock) (s : State) : State :=
  let good : Section → Bool := fun x => (s.speedClasses b).get x == .inBand
  let n := if good .up && good .loop && good .down then s.transport.allInBand + 1 else 0
  let s := (s.takeSample b).onTransport fun u => { u with allInBand := n }
  if n = 3 then s.enterAtSpeed else s

/-- A sample in AT-SPEED (R14): speed deviation, then the stalls this sample shows, in the order UP, LOOP, DOWN (log entry 13). -/
def sampleAtSpeed (b : ConfigBlock) (s : State) : State :=
  ((s.judgeDeviation b).takeSample b).reportStalls (stalls b s)

/-- A sample in RUN-OUT (R15). -/
def sampleRunOut (b : ConfigBlock) (s : State) : State :=
  let s := s.takeSample b
  if s.transport.below = perSection 2 then s.enterStopped else s

/-- The expiry of a sample interval (R13); in STOPPED the sampler is idle and has none (log entry 3). -/
def sample (s : State) : State :=
  match s.config, s.transport.state with
  | some k, .runUp => s.sampleRunUp k.block
  | some k, .atSpeed => s.sampleAtSpeed k.block
  | some k, .runOut => s.sampleRunOut k.block
  | _, _ => s

/-- The expiry of the run-up timer in RUN-UP (R12); with no timer running there is none (log entry 3). -/
def runUpExpiry (s : State) : State :=
  if s.transport.state = .runUp ∧ s.transport.runUpTimer.isSome then
    s.enterRunOut.report
      { cause := .runupTimeout, place := .nowhere, sheet := none, counts := s.transport.count }
  else s

/-! ## Transfer answers (R108) -/

/-- TRANSFER DONE against the oldest FIFO entry (R108). -/
def answerDone (s : State) : State :=
  match s.track.fifo with
  | [] => s
  | t :: rest =>
    let s := s.onTrack fun u => { u with fifo := rest }
    if t.live then s.updSheet t.track fun r => { r with transfer := .done } else s

/-- TRANSFER FAULT against the oldest FIFO entry (R108). -/
def answerFault (s : State) : State :=
  match s.track.fifo with
  | [] => s
  | t :: rest =>
    let s := s.onTrack fun u => { u with fifo := rest }
    if t.live then
      (s.updSheet t.track fun r => { r with transfer := .faulted }).giveMark t.track .transferFault
    else s

end Sys2Proof.Machine.State
end

