-- ==== Sys2Proof/Machine/Memory.lean ====
section
/-! DEFINITION. The Memory Interface (spec/03 section 3.7) and the end of every event: the books are settled, reads are
issued, the bus is granted. -/

namespace Sys2Proof.Machine

/-- The class of a read (R53). -/
def Purpose.cls : Purpose → Nat
  | .invReady _ => 1
  | .candidateReady => 3
  | .fetch _ => 4
  | .windowLength | .configAddress | .configBlock | .mainHead | .recoveryHead => 6

namespace State

/-! ## Granting the bus (R53, R54) -/

/-- A read of a word for which the write queue holds a write is not granted (R54). -/
def readBlocked (s : State) (r : ReadReq) : Bool :=
  s.mem.queue.any fun w => r.addrs.any (· == w.addr)

/-- The first of the requests with the least class. -/
def firstOfLeastClass : List ReadReq → Option ReadReq
  | [] => none
  | r :: rest =>
    match firstOfLeastClass rest with
    | none => some r
    | some b => if r.purpose.cls ≤ b.purpose.cls then some r else some b

/-- The read that would be granted next. -/
def bestRead (s : State) : Option ReadReq :=
  firstOfLeastClass (s.mem.waiting.filter fun r => !s.readBlocked r)

/-- The class at which the write queue asks: the highest class of any write it holds (R54). -/
def queueClass (s : State) : Nat := (s.mem.queue.map (·.cls)).foldl min 6

/-- The access granted next (R53): the read of the highest class, or the head of the write queue. -/
def nextAccess (s : State) : Option Access :=
  match s.bestRead, s.mem.queue with
  | none, [] => none
  | none, w :: _ => some (.write w)
  | some r, [] => some (.read r)
  | some r, w :: _ => if r.purpose.cls < s.queueClass then some (.read r) else some (.write w)

/-- Grants one access when the bus is free (R53, log entry 9). -/
def grant (s : State) : State :=
  match s.mem.bus, s.nextAccess with
  | none, some (.read r) =>
    s.onMem fun u => { u with bus := some ⟨.read r, false⟩, waiting := u.waiting.erase r }
  | none, some (.write w) => s.onMem fun u => { u with bus := some ⟨.write w, false⟩ }
  | _, _ => s

/-! ## Completions (R53 to R55) -/

/-- The purpose of the read in progress, if a read is in progress that the reset line has not cut off. -/
def readInProgress (s : State) : Option Purpose :=
  match s.mem.bus with
  | some ⟨.read r, false⟩ => some r.purpose
  | _ => none

/-- The bus becomes free. -/
def freeBus (s : State) : State := s.onMem fun u => { u with bus := none }

/-- Whether an access cut off by the reset line is a read of this purpose, whichever sheet it was for (R55). -/
def cutRead (s : State) (p : Purpose → Bool) : Bool :=
  match s.mem.bus with
  | some ⟨.read r, true⟩ => p r.purpose
  | _ => false

/-- The steps a block was taking after a held write that has now entered the queue (R54). -/
def runSteps : HeldSteps → State → State
  | .retire, s | .nothing, s => s
  | .enterSequence call head w, s => s.enterSequence call head w
  | .chainFault, s => s.tellChainFault
  | .endOfDrain, s => s.endOfDrain
  | .stopRecord rest, s => s.issueStopRecord rest

/-- The held write that enters first: the highest class, and within it the one held first (R54). -/
def firstHeld : List HeldWrite → Option HeldWrite
  | [] => none
  | h :: rest =>
    match firstHeld rest with
    | none => some h
    | some b => if h.w.cls ≤ b.w.cls then some h else some b

/-- A held write enters the queue when there is room, and its block goes on with its steps (R54). -/
def admitHeld (s : State) : State :=
  if s.queueHasRoom then
    match firstHeld s.mem.held with
    | some h =>
      runSteps h.steps
        (s.onMem fun u => { u with queue := u.queue ++ [h.w], held := u.held.erase h })
    | none => s
  else s

/-- What the completion of a write announces (R137, R154). -/
def announceWrite (t : WriteTag) (s : State) : State :=
  match t with
  | .plain => s
  | .retiredCount => s.setAttn .retired
  | .validWord => s.setAttn .jam

/-- The write in progress completes: it leaves the queue, its attention is set, a held write enters (R54). -/
def completeWrite (s : State) : State :=
  match s.mem.bus with
  | some ⟨.write w, false⟩ =>
    let s := (s.freeBus).onMem fun u => { u with queue := u.queue.tail }
    ((s.emit (.memoryWrite w.addr w.value)).announceWrite w.tag).admitHeld
  | some ⟨.write w, true⟩ => (s.freeBus).emit (.memoryWrite w.addr w.value)
  | _ => s

/-! ## The end of an event (log entry 10) -/

/-- The books of the event: CALLs and mailpieces settle, the Retire Unit retires, the stop record begins. -/
def settleBooks (s : State) : State :=
  ((s.settleCalls.settleMailpieces false).retireAll).beginStopRecord

/-- Orders are taken at the front, one by one, with the books settled after each; at most `n`. -/
def frontLoop : Nat → State → State
  | 0, s => s
  | n + 1, s =>
    match s.takeFront with
    | none => s
    | some s' => s'.settleBooks.frontLoop n

/-- A bound on the orders that one event can take at the front: each entry once, and an OPEN a second time after waiting. -/
def frontFuel (s : State) : Nat := 2 * s.fetch.window.length + 1

/-- The end of every event that can move an order: compares reached at registration are taken, the books are settled, the
front is taken, a wake evaluation due is made, the Order Fetch Unit issues its read and the bus is granted. -/
def finish (s : State) : State :=
  let s := (s.takeAtOnce Config.trackRecords).settleBooks
  ((s.frontLoop s.frontFuel).evaluateWake).issueReads.grant

/-- A read of purpose p completes with the value used by `use`; one that the reset line cut off only frees the bus;
with no such read in progress nothing completes (R53, R55, log entry 3). -/
def completeRead (p : Purpose) (use : State → State) (s : State) : State :=
  if s.readInProgress = some p then (use s.freeBus).finish
  else if s.cutRead (· == p) then s.freeBus.finish
  else s

/-- The value of a read of the Order Fetch Unit is used unless it is to be discarded; the read is outstanding no longer (R43, R52). -/
def useFetchRead (k : FetchRead) (use : State → State) (s : State) : State :=
  if s.fetch.read = some ⟨k, false⟩ then use s.endRead else s.endRead

/-- A read of the Order Fetch Unit completes (R43, R52). -/
def completeFetchRead (k : FetchRead) (use : State → State) : State → State :=
  completeRead (.fetch k) (useFetchRead k use)

end State
end Sys2Proof.Machine
end

