-- ==== Sys2Proof/Machine/PathEvents.lean ====
section
/-! DEFINITION. The meanings of the commands of the paper path, the imaging unit, the mark reader and the inputs. -/

namespace Sys2Proof.Machine

open State

/-- What every meaning of this part answers: the next state, with nothing given out before the command. -/
def event (f : State → State) (s : State) : Host.Outcome State Fault Refusal := .next (f s.fresh)

/-- ENCODER_STEP (R2, R5). -/
def execEncoderStep (x : Section) (s : State) : Host.Outcome State Fault Refusal := event (stepCounter x) s

/-- LEADING_EDGE (R98). -/
def execLeadingEdge (c : Checkpoint) (s : State) : Host.Outcome State Fault Refusal :=
  event (fun s => (s.leadingEdge c).finish) s

/-- TRAILING_EDGE (R104). -/
def execTrailingEdge (c : Checkpoint) (s : State) : Host.Outcome State Fault Refusal :=
  event (fun s => (s.trailingEdge c).finish) s

/-- SAMPLE (R13). -/
def execSample (s : State) : Host.Outcome State Fault Refusal := event (fun s => s.sample.finish) s

/-- RUNUP_TIMEOUT (R12). -/
def execRunupTimeout (s : State) : Host.Outcome State Fault Refusal := event (fun s => s.runUpExpiry.finish) s

/-- PITCH_BOUNDARY (R17, R78). -/
def execPitchBoundary (s : State) : Host.Outcome State Fault Refusal :=
  event (fun s => (s.takeReached (· == .boundary)).finish) s

/-- PICK (R87). -/
def execPick (s : State) : Host.Outcome State Fault Refusal := event (fun s => (s.takeReached isPick).finish) s

/-- LATE_DEADLINE at a checkpoint (R102). -/
def execLateDeadline (c : Checkpoint) (s : State) : Host.Outcome State Fault Refusal :=
  event (fun s => (s.takeReached (s.isLateAt c)).finish) s

/-- STUCK_DEADLINE at a checkpoint (R103). -/
def execStuckDeadline (c : Checkpoint) (s : State) : Host.Outcome State Fault Refusal :=
  event (fun s => (s.takeReached (isStuckAt c)).finish) s

/-- TRANSFER_DONE (R108). -/
def execTransferDone (s : State) : Host.Outcome State Fault Refusal := event answerDone s

/-- TRANSFER_FAULT (R108). -/
def execTransferFault (s : State) : Host.Outcome State Fault Refusal := event (fun s => s.answerFault.finish) s

/-- MARK_VALUE (R114). -/
def execMarkValue (v : Word) (s : State) : Host.Outcome State Fault Refusal := event (attributeMark (.value v)) s

/-- MARK_NO_READ (R114). -/
def execMarkNoRead (s : State) : Host.Outcome State Fault Refusal := event (attributeMark .noRead) s

/-- UNLOAD_EVENT (R67). -/
def execUnloadEvent (d : Dest) (s : State) : Host.Outcome State Fault Refusal :=
  event (fun s => (s.unload d).askWake.finish) s

/-- REFILL_EVENT (R84); a tray that is not empty has none (log entry 3). -/
def execRefillEvent (t : Tray) (s : State) : Host.Outcome State Fault Refusal :=
  event (fun s =>
    if s.launch.trays.get t then
      ((s.onLaunch fun u => { u with trays := u.trays.set t false }).askWake).finish
    else s) s

/-- TRAY_EMPTY_INPUT (R84): only the held level changes. -/
def execTrayEmptyInput (t : Tray) (s : State) : Host.Outcome State Fault Refusal :=
  event (onLaunch fun u => { u with trays := u.trays.set t true }) s

end Sys2Proof.Machine
end

