-- ==== Sys2Proof/Machine/MemoryEvents.lean ====
section
/-! DEFINITION. The meanings of the completions of memory accesses. -/

namespace Sys2Proof.Machine

open State

/-- ORDER_FETCH_COMPLETE (R41); a completed order fetch, discarded or not, is an event of R89. -/
def execOrderFetchComplete (w : OrderWords) (s : State) : Host.Outcome State Fault Refusal :=
  event (completeRead (.fetch .order) fun s => (s.useFetchRead .order (takeFetched w)).askWake) s

/-- TAIL_REREAD (R43). -/
def execTailReread (v : Word) (s : State) : Host.Outcome State Fault Refusal :=
  event (completeFetchRead .tail (takeTail v)) s

/-- CHAIN_FAULT_REREAD (R44). -/
def execChainFaultReread (v : Word) (s : State) : Host.Outcome State Fault Refusal :=
  event (completeFetchRead .faultSource (takeFaultSource v)) s

/-- RETURN_LINK_READ (R47 steps 1 to 3). -/
def execReturnLinkRead (v : Word) (s : State) : Host.Outcome State Fault Refusal :=
  event (completeFetchRead .returnLink (takeReturnLink v)) s

/-- CONTINUATION_READ (R47 step 3, R130). -/
def execContinuationRead (v : Word) (s : State) : Host.Outcome State Fault Refusal :=
  event (completeFetchRead .continuation (takeContinuation v)) s

/-- The candidate's ready word: used when the same SHEET is still the candidate, else discarded (R82, R89). -/
def State.takeCandidateReady (v : Word) (s : State) : State :=
  let s' := s.onLaunch fun u => { u with candRead := none }
  match s.launch.candRead with
  | some id =>
    if s.launch.candidate = some id then
      (s'.updEntry id fun e => { e with words := { e.words with ready := v } }).askWake
    else s'.askWake
  | none => s'

/-- CANDIDATE_READY_WORD_READ (R82). -/
def execCandidateReadyWordRead (v : Word) (s : State) : Host.Outcome State Fault Refusal :=
  event (completeRead .candidateReady (takeCandidateReady v)) s

/-- The side-2 check of a sheet whose record is in use and whose check is PENDING; else the value is discarded (R110). -/
def State.takeInvReady (track : Nat) (v : Word) (s : State) : State :=
  s.updSheet track fun x =>
    if x.side2Check = .pending then
      { x with side2Check := if side2Ready v then .ready else .notReady }
    else x

/-- INV_READY_WORD_READ (R110): the read in progress names the sheet it was made for. -/
def execInvReadyWordRead (v : Word) (s : State) : Host.Outcome State Fault Refusal :=
  event (fun s =>
    match s.readInProgress with
    | some (.invReady t) => ((s.freeBus).takeInvReady t v).finish
    | _ =>
      if s.cutRead (fun p => match p with
        | .invReady _ => true
        | .candidateReady | .fetch _ | .windowLength | .configAddress | .configBlock | .mainHead
        | .recoveryHead => false) then s.freeBus.finish
      else s) s

/-- Control area word 0 has been read for LOAD CONFIG or RUN: the window length is installed and the next word is read
(R34, R165, R167). -/
def State.takeWindowLength (v : Word) (s : State) : State :=
  let s := s.onMem fun u => { u with windowLength := v }
  match s.ctl.cmd with
  | some ⟨_, .loadLength⟩ => (s.setPhase .loadAddress).requestRead .configAddress [s.controlWord 1]
  | some ⟨_, .runLength⟩ => (s.setPhase .runHead).requestRead .mainHead [s.controlWord 2]
  | _ => s

/-- WINDOW_LENGTH_READ (R34). -/
def execWindowLengthRead (v : Word) (s : State) : Host.Outcome State Fault Refusal :=
  event (completeRead .windowLength (takeWindowLength v)) s

/-- LOAD CONFIG ends with its validation result (R160, R165). -/
def State.endLoad (why : Option Validation) (s : State) : State :=
  (s.onCtl fun u => { u with validation := why }).endCommand 1
    (if why.isSome then .config else .accepted)

/-- Control area word 1 has been read: the block's address is checked, and the block is read word by word (R165, R177). -/
def State.takeConfigAddress (v : Word) (s : State) : State :=
  if s.configAddrOk v then (s.setPhase (.loadBlock v [])).requestRead .configBlock [wordAddr v 0]
  else s.endLoad (some .window)

/-- CONFIG_ADDRESS_READ (R165). -/
def execConfigAddressRead (v : Word) (s : State) : Host.Outcome State Fault Refusal :=
  event (completeRead .configAddress (takeConfigAddress v)) s

/-- A block that passes every check is installed in all the blocks together (R25, R69, R137, R165). -/
def State.install (b : ConfigBlock) (s : State) : State :=
  let k : Installed := ⟨b, b.quantities⟩
  let s := { s with config := some k }
  let s := s.onClock fun u => { u with loopUnusable := !k.loopUsable }
  let s := s.reevaluatePurgeFull
  let s := s.onRetire fun u => { u with batching := u.retired.toNat % s.retireBatch }
  if s.ctl.state = .unconfigured then s.setState .ready else s

/-- The words of the block are all read: the block is validated and installed or refused (R165, R166). -/
def State.validateAndInstall (ws : List Word) (s : State) : State :=
  match (configBlockOf ws).validate with
  | some why => s.endLoad (some why)
  | none => (s.install (configBlockOf ws)).endLoad none

/-- One word of the configuration block has been read; after the 60th the block is validated (R165, R177). -/
def State.takeConfigWord (v : Word) (s : State) : State :=
  match s.ctl.cmd with
  | some ⟨_, .loadBlock base ws⟩ =>
    let ws := ws ++ [v]
    if ws.length < Config.configWordsRead then
      (s.setPhase (.loadBlock base ws)).requestRead .configBlock [wordAddr base ws.length]
    else s.validateAndInstall ws
  | _ => s

/-- CONFIG_BLOCK_READ (R165). -/
def execConfigBlockRead (v : Word) (s : State) : Host.Outcome State Fault Refusal :=
  event (completeRead .configBlock (takeConfigWord v)) s

/-- RUN ends: the value is the start address while the controller is RUNNING or STANDBY, else it is discarded (R167). -/
def State.takeMainHead (v : Word) (s : State) : State :=
  (if s.takesFront then s.startFromWord2 v else s).endCommand 2 .accepted

/-- MAIN_HEAD_READ (R167). -/
def execMainHeadRead (v : Word) (s : State) : Host.Outcome State Fault Refusal :=
  event (completeRead .mainHead (takeMainHead v)) s

/-- RECOVER ends: the value is the recovery start address while the controller is RUNNING or STANDBY, else it is discarded (R168). -/
def State.takeRecoveryHead (v : Word) (s : State) : State :=
  (if s.takesFront then s.startFromWord3 v else s).endCommand 5 .accepted

/-- RECOVERY_HEAD_READ (R168). -/
def execRecoveryHeadRead (v : Word) (s : State) : Host.Outcome State Fault Refusal :=
  event (completeRead .recoveryHead (takeRecoveryHead v)) s

/-- WRITE_COMPLETE (R54). -/
def execWriteComplete (s : State) : Host.Outcome State Fault Refusal := event (fun s => s.completeWrite.finish) s

end Sys2Proof.Machine
end

