-- ==== Sys2Proof/WellFormed.lean ====
section
/-! DEFINITION. Which commands the table's rows admit: the one operand that a row limits is UNKNOWN_COMMAND's code. -/

namespace Sys2Proof

/-- The seven command codes of R174. -/
def namesCommand (code : Word) : Bool :=
  1 ≤ code.toNat && code.toNat ≤ 7

/-- A command as its row admits it: UNKNOWN_COMMAND carries a code that names none of the seven commands (R160). -/
def Instr.wellFormed : Instr → Bool
  | .unknownCommand code => !namesCommand code
  | .resetLine _ _ | .encoderStep _ | .leadingEdge _ | .trailingEdge _ | .sample | .runupTimeout
  | .pitchBoundary | .pick | .lateDeadline _ | .stuckDeadline _ | .transferDone | .transferFault
  | .markValue _ | .markNoRead | .unloadEvent _ | .refillEvent _ | .trayEmptyInput _
  | .orderFetchComplete _ | .tailReread _ | .chainFaultReread _ | .returnLinkRead _
  | .continuationRead _ | .candidateReadyWordRead _ | .invReadyWordRead _ | .windowLengthRead _
  | .configAddressRead _ | .configBlockRead _ | .mainHeadRead _ | .recoveryHeadRead _
  | .writeComplete | .areaWrite _ | .loadConfig | .run | .halt | .resume | .recover | .extend
  | .pathReset | .overrun _ | .attnRead | .amaskWrite _ | .ignoredRegisterWrite _ _ => true

end Sys2Proof
end

