-- ==== Sys2Proof/Machine/HostEvents.lean ====
section
/-! DEFINITION. The meanings of the reset line and of the host's register accesses and commands (spec/10). -/

namespace Sys2Proof.Machine

open State

/-! ## The reset line (R3, R6, R16, R55, R84, R172) -/

/-- The part after the reset line: every block at its reset state, the sensor and tray levels taken as they stand, the
commands still waiting kept, and an access in progress cut off from its requester but running to its end on the bus. -/
def State.resetPart (covered : PerCheckpoint Bool) (trayEmpty : PerTray Bool) (s : State) : State :=
  let r := State.reset
  { r with
    transport := { r.transport with sensors := covered }
    launch := { r.launch with trays := trayEmpty }
    mem := { r.mem with bus := s.mem.bus.map fun b => { b with cut := true } }
    pending := s.pending
    freeIndex := s.freeIndex }

/-- RESET_LINE (R172). -/
def execResetLine (covered : PerCheckpoint Bool) (trayEmpty : PerTray Bool) (s : State) : Host.Outcome State Fault Refusal :=
  event (resetPart covered trayEmpty) s

/-! ## Registers (R158, R159, R170, R171) -/

/-- The controller states in which AREA may be written (R158). -/
def State.areaWritable (s : State) : Bool :=
  match s.ctl.state with
  | .unconfigured | .ready | .halted => true
  | .running | .standby | .draining | .stopping | .jammed => false

/-- AREA_WRITE: taken down to a multiple of 4 and stored (R158). -/
def execAreaWrite (v : Word) (s : State) : Host.Outcome State Fault Refusal :=
  event (fun s =>
    if areaWritable s then s.onCtl fun u => { u with area := v &&& ~~~(3 : Word) } else s) s

/-- ATTN_READ: the flags as they stand are returned and all cleared (R170). -/
def execAttnRead (s : State) : Host.Outcome State Fault Refusal :=
  event (fun s => (s.emit (.attnValue s.attnWord)).onCtl fun u => { u with attn := 0 }) s

/-- AMASK_WRITE: the eleven enables are stored (R171). -/
def execAmaskWrite (v : Word) (s : State) : Host.Outcome State Fault Refusal :=
  event (onCtl fun u => { u with amask := v.setWidth 11 }) s

/-- IGNORED_REGISTER_WRITE (R159, R170). -/
def execIgnoredRegisterWrite (_r : IgnoredRegister) (_v : Word) (s : State) : Host.Outcome State Fault Refusal :=
  event id s

/-! ## Commands (R160 to R169) -/

/-- A write to CMD: OVERRUN while a command is being taken, else the command is checked and carried out (R160). -/
def command (code : Word) (take : State → State) (s : State) : Host.Outcome State Fault Refusal :=
  event (fun s => if s.commandBusy then s.overrunCommand code else (take s).finish) s

/-- LOAD CONFIG's state check (R164). -/
def State.loadAllowed (s : State) : Bool :=
  match s.ctl.state with
  | .unconfigured | .ready => true
  | .halted => s.mail.table.isEmpty
  | .running | .standby | .draining | .stopping | .jammed => false

/-- LOAD CONFIG accepted by the state check reads control area word 0 (R165). Refused by it, the command leaves the
validation code as it stands, since R160 has no code for that refusal: the model's choice (log entry 26). -/
def State.takeLoadConfig (s : State) : State :=
  if loadAllowed s then (s.beginCommand 1 .loadLength).requestRead .windowLength [s.controlWord 0]
  else s.endCommand 1 .refusedState

/-- LOAD_CONFIG (R165). -/
def execLoadConfig (s : State) : Host.Outcome State Fault Refusal := command 1 takeLoadConfig s

/-- RUN's checks, in their order (R164). -/
def State.runRefusal (s : State) : Option CommandOutcome :=
  if !(s.ctl.state == .ready || (s.ctl.state == .halted && s.fetch.window.isEmpty)) then
    some .refusedState
  else if !s.sensorsClear then some .pathNotClear
  else if s.mail.purgeFull then some .purgeFull
  else none

/-- Step 2 of R167 and what R38, R74, R91 and R139 empty at RUN: the order window, the mailpiece table, the call stack,
the feed schedule and the candidate. -/
def State.emptyForRun (s : State) : State :=
  let s := (s.freshFetch .main false).onFetch fun u => { u with window := [] }
  let s := s.onMail fun u => { u with table := [], waitingOpen := none }
  let s := (s.onLaunch fun u => { u with schedule := [], candidate := none }).withdrawOwner isPick
  s.onRetire fun u => { u with step := none }

/-- Step 3 of R167: the resume points, the resync flag and recovery pending are cleared (R157). -/
def State.clearResume (s : State) : State :=
  s.onJam fun u =>
    { u with mainResume := 0, mainResync := false, recoveryResume := 0, recoveryPending := false }

/-- RUN taken (R167). -/
def State.takeRun (s : State) : State :=
  match runRefusal s with
  | some o => s.endCommand 2 o
  | none =>
    let s := ((emptyForRun (s.setState .running)).clearResume).runUpOrder
    (s.beginCommand 2 .runLength).requestRead .windowLength [s.controlWord 0]

/-- RUN (R167). -/
def execRun (s : State) : Host.Outcome State Fault Refusal := command 2 takeRun s

/-- HALT taken (R163). -/
def State.takeHalt (s : State) : State :=
  match s.ctl.state with
  | .running => (s.endCommand 3 .accepted).enterDraining
  | .standby => (s.endCommand 3 .accepted).enterHalted
  | .unconfigured | .ready | .draining | .halted | .stopping | .jammed =>
    s.endCommand 3 .refusedState

/-- HALT (R163). -/
def execHalt (s : State) : Host.Outcome State Fault Refusal := command 3 takeHalt s

/-- The checks of RESUME and, with recovery pending asked for, of RECOVER (R164). -/
def State.restartRefusal (needPending : Bool) (s : State) : Option CommandOutcome :=
  if !(s.ctl.state == .halted && (!needPending || s.jam.recoveryPending)) then some .refusedState
  else if s.mail.purgeFull then some .purgeFull
  else none

/-- What RESUME and RECOVER do on acceptance before the fetch is given its start (R168). -/
def State.restart (s : State) : State :=
  ((s.setState .running).onJam fun u => { u with recoveryPending := false }).runUpOrder

/-- RESUME taken (R49, R156, R168). -/
def State.takeResume (s : State) : State :=
  match restartRefusal false s with
  | some o => s.endCommand 4 o
  | none =>
    let s' := restart s
    let s' := if s.jam.recoveryPending then
        (s'.freshFetch .main s.jam.mainResync).startMainResume
      else s'
    s'.endCommand 4 .accepted

/-- RESUME (R168). -/
def execResume (s : State) : Host.Outcome State Fault Refusal := command 4 takeResume s

/-- RECOVER taken (R49, R156, R168). -/
def State.takeRecover (s : State) : State :=
  match restartRefusal true s with
  | some o => s.endCommand 5 o
  | none =>
    let s' := (restart s).freshFetch .recovery false
    if s.jam.recoveryResume = 0 then
      (s'.beginCommand 5 .recoverHead).requestRead .recoveryHead [s'.controlWord 3]
    else (s'.follow (.value s.jam.recoveryResume) s.jam.recoveryResume).endCommand 5 .accepted

/-- RECOVER (R168). -/
def execRecover (s : State) : Host.Outcome State Fault Refusal := command 5 takeRecover s

/-- EXTEND taken (R44, R89, R169). -/
def State.takeExtend (s : State) : State :=
  match s.ctl.state with
  | .running | .draining | .halted => s.extendFetch.endCommand 6 .accepted
  | .standby => ((s.extendFetch.requestCandidateRead).askWake).endCommand 6 .accepted
  | .unconfigured | .ready | .stopping | .jammed => s.endCommand 6 .refusedState

/-- EXTEND (R169). -/
def execExtend (s : State) : Host.Outcome State Fault Refusal := command 6 takeExtend s

/-- PATH RESET's checks, in their order (R164). -/
def State.pathResetRefusal (s : State) : Option CommandOutcome :=
  if !((s.ctl.state == .jammed && s.jam.recordIssued) || s.ctl.state == .halted) then
    some .refusedState
  else if !s.sensorsClear then some .pathNotClear
  else none

/-- The blocks of the path return to rest (R155). -/
def State.clearPath (s : State) : State :=
  let s := s.onTrack fun u => { u with sheets := [], queues := perCheckpoint [], fifo := [] }
  let s := s.withdrawOwner fun o => o.isDeadline || isPick o
  let s := s.haltSections (perSection true)
  let s := s.onLaunch fun u => { u with schedule := [] }
  s.onClock fun u => { u with ring := [] }

/-- PATH RESET taken (R155, R156, R169). -/
def State.takePathReset (s : State) : State :=
  match pathResetRefusal s with
  | some o => s.endCommand 7 o
  | none =>
    let s' := clearPath s
    let s' := if s.ctl.state = .jammed then
        (s'.onJam fun u => { u with recoveryPending := true }).enterHalted
      else s'
    s'.endCommand 7 .accepted

/-- PATH_RESET (R155). -/
def execPathReset (s : State) : Host.Outcome State Fault Refusal := command 7 takePathReset s

/-- UNKNOWN_COMMAND: a code that names no command is taken and refused (R160); a code that names one is no such command
(log entry 17). -/
def execUnknownCommand (code : Word) (s : State) : Host.Outcome State Fault Refusal :=
  if namesCommand code then .fault .codeNamesACommand
  else command code (endCommand code .refusedState) s

/-- OVERRUN: a CMD write of any code while a command is being taken (R160); otherwise the write is no OVERRUN (log entry 3). -/
def execOverrun (code : Word) (s : State) : Host.Outcome State Fault Refusal :=
  event (fun s => if s.commandBusy then s.overrunCommand code else s) s

end Sys2Proof.Machine
end

