-- ==== Sys2Proof/Machine/Dispatch.lean ====
section
/-! DEFINITION. One arm for each command of spec/opcode_table.json. -/

namespace Sys2Proof.Machine

def exec (i : Instr) (s : State) : Host.Outcome State Fault Refusal :=
  match i with
  | .resetLine covered trayEmpty => Sys2Proof.Machine.execResetLine covered trayEmpty s
  | .encoderStep x => Sys2Proof.Machine.execEncoderStep x s
  | .leadingEdge c => Sys2Proof.Machine.execLeadingEdge c s
  | .trailingEdge c => Sys2Proof.Machine.execTrailingEdge c s
  | .sample => Sys2Proof.Machine.execSample s
  | .runupTimeout => Sys2Proof.Machine.execRunupTimeout s
  | .pitchBoundary => Sys2Proof.Machine.execPitchBoundary s
  | .pick => Sys2Proof.Machine.execPick s
  | .lateDeadline c => Sys2Proof.Machine.execLateDeadline c s
  | .stuckDeadline c => Sys2Proof.Machine.execStuckDeadline c s
  | .transferDone => Sys2Proof.Machine.execTransferDone s
  | .transferFault => Sys2Proof.Machine.execTransferFault s
  | .markValue v => Sys2Proof.Machine.execMarkValue v s
  | .markNoRead => Sys2Proof.Machine.execMarkNoRead s
  | .unloadEvent d => Sys2Proof.Machine.execUnloadEvent d s
  | .refillEvent t => Sys2Proof.Machine.execRefillEvent t s
  | .trayEmptyInput t => Sys2Proof.Machine.execTrayEmptyInput t s
  | .orderFetchComplete w => Sys2Proof.Machine.execOrderFetchComplete w s
  | .tailReread v => Sys2Proof.Machine.execTailReread v s
  | .chainFaultReread v => Sys2Proof.Machine.execChainFaultReread v s
  | .returnLinkRead v => Sys2Proof.Machine.execReturnLinkRead v s
  | .continuationRead v => Sys2Proof.Machine.execContinuationRead v s
  | .candidateReadyWordRead v => Sys2Proof.Machine.execCandidateReadyWordRead v s
  | .invReadyWordRead v => Sys2Proof.Machine.execInvReadyWordRead v s
  | .windowLengthRead v => Sys2Proof.Machine.execWindowLengthRead v s
  | .configAddressRead v => Sys2Proof.Machine.execConfigAddressRead v s
  | .configBlockRead v => Sys2Proof.Machine.execConfigBlockRead v s
  | .mainHeadRead v => Sys2Proof.Machine.execMainHeadRead v s
  | .recoveryHeadRead v => Sys2Proof.Machine.execRecoveryHeadRead v s
  | .writeComplete => Sys2Proof.Machine.execWriteComplete s
  | .areaWrite v => Sys2Proof.Machine.execAreaWrite v s
  | .loadConfig => Sys2Proof.Machine.execLoadConfig s
  | .run => Sys2Proof.Machine.execRun s
  | .halt => Sys2Proof.Machine.execHalt s
  | .resume => Sys2Proof.Machine.execResume s
  | .recover => Sys2Proof.Machine.execRecover s
  | .extend => Sys2Proof.Machine.execExtend s
  | .pathReset => Sys2Proof.Machine.execPathReset s
  | .unknownCommand code => Sys2Proof.Machine.execUnknownCommand code s
  | .overrun code => Sys2Proof.Machine.execOverrun code s
  | .attnRead => Sys2Proof.Machine.execAttnRead s
  | .amaskWrite v => Sys2Proof.Machine.execAmaskWrite v s
  | .ignoredRegisterWrite r v => Sys2Proof.Machine.execIgnoredRegisterWrite r v s

end Sys2Proof.Machine
end

