-- ==== Sys2Proof/Machine/Registers.lean ====
section
/-! DEFINITION. The register window (R174): the offsets, the command that a write of a word to a register is, and what a
read returns. -/

namespace Sys2Proof.Machine

/-- The registers of the table of R174. -/
inductive Register where
  | area | cmd | stat0 | stat1 | attn | amask
deriving DecidableEq, Repr

/-- The register at an offset from the part's register base; the table of R174 names no other. -/
def registerAt : Nat → Option Register
  | 0x00 => some .area
  | 0x04 => some .cmd
  | 0x08 => some .stat0
  | 0x0C => some .stat1
  | 0x10 => some .attn
  | 0x14 => some .amask
  | _ => none

/-- The command that a code written to CMD names (R160, R174). -/
def commandOfCode (code : Word) : Instr :=
  match code.toNat with
  | 1 => .loadConfig
  | 2 => .run
  | 3 => .halt
  | 4 => .resume
  | 5 => .recover
  | 6 => .extend
  | 7 => .pathReset
  | _ => .unknownCommand code

namespace State

/-- The command that a write of v to a register is (R158 to R160, R170, R171). -/
def registerWrite (s : State) (r : Register) (v : Word) : Instr :=
  match r with
  | .area => .areaWrite v
  | .cmd => if s.commandBusy then .overrun v else commandOfCode v
  | .stat0 => .ignoredRegisterWrite .stat0 v
  | .stat1 => .ignoredRegisterWrite .stat1 v
  | .attn => .ignoredRegisterWrite .attn v
  | .amask => .amaskWrite v

/-- The word that a read of a register returns (R158 to R160, R170, R171). -/
def registerRead (s : State) : Register → Word
  | .area => s.areaRead
  | .cmd => s.cmdRead
  | .stat0 => s.statWord0
  | .stat1 => s.statWord1
  | .attn => s.attnWord
  | .amask => s.amaskRead

/-- The command that a write of v at an offset is, if a register stands there (R174). -/
def windowWrite (s : State) (offset : Nat) (v : Word) : Option Instr :=
  (registerAt offset).map fun r => s.registerWrite r v

/-- The word that a read at an offset returns, if a register stands there (R174). -/
def windowRead (s : State) (offset : Nat) : Option Word := (registerAt offset).map s.registerRead

end State

/-- The command that a read of a register is: a read of ATTN clears the flags, any other changes nothing (R159, R170). -/
def readCommand : Register → Option Instr
  | .attn => some .attnRead
  | .area | .cmd | .stat0 | .stat1 | .amask => none

end Sys2Proof.Machine
end

