-- ==== Sys2Proof/Safety.lean ====
section
/-! DEFINITION. The invariants the statements are about, and what it means that no work of an event is left. -/

namespace Sys2Proof.Machine.State

/-! ## The sheet books (R133, R161) -/

/-- The controller states in which no sheet is in the track table. -/
def emptyPathState (c : ControllerState) : Bool :=
  match c with
  | .unconfigured | .ready | .standby | .halted | .jammed => true
  | .running | .draining | .stopping => false

/-- The relation of R133, the identity of the track records, and the states in which there are none. -/
structure SheetBooks (s : State) : Prop where
  /-- Sheets launched = stacked + purged + lost + track entries in use (R133). -/
  relation : s.retire.launched =
    s.retire.stacked + s.retire.purged + s.retire.lost + BitVec.ofNat 32 s.track.sheets.length
  /-- No two records in use have the same serial number. -/
  distinct : (s.track.sheets.map (·.id)).Nodup
  /-- The next serial number is new. -/
  below : ∀ x ∈ s.track.sheets, x.id < s.track.nextId
  /-- UNCONFIGURED, READY, STANDBY, HALTED and JAMMED have an empty track table (R88, R150, R162). -/
  idle : emptyPathState s.ctl.state = true → s.track.sheets = []

/-! ## Capacities -/

/-- No two reservations hold the same entry of the 64-entry ring (R26). -/
def RingDistinct (s : State) : Prop := (s.clock.ring.map fun h => ringIndex h.pitch).Nodup

/-- Every table, queue and stack is within its size, and the return reservation ring within its entries. -/
structure TablesFit (s : State) : Prop where
  window : s.fetch.window.length ≤ Config.orderWindowSize
  stack : s.fetch.stack.length ≤ Config.callStackDepth
  mailpieces : s.mail.table.length ≤ Config.mailpieceRecords
  sheets : s.track.sheets.length ≤ Config.trackRecords
  schedule : s.launch.schedule.length ≤ Config.feedScheduleSize
  fifo : s.track.fifo.length ≤ Config.transferFifoSize
  queue : s.mem.queue.length ≤ Config.writeQueueSize
  ring : s.RingDistinct

/-! ## The installed configuration -/

/-- What is installed passed the checks of R166, and what is computed from it is as computed (R22, R25, R68, R137). -/
structure ConfigurationHolds (s : State) : Prop where
  valid : ∀ k, s.config = some k → k.block.validate = none ∧ k.qty = k.block.quantities
  none_ : s.config = none → s.clock.loopUnusable = false
  loop : ∀ k, s.config = some k → s.clock.loopUnusable = !k.loopUsable
  purgeFull : s.mail.purgeFull = s.purgeFullNow
  batching : s.retire.batching = s.retire.retired.toNat % s.retireBatch

/-! ## Mailpieces -/

/-- At most one record is open, the one most recently allocated, and none while an OPEN waits (R57, R59). -/
structure OneOpenMailpiece (s : State) : Prop where
  onlyLast : s.mail.table.dropLast.all (·.closed) = true
  waiting : s.mail.waitingOpen.isSome = true → s.mail.table.all (·.closed) = true

/-! ## Ends of commands -/

/-- The state as a command that ends on the event of its write leaves it: its code and outcome are written, command busy is
no, ATTN COMMAND is set, and nothing else has changed (R160). -/
def ended (s : State) (code : Word) (o : CommandOutcome) : State :=
  { s with
    out := []
    ctl := { s.ctl with
      lastCommand := some code, lastOutcome := some o, cmd := none, attn := s.ctl.attn ||| 0x200 } }

/-- Every sensor is clear (R8). -/
def allClear (s : State) : Prop := ∀ c : Checkpoint, s.transport.sensors.get c = false

/-! ## No work of an event is left -/

/-- No order stands at the front that is to be taken now (R59, R75). -/
def frontQuiet (s : State) : Bool :=
  match s.front with
  | none => true
  | some e =>
    !s.takesFront || s.launch.candidate == some e.id
      || (s.mail.waitingOpen == some e.id && !s.tableHasRoom)

/-- The head entry is not to be retired now (R128). -/
def retireQuiet (s : State) : Bool :=
  match s.fetch.window with
  | [] => !s.jam.recordDue
  | e :: _ => !e.retirable || s.retireHeld

/-- No event's work is left: no compare reached at its registration, no CALL or mailpiece to settle, nothing to retire or
to take at the front, no wake evaluation, no read to issue and no access to grant. -/
def atRest (s : State) : Bool :=
  s.transport.compares.all (fun k => !k.atOnce)
    && s.fetch.window.all (fun e => !s.callSettles e)
    && s.mail.table.all (fun m => !mpSettles false m)
    && s.retireQuiet && s.frontQuiet && !s.launch.wakeAsked
    && (!s.fetches || s.fetch.read.isSome || s.fetchHeld || s.wantedRead.isNone)
    && (s.mem.bus.isSome || s.nextAccess.isNone)

end Sys2Proof.Machine.State

namespace Sys2Proof

/-- The code that the CMD write of a command carries (R160, R174). -/
def Instr.cmdCode : Instr → Option Word
  | .loadConfig => some 1
  | .run => some 2
  | .halt => some 3
  | .resume => some 4
  | .recover => some 5
  | .extend => some 6
  | .pathReset => some 7
  | .unknownCommand code | .overrun code => some code
  | .resetLine _ _ | .encoderStep _ | .leadingEdge _ | .trailingEdge _ | .sample | .runupTimeout
  | .pitchBoundary | .pick | .lateDeadline _ | .stuckDeadline _ | .transferDone | .transferFault
  | .markValue _ | .markNoRead | .unloadEvent _ | .refillEvent _ | .trayEmptyInput _
  | .orderFetchComplete _ | .tailReread _ | .chainFaultReread _ | .returnLinkRead _
  | .continuationRead _ | .candidateReadyWordRead _ | .invReadyWordRead _ | .windowLengthRead _
  | .configAddressRead _ | .configBlockRead _ | .mainHeadRead _ | .recoveryHeadRead _
  | .writeComplete | .areaWrite _ | .attnRead | .amaskWrite _ | .ignoredRegisterWrite _ _ => none

/-- The read whose completion a command is, but for INV_READY_WORD_READ, whose read is for any one sheet (R53). -/
def Instr.completes : Instr → Option Machine.Purpose
  | .orderFetchComplete _ => some (.fetch .order)
  | .tailReread _ => some (.fetch .tail)
  | .chainFaultReread _ => some (.fetch .faultSource)
  | .returnLinkRead _ => some (.fetch .returnLink)
  | .continuationRead _ => some (.fetch .continuation)
  | .candidateReadyWordRead _ => some .candidateReady
  | .windowLengthRead _ => some .windowLength
  | .configAddressRead _ => some .configAddress
  | .configBlockRead _ => some .configBlock
  | .mainHeadRead _ => some .mainHead
  | .recoveryHeadRead _ => some .recoveryHead
  | .resetLine _ _ | .encoderStep _ | .leadingEdge _ | .trailingEdge _ | .sample | .runupTimeout
  | .pitchBoundary | .pick | .lateDeadline _ | .stuckDeadline _ | .transferDone | .transferFault
  | .markValue _ | .markNoRead | .unloadEvent _ | .refillEvent _ | .trayEmptyInput _
  | .invReadyWordRead _ | .writeComplete | .areaWrite _ | .loadConfig | .run | .halt | .resume
  | .recover | .extend | .pathReset | .unknownCommand _ | .overrun _ | .attnRead | .amaskWrite _
  | .ignoredRegisterWrite _ _ => none

end Sys2Proof
end

