-- ==== Sys2Proof/Certificates/Slice0/Obligations.lean ====
section
/-! DEFINITION. The statements for the provers, one for each row of OBLIGATIONS.json. -/

open Sys2Proof Sys2Proof.Machine

/-! ## The queue of commands -/

/-- One step is the command at the front of the queue, carried out on the state with the queue's rest; on an empty
queue the part idles (the model's choice, log entry 6). -/
def Obligations.StepTakesFrontCommand : Prop :=
  (∀ (s : State) (c : Instr) (rest : List Instr), s.pending = c :: rest →
      step s = exec c { s with pending := rest })
  ∧ (∀ s : State, s.pending = [] → step s = .next s)

/-- Every command that its row admits answers a next state and leaves the queue as it stands; the one command that
no row admits, UNKNOWN_COMMAND with a code that names a command, stops (the model's choice, log entry 17). -/
def Obligations.AdmittedCommandsComplete : Prop :=
  ∀ (c : Instr) (s : State),
    (c.wellFormed = true → ∃ t, exec c s = .next t ∧ t.pending = s.pending)
      ∧ (c.wellFormed = false → exec c s = .fault .codeNamesACommand)

/-! ## The reset line and the registers -/

/-- The reset line, on every state: what each block holds after it, the values the manual leaves open (log entries 2
and 12) left out, and what it keeps (log entry 18). -/
def Obligations.ResetLineResetsEveryBlock : Prop :=
  ∀ (covered : PerCheckpoint Bool) (trays : PerTray Bool) (s : State),
    ∃ t, exec (.resetLine covered trays) s = .next t
      ∧ (∀ x, t.transport.count.get x = 0 ∧ t.transport.run.get x = false
          ∧ t.transport.below.get x = 0 ∧ t.track.tracking.get x = false)
      ∧ t.transport.state = .stopped ∧ t.transport.heldRunUp = false
      ∧ t.transport.sensors = covered ∧ t.transport.allInBand = 0 ∧ t.transport.runUpTimer = none
      ∧ t.transport.samplePeriod = none ∧ t.transport.compares = []
      ∧ t.transport.speedDeviation = false
      ∧ t.clock = { running := false, pitch := 0, boundary := 0, ring := [], lastFinal := none
                    loopUnusable := false }
      ∧ t.fetch.pos = .idle ∧ t.fetch.window = [] ∧ t.fetch.stack = [] ∧ t.fetch.outer = none
      ∧ t.fetch.chain = .main ∧ t.fetch.resync = false ∧ t.fetch.read = none
      ∧ t.fetch.rereadAsked = false
      ∧ t.mail.table = [] ∧ (∀ b, t.mail.bins.get b = ⟨0, 0⟩) ∧ t.mail.purgeCount = 0
      ∧ t.mail.purgeFull = false ∧ t.mail.binWaitArm = true ∧ t.mail.waitingOpen = none
      ∧ t.launch = { schedule := [], candidate := none, candRead := none, emptyCount := 0
                     starvedArm := true, trayArm := true, trays := trays, wakeAsked := false }
      ∧ t.track.sheets = [] ∧ (∀ c, t.track.queues.get c = []) ∧ t.track.fifo = []
      ∧ t.track.d1 = .towardMrk ∧ t.exit.diverter = .prg
      ∧ t.retire = { step := none, retired := 0, launched := 0, stacked := 0, purged := 0, lost := 0
                     skipped := 0, batching := 0 }
      ∧ t.jam = { seq := 0, primary := none, secondary := 0, lastSecondary := none, stranded := []
                  interrupted := [], mainResume := 0, mainResync := false, recoveryResume := 0
                  recoveryPending := false, recordDue := false, recordIssued := false }
      ∧ t.mem = { windowLength := 0, queue := [], held := [], waiting := []
                  bus := s.mem.bus.map fun b => { b with cut := true } }
      ∧ t.config = none ∧ t.out = [] ∧ t.pending = s.pending

/-- The registers after the reset line, and the registers that no other command resets (R172). -/
def Obligations.RegistersAfterReset : Prop :=
  (∀ (covered : PerCheckpoint Bool) (trays : PerTray Bool) (s : State),
    ∃ t, exec (.resetLine covered trays) s = .next t
      ∧ t.areaRead = 0 ∧ t.cmdRead = 0 ∧ t.commandBusy = false ∧ t.ctl.state = .unconfigured
      ∧ t.ctl.lastCommand = none ∧ t.ctl.lastOutcome = none ∧ t.ctl.validation = none
      ∧ t.ctl.lastSkip = none ∧ (∀ f, t.attnHas f = false) ∧ t.amaskRead = 0
      ∧ t.attentionLine = false ∧ t.ctl.pauseRec = none
      ∧ t.transport.state = .stopped ∧ t.transport.speedDeviation = false
      ∧ t.clock.loopUnusable = false ∧ t.jam.recoveryPending = false ∧ t.mail.purgeFull = false
      ∧ t.mail.purgeCount = 0 ∧ t.statWord0 = 0 ∧ t.statWord1 = 0
      ∧ t.mem.waiting = [] ∧ t.readInProgress = none)
  ∧ (∀ (c : Instr) (s t : State), exec c s = .next t → (∀ covered trays, c ≠ .resetLine covered trays) →
      ((∀ v, c ≠ .areaWrite v) → t.areaRead = s.areaRead)
        ∧ ((∀ v, c ≠ .amaskWrite v) → t.amaskRead = s.amaskRead)
        ∧ (c ≠ .attnRead → ∀ f, s.attnHas f = true → t.attnHas f = true))

/-- The fields of the two STAT words, at their places and with their codes. The register window: the register at
each of the six offsets, the command that a write of a word there is (a write to CMD by its code, and OVERRUN while
a command is being taken), and the word that a read there returns; any other offset holds no register, and of the
reads that of ATTN alone is a command. -/
def Obligations.RegisterMap : Prop :=
  ((∀ s : State,
    s.statWord0.extractLsb' 0 4 = BitVec.ofNat 4 s.ctl.state.code
      ∧ s.statWord0.extractLsb' 4 2 = BitVec.ofNat 2 s.transport.state.code
      ∧ s.statWord0.getLsbD 6 = s.ctl.cmd.isSome ∧ s.statWord0.getLsbD 7 = false
      ∧ s.statWord0.extractLsb' 8 4 = ((s.ctl.lastCommand.getD 0).setWidth 4)
      ∧ s.statWord0.extractLsb' 12 4 = BitVec.ofNat 4 (codeOr0 CommandOutcome.code s.ctl.lastOutcome)
      ∧ s.statWord0.extractLsb' 16 4 = BitVec.ofNat 4 (codeOr0 Validation.code s.ctl.validation)
      ∧ s.statWord0.getLsbD 20 = s.clock.loopUnusable
      ∧ s.statWord0.getLsbD 21 = s.jam.recoveryPending
      ∧ s.statWord0.getLsbD 22 = s.transport.speedDeviation
      ∧ s.statWord0.getLsbD 23 = s.mail.purgeFull
      ∧ s.statWord0.extractLsb' 24 4 = BitVec.ofNat 4 (codeOr0 SkipReason.code s.ctl.lastSkip)
      ∧ s.statWord0.extractLsb' 28 4 = 0 ∧ s.statWord1 = s.mail.purgeCount)
  ∧ ([.unconfigured, .ready, .running, .standby, .draining, .halted, .stopping, .jammed].map
        ControllerState.code = [0, 1, 2, 3, 4, 5, 6, 7])
  ∧ [.stopped, .runUp, .atSpeed, .runOut].map TransportState.code = [0, 1, 2, 3]
  ∧ ([.accepted, .refusedState, .pathNotClear, .purgeFull, .config, .overrun].map CommandOutcome.code
      = [1, 2, 3, 4, 5, 6])
  ∧ ([.range, .noFeedSlot, .noTray, .loopDelay, .feedLead, .pitchFit, .transferSpan, .window].map
        Validation.code = [1, 2, 3, 4, 5, 6, 7, 8])
  ∧ ([.starved, .windowFull, .chainFault, .binWait, .trayEmpty, .imageWait, .pathFull, .noReturnSlot,
        .orderHold].map SkipReason.code = [1, 2, 3, 4, 5, 6, 7, 8, 9]))
  ∧ (∀ (s : State) (v : Word),
    let at_ : List Nat := [0x00, 0x04, 0x08, 0x0C, 0x10, 0x14]
    let cmdIs (c : Instr) : List (Option Instr) :=
      [some (.areaWrite v), some c, some (.ignoredRegisterWrite .stat0 v), some (.ignoredRegisterWrite .stat1 v),
        some (.ignoredRegisterWrite .attn v), some (.amaskWrite v)]
    (s.ctl.cmd = none → at_.map (s.windowWrite · v) = cmdIs (commandOfCode v))
    ∧ (s.ctl.cmd.isSome = true → at_.map (s.windowWrite · v) = cmdIs (.overrun v))
    ∧ at_.map s.windowRead = [some s.ctl.area, some (s.ctl.cmd.elim 0 (·.code)), some s.statWord0, some s.statWord1,
        some (s.ctl.attn.setWidth 32), some (s.ctl.amask.setWidth 32)]
    ∧ (∀ o, o ∉ at_ → s.windowWrite o v = none ∧ s.windowRead o = none)
    ∧ ([1, 2, 3, 4, 5, 6, 7].map commandOfCode
        = [.loadConfig, .run, .halt, .resume, .recover, .extend, .pathReset])
    ∧ (v.toNat = 0 ∨ 8 ≤ v.toNat → commandOfCode v = .unknownCommand v)
    ∧ (commandOfCode v).cmdCode = some v ∧ (commandOfCode v).wellFormed = true
    ∧ ([.area, .cmd, .stat0, .stat1, .attn, .amask].map readCommand
        = [none, none, none, none, some .attnRead, none]))

/-- AREA: when a write is stored and as what, that it changes nothing else, and that it is read back. Every window
check, every progress write, the reads of control area words 0 to 3, the write of word 11 at a chain fault and the
stop record, at its words 16 to 159 as long as its lists fit their places, go by the value that stands. -/
def Obligations.AreaHoldsAWordAddress : Prop :=
  (∀ (s : State) (v : Word),
    (s.ctl.state = .unconfigured ∨ s.ctl.state = .ready ∨ s.ctl.state = .halted →
      exec (.areaWrite v) s
        = .next { s with out := [], ctl := { s.ctl with area := BitVec.ofNat 32 (v.toNat / 4 * 4) } })
    ∧ (¬(s.ctl.state = .unconfigured ∨ s.ctl.state = .ready ∨ s.ctl.state = .halted) →
      exec (.areaWrite v) s = .next { s with out := [] })
    ∧ s.areaRead = s.ctl.area
    ∧ (∀ a, s.orderAddrOk a = recordInWindow s.ctl.area s.mem.windowLength a 64
        ∧ s.configAddrOk a = recordInWindow s.ctl.area s.mem.windowLength a 256)
    ∧ (∀ e, (s.retireWrite e .count).addr = s.ctl.area + 16
        ∧ (s.retireWrite e .lastAddress).addr = s.ctl.area + 20
        ∧ ∀ k, k < 5 → (s.retireWrite e (.counter k)).addr = s.ctl.area + BitVec.ofNat 32 (24 + 4 * k)))
  ∧ (∀ s : State,
    (s.ctl.cmd = none → s.ctl.state = .unconfigured ∨ s.ctl.state = .ready →
      ∃ u : State, exec .loadConfig s = .next u.finish
        ∧ u.mem.waiting = s.mem.waiting ++ [⟨.windowLength, [s.ctl.area]⟩])
    ∧ (s.ctl.cmd = none → s.ctl.state = .ready → s.allClear → s.mail.purgeFull = false →
      ∃ u : State, exec .run s = .next u.finish
        ∧ u.mem.waiting = s.mem.waiting ++ [⟨.windowLength, [s.ctl.area]⟩])
    ∧ (∀ v r, s.mem.bus = some ⟨.read r, false⟩ → r.purpose = .windowLength →
      (∀ code, s.ctl.cmd = some ⟨code, .loadLength⟩ → ∃ u : State, exec (.windowLengthRead v) s = .next u.finish
        ∧ u.mem.waiting = s.mem.waiting ++ [⟨.configAddress, [s.ctl.area + 4]⟩])
      ∧ (∀ code, s.ctl.cmd = some ⟨code, .runLength⟩ → ∃ u : State, exec (.windowLengthRead v) s = .next u.finish
        ∧ u.mem.waiting = s.mem.waiting ++ [⟨.mainHead, [s.ctl.area + 8]⟩]))
    ∧ (s.ctl.cmd = none → s.ctl.state = .halted → s.jam.recoveryPending = true → s.mail.purgeFull = false →
      s.jam.recoveryResume = 0 → ∃ u : State, exec .recover s = .next u.finish
        ∧ u.mem.waiting = s.mem.waiting ++ [⟨.recoveryHead, [s.ctl.area + 12]⟩])
    ∧ s.sourceAddr .controlWord2 = some (s.ctl.area + 8) ∧ s.sourceAddr .controlWord3 = some (s.ctl.area + 12)
    ∧ (∀ src bad, s.queueHasRoom = true →
      (s.chainFault src bad).mem.queue = s.mem.queue ++ [⟨5, s.ctl.area + 44, bad, .plain⟩])
    ∧ s.stopRecordWrites.map (·.addr)
      = (State.stopRecordWords s.jam).map (fun p => s.ctl.area + BitVec.ofNat 32 (4 * p.1))
    ∧ (s.jam.stranded.length ≤ 24 → s.jam.interrupted.length ≤ 32 →
      ∀ p ∈ State.stopRecordWords s.jam, 16 ≤ p.1 ∧ p.1 < 160))

/-- AMASK and the attention line. A read of ATTN returns every flag at its bit and clears them all; a write to ATTN
or to either STAT word is ignored. -/
def Obligations.AttentionRegisters : Prop :=
  (∀ (s : State) (v : Word),
    exec (.amaskWrite v) s = .next { s with out := [], ctl := { s.ctl with amask := v.setWidth 11 } }
    ∧ (∀ f : AttnFlag, (v.setWidth 11).getLsbD f.bit = v.getLsbD f.bit)
    ∧ (∀ k, s.amaskRead.getLsbD k = s.ctl.amask.getLsbD k) ∧ (∀ k, 11 ≤ k → s.amaskRead.getLsbD k = false)
    ∧ (s.attentionLine = true ↔ ∃ f : AttnFlag, s.attnHas f = true ∧ s.ctl.amask.getLsbD f.bit = true)
    ∧ (∀ f : AttnFlag, (s.setAttn f).attnHas f = true
        ∧ (s.ctl.amask.getLsbD f.bit = false → (s.setAttn f).attentionLine = s.attentionLine))
    ∧ (∃ t, exec .attnRead s = .next t ∧ t.attentionLine = false))
  ∧ (∀ (s : State) (r : IgnoredRegister) (v : Word),
    (∃ w : Word, exec .attnRead s = .next { s with out := [.attnValue w], ctl := { s.ctl with attn := 0 } }
      ∧ (∀ f : AttnFlag, w.getLsbD f.bit = s.attnHas f) ∧ ∀ k, 11 ≤ k → w.getLsbD k = false)
    ∧ exec (.ignoredRegisterWrite r v) s = .next { s with out := [] }
    ∧ ([.retired, .jam, .halted, .standby, .starved, .binWait, .trayEmpty, .chainFault, .purgeFull,
          .command, .speed].map AttnFlag.bit = [0, 1, 2, 3, 4, 5, 6, 7, 8, 9, 10]))

/-! ## Commands -/

/-- The acceptance table: for each command not taken during another, the first check that fails gives the refusal,
which changes nothing but the outcome fields and ATTN COMMAND; a command that passes is accepted, and its outcome is
ACCEPTED when it ends on the event of its write. A LOAD CONFIG refused REFUSED_STATE keeps the validation code that
stands (the model's choice, log entry 26). -/
def Obligations.AcceptanceTable : Prop :=
  ∀ s : State, s.ctl.cmd = none →
    let loadOk := s.ctl.state = .unconfigured ∨ s.ctl.state = .ready
      ∨ (s.ctl.state = .halted ∧ s.mail.table = [])
    let runOk := s.ctl.state = .ready ∨ (s.ctl.state = .halted ∧ s.fetch.window = [])
    let haltOk := s.ctl.state = .running ∨ s.ctl.state = .standby
    let recoverOk := s.ctl.state = .halted ∧ s.jam.recoveryPending = true
    let extendOk := s.ctl.state = .running ∨ s.ctl.state = .standby ∨ s.ctl.state = .draining
      ∨ s.ctl.state = .halted
    let pathResetOk := (s.ctl.state = .jammed ∧ s.jam.recordIssued = true) ∨ s.ctl.state = .halted
    let refused (c : Instr) (code : Word) (o : CommandOutcome) : Prop :=
      exec c s = .next (s.ended code o).finish
    let acceptedNow (c : Instr) (code : Word) : Prop :=
      ∃ t, exec c s = .next t ∧ t.ctl.lastCommand = some code ∧ t.ctl.lastOutcome = some .accepted
        ∧ t.ctl.cmd = none ∧ t.attnHas .command = true
    let goesOn (c : Instr) (code : Word) : Prop :=
      ∃ t, exec c s = .next t ∧ t.cmdRead = code ∧ t.commandBusy = true
    (¬loadOk → refused .loadConfig 1 .refusedState) ∧ (loadOk → goesOn .loadConfig 1)
    ∧ (¬runOk → refused .run 2 .refusedState)
    ∧ (runOk → ¬s.allClear → refused .run 2 .pathNotClear)
    ∧ (runOk → s.allClear → s.mail.purgeFull = true → refused .run 2 .purgeFull)
    ∧ (runOk → s.allClear → s.mail.purgeFull = false → goesOn .run 2)
    ∧ (¬haltOk → refused .halt 3 .refusedState) ∧ (haltOk → acceptedNow .halt 3)
    ∧ (s.ctl.state ≠ .halted → refused .resume 4 .refusedState)
    ∧ (s.ctl.state = .halted → s.mail.purgeFull = true → refused .resume 4 .purgeFull)
    ∧ (s.ctl.state = .halted → s.mail.purgeFull = false → acceptedNow .resume 4)
    ∧ (¬recoverOk → refused .recover 5 .refusedState)
    ∧ (recoverOk → s.mail.purgeFull = true → refused .recover 5 .purgeFull)
    ∧ (recoverOk → s.mail.purgeFull = false → s.jam.recoveryResume ≠ 0 → acceptedNow .recover 5)
    ∧ (recoverOk → s.mail.purgeFull = false → s.jam.recoveryResume = 0 → goesOn .recover 5)
    ∧ (¬extendOk → refused .extend 6 .refusedState) ∧ (extendOk → acceptedNow .extend 6)
    ∧ (¬pathResetOk → refused .pathReset 7 .refusedState)
    ∧ (pathResetOk → ¬s.allClear → refused .pathReset 7 .pathNotClear)
    ∧ (pathResetOk → s.allClear → acceptedNow .pathReset 7)

/-- Every CMD write taken while command busy is yes ends at once with OVERRUN, and the command being taken goes on;
with no command being taken the OVERRUN row has no effect (the model's choice, log entry 3), and a code that names
none of the seven commands is refused with REFUSED_STATE. -/
def Obligations.OverrunAndUnknownCommands : Prop :=
  ((∀ (c : Instr) (code : Word) (s : State), c.wellFormed = true → c.cmdCode = some code →
      s.ctl.cmd.isSome = true →
      exec c s = .next
        { s with
          out := []
          ctl := { s.ctl with
            lastCommand := some code, lastOutcome := some .overrun, attn := s.ctl.attn ||| 0x200 } })
    ∧ ∀ (code : Word) (s : State), s.ctl.cmd = none → exec (.overrun code) s = .next { s with out := [] })
  ∧ (∀ (code : Word) (s : State), code.toNat = 0 ∨ 8 ≤ code.toNat → s.ctl.cmd = none →
      exec (.unknownCommand code) s = .next (s.ended code .refusedState).finish)

/-- LOAD CONFIG passing its state check reads control area word 0. Read for LOAD CONFIG or RUN, that word is
installed at once as the window length and the next word is read; a configuration block address that passes the
window check has its block read, and one that fails ends LOAD CONFIG with CONFIG and WINDOW. A record address passes
the window check when it is a multiple of 64, its offset from AREA modulo 2^32 is at least 640, and the record lies
wholly inside the window length. -/
def Obligations.LoadConfigReads : Prop :=
  ((∀ s : State, s.ctl.cmd = none →
      s.ctl.state = .unconfigured ∨ s.ctl.state = .ready ∨ (s.ctl.state = .halted ∧ s.mail.table = []) →
      exec .loadConfig s = .next
        (State.finish
          { s with
            out := []
            ctl := { s.ctl with cmd := some ⟨1, .loadLength⟩ }
            mem := { s.mem with waiting := s.mem.waiting ++ [⟨.windowLength, [s.ctl.area]⟩] } }))
  ∧ (∀ (v : Word) (r : ReadReq) (s : State), s.mem.bus = some ⟨.read r, false⟩ → r.purpose = .windowLength →
      (∀ code, s.ctl.cmd = some ⟨code, .loadLength⟩ →
        exec (.windowLengthRead v) s = .next (State.finish
          { s with
            out := []
            mem := { s.mem with
              bus := none, windowLength := v
              waiting := s.mem.waiting ++ [⟨.configAddress, [s.ctl.area + 4]⟩] }
            ctl := { s.ctl with cmd := some ⟨code, .loadAddress⟩ } }))
      ∧ (∀ code, s.ctl.cmd = some ⟨code, .runLength⟩ →
        exec (.windowLengthRead v) s = .next (State.finish
          { s with
            out := []
            mem := { s.mem with
              bus := none, windowLength := v
              waiting := s.mem.waiting ++ [⟨.mainHead, [s.ctl.area + 8]⟩] }
            ctl := { s.ctl with cmd := some ⟨code, .runHead⟩ } })))
  ∧ (∀ (v : Word) (r : ReadReq) (s : State), s.mem.bus = some ⟨.read r, false⟩ → r.purpose = .configAddress →
      s.ctl.cmd = some ⟨1, .loadAddress⟩ →
      (recordInWindow s.ctl.area s.mem.windowLength v 256 = true →
        exec (.configAddressRead v) s = .next (State.finish
          { s with
            out := []
            mem := { s.mem with bus := none, waiting := s.mem.waiting ++ [⟨.configBlock, [v]⟩] }
            ctl := { s.ctl with cmd := some ⟨1, .loadBlock v []⟩ } }))
      ∧ (recordInWindow s.ctl.area s.mem.windowLength v 256 = false →
        exec (.configAddressRead v) s = .next (State.finish
          { s.ended 1 .config with
            mem := { s.mem with bus := none }
            ctl := { (s.ended 1 .config).ctl with validation := some .window } }))))
  ∧ (∀ (area length a : Word) (bytes : Nat),
    let offset : Nat := (a.toNat + 4294967296 - area.toNat) % 4294967296
    recordInWindow area length a bytes = true ↔
      a.toNat % 64 = 0 ∧ 640 ≤ offset ∧ offset + bytes ≤ length.toNat)

/-- The words of the configuration block: words 0 to 58 are collected and the next word is read; after word 59 the
block is refused with the first check it fails, which leaves everything installed as it was, or is installed in all
blocks together. Which word of the block holds which quantity, the slot codes, the four pitch quantities and the
usable loop, and which of the seven checks a block fails first. -/
def Obligations.ConfigBlockReadAndInstalled : Prop :=
  (∀ (v base : Word) (ws : List Word) (r : ReadReq) (s : State),
    s.mem.bus = some ⟨.read r, false⟩ → r.purpose = .configBlock →
    s.ctl.cmd = some ⟨1, .loadBlock base ws⟩ →
    (ws.length < 59 →
      exec (.configBlockRead v) s = .next (State.finish
        { s with
          out := []
          mem := { s.mem with
            bus := none
            waiting := s.mem.waiting
              ++ [⟨.configBlock, [base + BitVec.ofNat 32 (4 * (ws.length + 1))]⟩] }
          ctl := { s.ctl with cmd := some ⟨1, .loadBlock base (ws ++ [v])⟩ } }))
    ∧ (∀ why, 59 ≤ ws.length → (configBlockOf (ws ++ [v])).validate = some why →
      exec (.configBlockRead v) s = .next (State.finish
        { s.ended 1 .config with
          mem := { s.mem with bus := none }
          ctl := { (s.ended 1 .config).ctl with validation := some why } }))
    ∧ (59 ≤ ws.length → (configBlockOf (ws ++ [v])).validate = none →
      let k : Installed := ⟨configBlockOf (ws ++ [v]), (configBlockOf (ws ++ [v])).quantities⟩
      ∃ u : State, exec (.configBlockRead v) s = .next u.finish
        ∧ u.config = some k ∧ u.clock = { s.clock with loopUnusable := !k.loopUsable }
        ∧ u.mail = { s.mail with
            purgeFull := decide (k.block.purgeCapacity ≤ s.mail.purgeCount.toNat) }
        ∧ u.retire = { s.retire with
            batching := s.retire.retired.toNat % max 1 k.block.retireBatch }
        ∧ u.ctl.state = (if s.ctl.state = .unconfigured then .ready else s.ctl.state)
        ∧ u.ctl.lastCommand = some 1 ∧ u.ctl.lastOutcome = some .accepted ∧ u.ctl.validation = none
        ∧ u.ctl.cmd = none ∧ u.attnHas .command = true
        ∧ (u.mail.purgeFull = true → s.mail.purgeFull = false → u.attnHas .purgeFull = true)
        ∧ u = { s with
            out := [], mem := { s.mem with bus := none }, config := u.config, clock := u.clock
            mail := u.mail, retire := u.retire, ctl := u.ctl }))
  ∧ ((∀ ws : List Word,
    let w (k : Nat) : Word := ws[k]?.getD 0
    let n (k : Nat) : Nat := (w k).toNat
    let tray (k : Nat) : TraySettings :=
      ⟨(w k).getLsbD 0, (w k).getLsbD 1, n (k + 1), n (k + 2), n (k + 3)⟩
    let bin (k : Nat) : BinSettings := ⟨(w k).getLsbD 0, n (k + 1)⟩
    configBlockOf ws =
      { pitchLength := n 0, frameLength := n 1, slotsLow := w 2, slotsHigh := w 3
        trays := ⟨tray 4, tray 8, tray 12, tray 16, tray 20⟩
        mrgToReg := n 24, regToFus := n 25, fusToInv := n 26, invToRtn := n 27, rtnToMrg := n 28
        fusToMrk := n 29, mrkToStk := ⟨n 30, n 31, n 32, n 33⟩, mrkToPrg := n 34
        earlyTol := ⟨n 35, n 37, n 39⟩, lateTol := ⟨n 36, n 38, n 40⟩, lengthTol := n 41, minGap := n 42
        duplexGate := (w 43).getLsbD 0, bins := ⟨bin 44, bin 46, bin 48, bin 50⟩, purgeCapacity := n 52
        samplePeriod := n 53, nominal := n 54, band := n 55, floor := n 56, runUpTimeout := n 57
        runOutLimit := n 58, retireBatch := n 59 })
  ∧ (∀ b : ConfigBlock,
    let P := b.pitchLength
    let q := b.quantities
    let fed (t : Tray) : Nat := (b.trays.get t).pickToFd + (b.trays.get t).fdToMrg
    let on (t : Tray) : Prop := (b.trays.get t).enabled = true
    (∀ k, k < 16 → b.slot k = [some .idle, some .feed, some .ret, none][(b.slotsLow.extractLsb' (2 * k) 2).toNat]?.join
      ∧ b.slot (16 + k) = [some .idle, some .feed, some .ret, none][(b.slotsHigh.extractLsb' (2 * k) 2).toNat]?.join)
    ∧ q.circuit = b.mrgToReg + b.regToFus + b.fusToInv + b.invToRtn + b.rtnToMrg
    ∧ q.loopDelay = (q.circuit + P / 2) / P
    ∧ q.residue = (q.circuit : Int) - (q.loopDelay : Int) * (P : Int)
    ∧ (0 < P → ∃ up, q.lmax = up + 1 ∧ (∀ t, on t → fed t ≤ up * P)
        ∧ ∀ n, (∀ t, on t → fed t ≤ n * P) → up ≤ n)
    ∧ ((⟨b, q⟩ : Installed).loopUsable = true ↔ ∃ i, i < b.frameLength ∧ b.slot i = some .feed
        ∧ b.slot ((i + q.loopDelay) % b.frameLength) = some .ret))
  ∧ (∀ b : ConfigBlock,
    let P := b.pitchLength
    let q := b.quantities
    let within (lo hi n : Nat) : Prop := lo ≤ n ∧ n ≤ hi
    let on (t : Tray) : Prop := (b.trays.get t).enabled = true
    let inRange : Prop :=
      within 1024 32767 P ∧ within 1 32 b.frameLength ∧ (∀ k, k < b.frameLength → b.slot k ≠ none)
      ∧ (∀ t, on t → within 2000 12000 (b.trays.get t).media ∧ within 100 65535 (b.trays.get t).pickToFd
          ∧ within 100 65535 (b.trays.get t).fdToMrg)
      ∧ (∀ n ∈ [b.mrgToReg, b.regToFus, b.fusToInv, b.invToRtn, b.rtnToMrg, b.fusToMrk, b.mrkToPrg],
          within 100 262143 n)
      ∧ (∀ x, within 100 262143 (b.mrkToStk.get x))
      ∧ (∀ x, b.earlyTol.get x ≤ 4095 ∧ b.lateTol.get x ≤ 4095) ∧ b.lengthTol ≤ 4095 ∧ b.minGap ≤ 4095
      ∧ (∀ x, (b.bins.get x).enabled = true → within 1 65535 (b.bins.get x).capacity)
      ∧ within 1 65535 b.purgeCapacity ∧ within 1 250 b.samplePeriod ∧ within 1 1000000 b.nominal
      ∧ b.band ≤ b.nominal ∧ b.floor ≤ b.nominal - b.band ∧ within 1 255 b.runUpTimeout
      ∧ b.runOutLimit ≤ 1023 ∧ b.retireBatch ≤ 255
    let someFeed := ∃ k, k < b.frameLength ∧ b.slot k = some .feed
    let loopFits := within 2 48 q.loopDelay ∧ q.residue.natAbs ≤ P / 8
    let pitchFits := ∀ t, on t → ((b.trays.get t).media + b.minGap : Int) ≤ (P : Int) - q.residue.natAbs
    (¬inRange → b.validate = some .range)
    ∧ (inRange → ¬someFeed → b.validate = some .noFeedSlot)
    ∧ (inRange → someFeed → (∀ t, ¬on t) → b.validate = some .noTray)
    ∧ (inRange → someFeed → (∃ t, on t) → ¬loopFits → b.validate = some .loopDelay)
    ∧ (inRange → someFeed → (∃ t, on t) → loopFits → 6 < q.lmax → b.validate = some .feedLead)
    ∧ (inRange → someFeed → (∃ t, on t) → loopFits → q.lmax ≤ 6 → ¬pitchFits → b.validate = some .pitchFit)
    ∧ (inRange → someFeed → (∃ t, on t) → loopFits → q.lmax ≤ 6 → pitchFits → 4 * P < b.regToFus →
        b.validate = some .transferSpan)
    ∧ (inRange → someFeed → (∃ t, on t) → loopFits → q.lmax ≤ 6 → pitchFits → b.regToFus ≤ 4 * P →
        b.validate = none)))

/-- RUN accepted: RUNNING; the order window, mailpiece table, call stack, feed schedule and candidate emptied; the
resume points, resync flag and recovery pending cleared; a run-up order; and the read of control area word 0. That a
read of the Order Fetch Unit still outstanding is to be discarded when it completes, and that no re-read stays asked
for, is the model's choice (log entry 19). -/
def Obligations.RunAccepted : Prop :=
  ∀ s : State, s.ctl.cmd = none →
    s.ctl.state = .ready ∨ (s.ctl.state = .halted ∧ s.fetch.window = []) →
    s.allClear → s.mail.purgeFull = false →
    ∃ u : State, exec .run s = .next u.finish
      ∧ u.ctl = { s.ctl with state := .running, cmd := some ⟨2, .runLength⟩ }
      ∧ u.fetch = { s.fetch with
          pos := .idle, window := [], stack := [], outer := none, chain := .main, resync := false
          read := s.fetch.read.map fun r => { r with discard := true }, rereadAsked := false }
      ∧ u.mail = { s.mail with table := [], waitingOpen := none, binWaitArm := u.mail.binWaitArm }
      ∧ u.jam = { s.jam with
          mainResume := 0, mainResync := false, recoveryResume := 0, recoveryPending := false }
      ∧ u.mem = { s.mem with waiting := s.mem.waiting ++ [⟨.windowLength, [s.ctl.area]⟩] }
      ∧ u.retire = { s.retire with step := none }
      ∧ u.launch.schedule = [] ∧ u.launch.candidate = none ∧ u.launch.candRead = s.launch.candRead
      ∧ u.launch.trays = s.launch.trays
      ∧ u.track = { s.track with tracking := u.track.tracking } ∧ u.clock = s.clock ∧ u.exit = s.exit
      ∧ u.config = s.config ∧ u.pending = s.pending ∧ u.out = []
      ∧ u.transport.count = s.transport.count ∧ u.transport.sensors = s.transport.sensors
      ∧ (s.transport.state = .stopped → u.transport.state = .runUp
          ∧ u.transport.run = perSection true ∧ u.track.tracking = perSection true
          ∧ u.transport.ref = s.transport.count ∧ u.transport.below = perSection 0
          ∧ u.transport.allInBand = 0 ∧ u.launch.emptyCount = 0 ∧ u.launch.starvedArm = true
          ∧ u.launch.trayArm = true ∧ u.mail.binWaitArm = true
          ∧ u.transport.runUpTimer = s.config.map (·.block.runUpTimeout)
          ∧ u.transport.samplePeriod = s.config.map (·.block.samplePeriod))
      ∧ (s.transport.state = .runOut → u.transport.state = .runOut ∧ u.transport.heldRunUp = true
          ∧ u.transport.run = s.transport.run ∧ u.track.tracking = s.track.tracking)

/-- The run-up and run-out orders in each transport state, with a held run-up carried out at the entry to STOPPED,
and a stop order in each transport state. -/
def Obligations.TransportOrders : Prop :=
  (∀ s : State,
      (s.transport.state = .stopped → s.runUpOrder = s.startRunUp ∧ s.runOutOrder = s)
      ∧ (s.transport.state = .runUp →
          s.runUpOrder = s
            ∧ s.runOutOrder = { s with transport := { s.transport with
                run := perSection false, runUpTimer := none, state := .runOut } })
      ∧ (s.transport.state = .atSpeed →
          s.runUpOrder = s
            ∧ s.runOutOrder = { s with
                transport := { s.transport with
                  run := perSection false, runUpTimer := none, state := .runOut, speedDeviation := false
                  compares := s.transport.compares.filter fun k => k.owner != .boundary }
                clock := { s.clock with running := false } })
      ∧ (s.transport.state = .runOut →
          s.runUpOrder = { s with transport := { s.transport with heldRunUp := true } }
            ∧ s.runOutOrder = { s with transport := { s.transport with heldRunUp := false } })
      ∧ (s.enterStopped =
          if s.transport.heldRunUp then
            State.startRunUp { s with transport := { s.transport with state := .stopped, samplePeriod := none } }
          else { s with transport := { s.transport with state := .stopped, samplePeriod := none } })
      ∧ s.startRunUp = { s with
          transport := { s.transport with
            run := perSection true, state := .runUp, heldRunUp := false, ref := s.transport.count
            below := perSection 0, allInBand := 0
            runUpTimer := s.config.map (·.block.runUpTimeout)
            samplePeriod := s.config.map (·.block.samplePeriod) }
          track := { s.track with tracking := perSection true }
          launch := { s.launch with emptyCount := 0, starvedArm := true, trayArm := true }
          mail := { s.mail with binWaitArm := true } })
  ∧ (∀ (s : State) (named : PerSection Bool),
      let rest : PerSection Bool := .of fun x => s.transport.run.get x && !named.get x
      let kept : State := { s with transport := { s.transport with heldRunUp := false, run := rest } }
      let runOut : State := { s with transport := { s.transport with
        heldRunUp := false, run := perSection false, runUpTimer := none, state := .runOut } }
      (s.transport.state = .stopped ∨ s.transport.state = .runOut → s.stopOrder named = kept)
      ∧ (s.transport.state = .runUp → s.stopOrder named = runOut)
      ∧ (s.transport.state = .atSpeed → (∃ x, rest.get x = true) → s.stopOrder named = kept)
      ∧ (s.transport.state = .atSpeed → (∀ x, rest.get x = false) →
          s.stopOrder named = { runOut with
            transport := { runOut.transport with
              speedDeviation := false
              compares := s.transport.compares.filter fun k => k.owner != .boundary }
            clock := { s.clock with running := false } }))

/-- HALT in RUNNING and in STANDBY: DRAINING while sheets are in the track table, and otherwise the entry to HALTED
on the same event; and the steps of every entry to HALTED: the three sections halt and their deadline compares go, a
run-out order is given, the PAUSE that began the draining settles, and ATTN HALTED is set. The entry to DRAINING, by
HALT, a PAUSE or purge full: DRAINING while sheets are in the track table, otherwise the entry to HALTED. -/
def Obligations.HaltAndEntryToHalted : Prop :=
  ((∀ s : State, s.ctl.cmd = none →
      (s.ctl.state = .running → s.track.sheets ≠ [] →
        exec .halt s = .next
          (State.finish { s.ended 3 .accepted with
            ctl := { (s.ended 3 .accepted).ctl with state := .draining } }))
      ∧ (s.ctl.state = .running ∧ s.track.sheets = [] ∨ s.ctl.state = .standby →
        exec .halt s = .next (s.ended 3 .accepted).enterHalted.finish)
      ∧ (¬(s.ctl.state = .running ∨ s.ctl.state = .standby) →
        exec .halt s = .next (s.ended 3 .refusedState).finish))
  ∧ (∀ s : State,
      ∃ t : State, t = s.enterHalted
        ∧ t.ctl = { s.ctl with state := .halted, pauseRec := none, attn := s.ctl.attn ||| 4 }
        ∧ t.track = { s.track with tracking := perSection false }
        ∧ t.transport.run = (if s.transport.state = .runUp ∨ s.transport.state = .atSpeed then
            perSection false else s.transport.run)
        ∧ t.transport.state = (if s.transport.state = .runUp ∨ s.transport.state = .atSpeed then .runOut
            else s.transport.state)
        ∧ (s.transport.state = .runOut → t.transport.heldRunUp = false)
        ∧ (∀ k ∈ t.transport.compares, k ∈ s.transport.compares ∧ k.owner.isDeadline = false)
        ∧ (∀ k ∈ s.transport.compares, k.owner.isDeadline = false → k.owner ≠ .boundary →
            k ∈ t.transport.compares)
        ∧ t.fetch = (match s.ctl.pauseRec with
            | none => s.fetch
            | some p => { s.fetch with
                window := s.fetch.window.map fun e => if e.id = p then { e with state := .settled } else e })
        ∧ t = { s with
            ctl := t.ctl, track := t.track, transport := t.transport, clock := t.clock, fetch := t.fetch }))
  ∧ (∀ s : State,
    (s.track.sheets ≠ [] → s.enterDraining = { s with ctl := { s.ctl with state := .draining } })
    ∧ (s.track.sheets = [] → s.enterDraining = s.enterHalted))

/-- RESUME and RECOVER accepted: RUNNING and a run-up order. RESUME goes on where the fetch stood, or with recovery
pending from the main resume point; RECOVER goes on from the recovery resume point if it is nonzero, and otherwise
after the read of control area word 3. That a RESUME from the main resume point and a RECOVER discard a read of the
Order Fetch Unit still outstanding, and drop a re-read asked for, is the model's choice (log entry 19). A resume
point that fails the window check gives the chain fault with that value as its source. -/
def Obligations.RestartsAccepted : Prop :=
  ((∀ s : State, s.ctl.cmd = none → s.ctl.state = .halted → s.mail.purgeFull = false →
      (s.jam.recoveryPending = false → ∃ u : State,
        exec .resume s = .next u.finish ∧ u.fetch = s.fetch
          ∧ u.ctl = { (s.ended 4 .accepted).ctl with state := .running }
          ∧ u = { State.runUpOrder s with ctl := u.ctl, out := [] })
      ∧ (s.jam.recoveryPending = true → ∃ u : State,
        exec .resume s = .next u.finish
          ∧ u.jam = { s.jam with recoveryPending := false } ∧ u.ctl.state = .running
          ∧ u.ctl.lastCommand = some 4 ∧ u.ctl.lastOutcome = some .accepted ∧ u.attnHas .command = true
          ∧ u.fetch = { s.fetch with
              pos := u.fetch.pos, stack := [], outer := none, chain := .main, resync := s.jam.mainResync
              read := s.fetch.read.map fun r => { r with discard := true }, rereadAsked := false }
          ∧ (s.jam.mainResume = 0 → u.fetch.pos = .chainEnd .controlWord2)
          ∧ (s.jam.mainResume ≠ 0 → s.orderAddrOk s.jam.mainResume = true →
              u.fetch.pos = .next s.jam.mainResume)
          ∧ (s.jam.mainResume ≠ 0 → s.orderAddrOk s.jam.mainResume = false →
              u.fetch.pos = .chainFault (.value s.jam.mainResume))
          ∧ u = { State.runUpOrder s with
              ctl := u.ctl, jam := u.jam, fetch := u.fetch, mem := u.mem, out := [] }))
  ∧ (∀ s : State, s.ctl.cmd = none → s.ctl.state = .halted → s.jam.recoveryPending = true →
      s.mail.purgeFull = false →
      ∃ u : State, exec .recover s = .next u.finish
        ∧ u.jam = { s.jam with recoveryPending := false } ∧ u.ctl.state = .running
        ∧ u.fetch = { s.fetch with
            pos := u.fetch.pos, stack := [], outer := none, chain := .recovery, resync := false
            read := s.fetch.read.map fun r => { r with discard := true }, rereadAsked := false }
        ∧ (s.jam.recoveryResume = 0 →
            u.fetch.pos = .idle ∧ u.ctl = { s.ctl with state := .running, cmd := some ⟨5, .recoverHead⟩ }
              ∧ u.mem = { s.mem with waiting := s.mem.waiting ++ [⟨.recoveryHead, [s.ctl.area + 12]⟩] })
        ∧ (s.jam.recoveryResume ≠ 0 → u.ctl.lastCommand = some 5 ∧ u.ctl.lastOutcome = some .accepted
              ∧ u.ctl.cmd = none
              ∧ u.fetch.pos = (if s.orderAddrOk s.jam.recoveryResume then .next s.jam.recoveryResume
                  else .chainFault (.value s.jam.recoveryResume)))
        ∧ u = { State.runUpOrder s with
            ctl := u.ctl, jam := u.jam, fetch := u.fetch, mem := u.mem, out := [] }))
  ∧ (∀ s : State, s.ctl.cmd = none → s.ctl.state = .halted → s.mail.purgeFull = false →
    s.jam.recoveryPending = true →
    let fresh (c : Stream) (resync : Bool) : State := { State.runUpOrder s with
      out := []
      ctl := { s.ctl with state := .running }
      jam := { s.jam with recoveryPending := false }
      fetch := { s.fetch with
        pos := .idle, stack := [], outer := none, chain := c, resync := resync
        read := s.fetch.read.map fun r => { r with discard := true }, rereadAsked := false } }
    let accepted (code : Word) (u : State) : State := { u with ctl := { u.ctl with
      lastCommand := some code, lastOutcome := some .accepted, cmd := none, attn := u.ctl.attn ||| 0x200 } }
    (s.jam.mainResume ≠ 0 → s.orderAddrOk s.jam.mainResume = false →
      exec .resume s = .next (accepted 4 (State.chainFault (.value s.jam.mainResume) s.jam.mainResume
        (fresh .main s.jam.mainResync))).finish)
    ∧ (s.jam.recoveryResume ≠ 0 → s.orderAddrOk s.jam.recoveryResume = false →
      exec .recover s = .next (accepted 5 (State.chainFault (.value s.jam.recoveryResume) s.jam.recoveryResume
        (fresh .recovery false))).finish))

/-- EXTEND accepted: a chain end or a chain fault read from memory asks for its re-read (one already outstanding for
a chain fault is not asked again); a chain fault at a resume point is checked again, and one that fails is told by
the write of its address, ATTN CHAIN_FAULT and the skip reason; any other position is left, which for awaiting head,
returning and continuing is the model's choice (log entry 23). In STANDBY a wake evaluation is asked for, and for a
candidate with no ready-word read outstanding the read of word 3 of its block is appended to those waiting for the
bus. Nothing else changes. -/
def Obligations.ExtendAccepted : Prop :=
  ∀ s : State, s.ctl.cmd = none →
    s.ctl.state = .running ∨ s.ctl.state = .standby ∨ s.ctl.state = .draining ∨ s.ctl.state = .halted →
    ∃ u : State, exec .extend s = .next u.finish
      ∧ u.ctl = { s.ctl with
          lastCommand := some 6, lastOutcome := some .accepted, cmd := none
          attn := u.ctl.attn, lastSkip := u.ctl.lastSkip }
      ∧ u.attnHas .command = true
      ∧ u.fetch = { s.fetch with pos := u.fetch.pos, rereadAsked := u.fetch.rereadAsked }
      ∧ (∀ t, s.fetch.pos = .chainEnd t → u.fetch.pos = s.fetch.pos ∧ u.fetch.rereadAsked = true)
      ∧ (∀ src, s.fetch.pos = .chainFault src → (∀ v, src ≠ .value v) →
          u.fetch.pos = s.fetch.pos
            ∧ u.fetch.rereadAsked
              = (s.fetch.rereadAsked || s.fetch.read != some ⟨.faultSource, false⟩))
      ∧ (∀ v, s.fetch.pos = .chainFault (.value v) → s.orderAddrOk v = true → u.fetch.pos = .next v)
      ∧ (∀ v, s.fetch.pos = .chainFault (.value v) → s.orderAddrOk v = false →
          let w : Write := ⟨5, s.ctl.area + 44, v, .plain⟩
          u.fetch.pos = s.fetch.pos
            ∧ (s.queueHasRoom = true → u.attnHas .chainFault = true ∧ u.ctl.lastSkip = some .chainFault
              ∧ u.mem.queue = s.mem.queue ++ [w] ∧ u.mem.held = s.mem.held)
            ∧ (s.queueHasRoom = false → u.mem.queue = s.mem.queue
              ∧ u.mem.held = s.mem.held ++ [⟨w, .chainFault⟩]))
      ∧ ((∀ v, s.fetch.pos = .chainFault (.value v) → s.orderAddrOk v = true) →
          u.mem.queue = s.mem.queue ∧ u.mem.held = s.mem.held
            ∧ u.ctl.attn = s.ctl.attn ||| 0x200 ∧ u.ctl.lastSkip = s.ctl.lastSkip)
      ∧ ((∀ t, s.fetch.pos ≠ .chainEnd t) → (∀ src, s.fetch.pos ≠ .chainFault src) →
          u.fetch = s.fetch)
      ∧ (∀ e, s.ctl.state = .standby → s.launch.candRead = none → s.candidateEntry = some e →
          u.launch = { s.launch with candRead := some e.id, wakeAsked := true }
            ∧ u.mem.waiting = s.mem.waiting ++ [⟨.candidateReady, [e.addr + 12]⟩])
      ∧ (s.ctl.state = .standby → s.launch.candRead ≠ none ∨ s.candidateEntry = none →
          u.launch = { s.launch with wakeAsked := true } ∧ u.mem.waiting = s.mem.waiting)
      ∧ (s.ctl.state ≠ .standby → u.launch = s.launch ∧ u.mem.waiting = s.mem.waiting)
      ∧ u.mem = { s.mem with waiting := u.mem.waiting, queue := u.mem.queue, held := u.mem.held }
      ∧ u = { s with ctl := u.ctl, fetch := u.fetch, mem := u.mem, launch := u.launch, out := [] }

/-- PATH RESET accepted: what is cleared and what is kept, from JAMMED with the entry to HALTED and recovery pending
set, from HALTED with both left as they stand; refused for a covered sensor it changes none of this. -/
def Obligations.PathResetClearsThePath : Prop :=
  ∀ s : State, s.ctl.cmd = none →
    ((s.ctl.state = .jammed ∧ s.jam.recordIssued = true) ∨ s.ctl.state = .halted → s.allClear →
      ∃ u : State, exec .pathReset s = .next u.finish
        ∧ u.track.sheets = [] ∧ (∀ c, u.track.queues.get c = []) ∧ u.track.fifo = []
        ∧ u.track.tracking = perSection false ∧ u.track.d1 = s.track.d1
        ∧ u.launch = { s.launch with schedule := [] } ∧ u.clock.ring = []
        ∧ (∀ k ∈ u.transport.compares, k ∈ s.transport.compares ∧ k.owner.isDeadline = false
            ∧ State.isPick k.owner = false)
        ∧ u.ctl.state = .halted
        ∧ u.jam = { s.jam with
            recoveryPending := s.jam.recoveryPending || s.ctl.state == .jammed }
        ∧ (s.ctl.state = .jammed → u.attnHas .halted = true)
        ∧ u.config = s.config ∧ u.mail = s.mail ∧ u.retire = s.retire ∧ u.exit = s.exit
        ∧ u.mem = s.mem ∧ u.ctl.lastCommand = some 7 ∧ u.ctl.lastOutcome = some .accepted
        ∧ u.transport.count = s.transport.count)
    ∧ ((s.ctl.state = .jammed ∧ s.jam.recordIssued = true) ∨ s.ctl.state = .halted → ¬s.allClear →
      exec .pathReset s = .next (s.ended 7 .pathNotClear).finish)

/-! ## Completions of memory accesses -/

/-- A read that the reset line cut off only frees the bus at its completion, a completion with no such read in
progress has no effect (the model's choice, log entry 3), and a read of the Order Fetch Unit that is to be discarded
leaves no trace of its value; that the completion of a discarded order fetch asks for a wake evaluation in STANDBY
as well is the model's choice (log entry 10). The start address reads end RUN and RECOVER with ACCEPTED: in RUNNING
and STANDBY the value becomes the fetch position (0 in word 2 a chain end there, 0 in word 3 the switch to the main
chain, an address that fails the window check a chain fault), and otherwise it is discarded. A chain fault at a
start address writes word 11 and sets ATTN CHAIN_FAULT and the skip reason as every chain fault does, and the switch
at 0 in word 3 goes to the main resume point: a chain end at 0, a next block, or a chain fault. -/
def Obligations.DiscardedAndStartAddressReads : Prop :=
  (((∀ (c : Instr) (p : Purpose) (s : State), c.completes = some p →
      (∀ r, s.mem.bus = some ⟨.read r, true⟩ → r.purpose = p →
        exec c s = .next (State.finish { s with out := [], mem := { s.mem with bus := none } }))
      ∧ ((∀ r cut, s.mem.bus = some ⟨.read r, cut⟩ → r.purpose ≠ p) →
        exec c s = .next { s with out := [] }))
  ∧ (∀ (c : Instr) (k : FetchRead) (r : ReadReq) (s : State), c.completes = some (.fetch k) →
      s.mem.bus = some ⟨.read r, false⟩ → r.purpose = .fetch k → s.fetch.read = some ⟨k, true⟩ →
      exec c s = .next (State.finish
        { s with
          out := []
          mem := { s.mem with bus := none }
          fetch := { s.fetch with read := none }
          launch := { s.launch with
            wakeAsked := s.launch.wakeAsked || (k == .order && s.ctl.state == .standby) } })))
  ∧ (∀ (v : Word) (r : ReadReq) (s : State), s.mem.bus = some ⟨.read r, false⟩ →
    let ok := recordInWindow s.ctl.area s.mem.windowLength v 64
    let live := s.ctl.state = .running ∨ s.ctl.state = .standby
    (r.purpose = .mainHead →
      ∃ u : State, exec (.mainHeadRead v) s = .next u.finish
        ∧ u.ctl.lastCommand = some 2 ∧ u.ctl.lastOutcome = some .accepted ∧ u.ctl.cmd = none
        ∧ u.attnHas .command = true
        ∧ (live → v = 0 → u.fetch = { s.fetch with pos := .chainEnd .controlWord2 })
        ∧ (live → v ≠ 0 → ok = true → u.fetch = { s.fetch with pos := .next v })
        ∧ (live → v ≠ 0 → ok = false → u.fetch = { s.fetch with pos := .chainFault .controlWord2 })
        ∧ (¬live → u.fetch = s.fetch)
        ∧ u = { s with out := [], fetch := u.fetch, ctl := u.ctl, mem := u.mem } ∧ u.mem.bus = none)
    ∧ (r.purpose = .recoveryHead →
      ∃ u : State, exec (.recoveryHeadRead v) s = .next u.finish
        ∧ u.ctl.lastCommand = some 5 ∧ u.ctl.lastOutcome = some .accepted ∧ u.ctl.cmd = none
        ∧ u.attnHas .command = true
        ∧ (live → v = 0 → u.fetch = { s.fetch with
            chain := .main, resync := s.jam.mainResync, pos := u.fetch.pos })
        ∧ (live → v = 0 → s.jam.mainResume = 0 → u.fetch.pos = .chainEnd .controlWord2)
        ∧ (live → v ≠ 0 → ok = true → u.fetch = { s.fetch with pos := .next v })
        ∧ (live → v ≠ 0 → ok = false → u.fetch = { s.fetch with pos := .chainFault .controlWord3 })
        ∧ (¬live → u.fetch = s.fetch)
        ∧ u = { s with out := [], fetch := u.fetch, ctl := u.ctl, mem := u.mem } ∧ u.mem.bus = none)))
  ∧ (∀ (v : Word) (r : ReadReq) (s : State), s.mem.bus = some ⟨.read r, false⟩ →
    let ok := recordInWindow s.ctl.area s.mem.windowLength v 64
    let free : State := { s with out := [], mem := { s.mem with bus := none } }
    let accepted (code : Word) (u : State) : State := { u with ctl := { u.ctl with
      lastCommand := some code, lastOutcome := some .accepted, cmd := none, attn := u.ctl.attn ||| 0x200 } }
    s.ctl.state = .running ∨ s.ctl.state = .standby →
    (r.purpose = .mainHead → v ≠ 0 → ok = false →
      exec (.mainHeadRead v) s = .next (accepted 2 (free.chainFault .controlWord2 v)).finish)
    ∧ (r.purpose = .recoveryHead →
      (v ≠ 0 → ok = false →
        exec (.recoveryHeadRead v) s = .next (accepted 5 (free.chainFault .controlWord3 v)).finish)
      ∧ (v = 0 →
        let main : State := { free with fetch := { s.fetch with chain := .main, resync := s.jam.mainResync } }
        let start (p : FetchPos) : State := { main with fetch := { main.fetch with pos := p } }
        (s.jam.mainResume = 0 →
          exec (.recoveryHeadRead v) s = .next (accepted 5 (start (.chainEnd .controlWord2))).finish)
        ∧ (s.jam.mainResume ≠ 0 → s.orderAddrOk s.jam.mainResume = true →
          exec (.recoveryHeadRead v) s = .next (accepted 5 (start (.next s.jam.mainResume))).finish)
        ∧ (s.jam.mainResume ≠ 0 → s.orderAddrOk s.jam.mainResume = false →
          exec (.recoveryHeadRead v) s = .next
            (accepted 5 (main.chainFault (.value s.jam.mainResume) s.jam.mainResume)).finish))))

/-- A fetched order that is no CALL, outside a sequence (the call stack is empty) and not under resync: its entry is
added at the tail in state FETCHED with its copied words, a RETURN and an unknown kind with the draft REFUSED,
BAD_KIND, and its link is followed, a link of 0 for the main chain; a completed order fetch asks for a wake
evaluation in STANDBY. Orders in a sequence, under resync, and a link of 0 in the recovery chain are in
OrdersInSequencesAndResync. -/
def Obligations.OrderFetched : Prop :=
  ∀ (w : OrderWords) (a : Word) (r : ReadReq) (s : State), s.mem.bus = some ⟨.read r, false⟩ →
    r.purpose = .fetch .order → s.fetch.read = some ⟨.order, false⟩ → s.fetch.pos = .next a →
    s.fetch.window.length < 64 → s.fetch.stack = [] → s.fetch.resync = false →
    kindOf w.kind ≠ .call →
    ∃ u : State, exec (.orderFetchComplete w) s = .next u.finish
      ∧ u.fetch.window = s.fetch.window ++
          [{ id := s.fetch.nextId, addr := a, kind := kindOf w.kind
             chain := (match s.fetch.chain with | .main => .main | .recovery => .recovery)
             caller := none, words := w, state := .fetched
             draft := if kindOf w.kind = .ret ∨ kindOf w.kind = .unknown then
               some ⟨.refused, some .badKind⟩ else none
             notAllowed := false, summary := ⟨0, 0, 0, false⟩, callStatus := .notEntered
             dropped := false }]
      ∧ u.fetch.nextId = s.fetch.nextId + 1 ∧ u.fetch.read = none ∧ u.fetch.stack = []
      ∧ (w.link = 0 → s.fetch.chain = .main → u.fetch.pos = .chainEnd (.block a))
      ∧ (w.link ≠ 0 → recordInWindow s.ctl.area s.mem.windowLength w.link 64 = true →
          u.fetch.pos = .next w.link ∧ u.mem = { s.mem with bus := none })
      ∧ (w.link ≠ 0 → recordInWindow s.ctl.area s.mem.windowLength w.link 64 = false →
          u.fetch.pos = .chainFault (.link a)
            ∧ (s.queueHasRoom = true → u.attnHas .chainFault = true
                ∧ u.ctl.lastSkip = some .chainFault
                ∧ u.mem.queue = s.mem.queue ++ [⟨5, s.ctl.area + 44, w.link, .plain⟩]))
      ∧ (u.launch.wakeAsked = (s.launch.wakeAsked || s.ctl.state == .standby))
      ∧ u = { s with
          out := [], fetch := u.fetch, mem := u.mem, ctl := u.ctl
          launch := { s.launch with wakeAsked := u.launch.wakeAsked } }

/-- A fetched CALL, outside resync, that is not refused: its entry is added and the block at its head address
awaited; then the head's block enters the sequence: the return link is written, the head pushed, the HEAD added as a
SEQUENCE entry naming the outermost CALL. A block there that is no HEAD is dropped and the CALL refused. The refused
CALL's own link is followed; inside a sequence the outermost CALL's summary gets the sequence fault, with ATTN CHAIN
FAULT. With the queue full the write of the return link is held, the entry of the sequence with it as the steps to
be taken after it (log entry 11), and nothing else changes. -/
def Obligations.CallEntersItsSequence : Prop :=
  (∀ (w : OrderWords) (r : ReadReq) (s : State), s.mem.bus = some ⟨.read r, false⟩ →
    r.purpose = .fetch .order → s.fetch.read = some ⟨.order, false⟩ → s.fetch.window.length < 64 →
    (∀ a, s.fetch.pos = .next a → kindOf w.kind = .call →
      ¬(s.fetch.resync = true ∧ s.fetch.chain = .main) → s.fetch.stack.length < 4 →
      (∀ f ∈ s.fetch.stack, f.head ≠ w.w4) →
      recordInWindow s.ctl.area s.mem.windowLength w.w4 64 = true →
      ∃ (u : State) (e : Entry), exec (.orderFetchComplete w) s = .next u.finish
        ∧ u.fetch.window = s.fetch.window ++ [e] ∧ e.addr = a ∧ e.kind = .call ∧ e.words = w
        ∧ e.state = .fetched ∧ e.draft = none ∧ e.callStatus = .pending
        ∧ u.fetch.pos = .awaitingHead e.id w.w4 ∧ u.fetch.stack = s.fetch.stack)
    ∧ (∀ call head c, s.fetch.pos = .awaitingHead call head → s.findEntry call = some c →
      s.fetch.stack.length < 4 → s.queueHasRoom = true → kindOf w.kind = .head →
      ∃ (u : State) (e : Entry), exec (.orderFetchComplete w) s = .next u.finish
        ∧ u.fetch.stack = ⟨head, call⟩ :: s.fetch.stack
        ∧ u.fetch.outer = (if s.fetch.stack = [] then some call else s.fetch.outer)
        ∧ u.fetch.window = s.fetch.window ++ [e] ∧ e.addr = head ∧ e.kind = .head
        ∧ e.chain = .sequence ∧ e.caller = u.fetch.outer ∧ e.state = .fetched
        ∧ (∃ more, u.mem.queue = s.mem.queue ++ ⟨5, head + 16, c.addr, .plain⟩ :: more)
        ∧ (w.link ≠ 0 → recordInWindow s.ctl.area s.mem.windowLength w.link 64 = true →
            u.fetch.pos = .next w.link))
    ∧ (∀ call head c, s.fetch.pos = .awaitingHead call head → s.findEntry call = some c →
      s.fetch.stack = [] → kindOf w.kind ≠ .head →
      ∃ u : State, exec (.orderFetchComplete w) s = .next u.finish
        ∧ u.fetch.window = s.fetch.window.map (fun e =>
            if e.id = call then
              { e with draft := some ⟨.refused, some .badKind⟩, callStatus := .notEntered }
            else e)
        ∧ u.fetch.stack = []))
  ∧ (∀ (w : OrderWords) (r : ReadReq) (call : Nat) (head : Word) (c : Entry) (s : State),
    s.mem.bus = some ⟨.read r, false⟩ → r.purpose = .fetch .order → s.fetch.read = some ⟨.order, false⟩ →
    s.fetch.pos = .awaitingHead call head → s.findEntry call = some c →
    let read : State := { s with
      out := [], mem := { s.mem with bus := none }, fetch := { s.fetch with read := none }
      launch := { s.launch with wakeAsked := s.launch.wakeAsked || s.ctl.state == .standby } }
    let refused : State := { read with fetch := { read.fetch with
      window := s.fetch.window.map fun e =>
        if e.id = call then { e with draft := some ⟨.refused, some .badKind⟩, callStatus := .notEntered } else e } }
    let faulted : State := { refused with
      fetch := { refused.fetch with
        window := refused.fetch.window.map fun y =>
          if s.fetch.outer = some y.id then { y with summary := { y.summary with fault := true } } else y }
      ctl := { s.ctl with attn := s.ctl.attn ||| 0x80 } }
    (kindOf w.kind ≠ .head → s.fetch.stack = [] →
      exec (.orderFetchComplete w) s = .next (refused.followLink c.addr c.words.link).finish)
    ∧ (kindOf w.kind ≠ .head → s.fetch.stack ≠ [] →
      exec (.orderFetchComplete w) s = .next (faulted.followLink c.addr c.words.link).finish)
    ∧ (kindOf w.kind = .head → s.queueHasRoom = false →
      exec (.orderFetchComplete w) s = .next (State.finish { read with mem := { read.mem with
        held := s.mem.held ++ [⟨⟨5, head + 16, c.addr, .plain⟩, .enterSequence call head w⟩] } })))

/-- Every kind of fetched order by the call stack and the resync flag: under resync it is SKIPPED with RESYNC until
an OPEN of the main chain ends the resync; in a sequence a RETURN goes back, naming the sequence fault when its head
is not that of the top frame, and an OPEN, a PAUSE or a HEAD is passed as not allowed, with the sequence fault, and
ends the sequence; a SHEET, a NOP, and outside a sequence every kind that may stand there, is added as it is, an
unknown kind, or a RETURN outside a sequence, with the draft REFUSED, BAD_KIND; a CALL with four frames on the stack
is refused CALL_DEPTH, one of a head already there CALL_LOOP, in a sequence with the sequence fault as well, and one
whose head address fails the window check stands as a chain fault. Where a link leads: 0 in the recovery chain
outside a sequence to the main chain and its resume point, 0 otherwise to a chain end, an address to the next block
or a chain fault; and what a chain fault writes and sets. -/
def Obligations.OrdersInSequencesAndResync : Prop :=
  ∀ (w : OrderWords) (a : Word) (r : ReadReq) (s : State), s.mem.bus = some ⟨.read r, false⟩ →
    r.purpose = .fetch .order → s.fetch.read = some ⟨.order, false⟩ → s.fetch.pos = .next a →
    s.fetch.window.length < 64 →
    let kind := kindOf w.kind
    let skips := s.fetch.resync = true ∧ s.fetch.chain = .main
    let inside : Bool := !s.fetch.stack.isEmpty
    let entry : Entry :=
      { id := s.fetch.nextId, addr := a, kind := kind
        chain := if inside then .sequence else
          match s.fetch.chain with
          | .main => .main
          | .recovery => .recovery
        caller := if inside then s.fetch.outer else none
        words := w, state := .fetched, draft := none, notAllowed := false
        summary := ⟨0, 0, 0, false⟩, callStatus := .notEntered, dropped := false }
    let read : State := { s with
      out := [], mem := { s.mem with bus := none }
      fetch := { s.fetch with read := none, nextId := s.fetch.nextId + 1 }
      launch := { s.launch with wakeAsked := s.launch.wakeAsked || s.ctl.state == .standby } }
    let added (e : Entry) : State := { read with fetch := { read.fetch with window := s.fetch.window ++ [e] } }
    let refused (why : Reason) : State := { read with fetch := { read.fetch with
      window := (s.fetch.window ++ [entry]).map fun y =>
        if y.id = entry.id then
          { y with draft := some ⟨.refused, some why⟩, callStatus := .notEntered }
        else y } }
    let faulted (u : State) : State := { u with
      fetch := { u.fetch with window := u.fetch.window.map fun y =>
        if u.fetch.outer = some y.id then { y with summary := { y.summary with fault := true } } else y }
      ctl := { u.ctl with attn := u.ctl.attn ||| 0x80 } }
    let goesTo (p : FetchPos) (u : State) : Prop :=
      exec (.orderFetchComplete w) s = .next (State.finish { u with fetch := { u.fetch with pos := p } })
    let linked (u : State) : Prop :=
      exec (.orderFetchComplete w) s = .next (u.followLink a w.link).finish
    (skips → kind ≠ .mpOpen → linked (added { entry with draft := some ⟨.skipped, some .resync⟩ }))
    ∧ (skips → kind = .mpOpen → s.fetch.stack = [] →
      linked { added entry with fetch := { (added entry).fetch with resync := false } })
    ∧ (s.fetch.stack = [] → ¬skips →
      (kind = .sheet ∨ kind = .nop ∨ kind = .head ∨ kind = .pause ∨ kind = .mpOpen → linked (added entry))
      ∧ (kind = .ret ∨ kind = .unknown → linked (added { entry with draft := some ⟨.refused, some .badKind⟩ })))
    ∧ (∀ f fs, s.fetch.stack = f :: fs → ¬skips →
      (kind = .sheet ∨ kind = .nop → linked (added entry))
      ∧ (kind = .unknown → linked (added { entry with draft := some ⟨.refused, some .badKind⟩ }))
      ∧ (kind = .ret → w.w4 = f.head → goesTo (.returning f.head) (added entry))
      ∧ (kind = .ret → w.w4 ≠ f.head → goesTo (.returning f.head) (faulted (added entry)))
      ∧ (kind = .mpOpen ∨ kind = .pause ∨ kind = .head →
        goesTo (.returning f.head) (faulted (added { entry with notAllowed := true }))))
    ∧ (kind = .call → ¬skips →
      let loops := ∃ f ∈ s.fetch.stack, f.head = w.w4
      let inSequence (u : State) : State := if inside then faulted u else u
      (4 ≤ s.fetch.stack.length → linked (inSequence (refused .callDepth)))
      ∧ (s.fetch.stack.length < 4 → loops → linked (inSequence (refused .callLoop)))
      ∧ (s.fetch.stack.length < 4 → ¬loops → s.orderAddrOk w.w4 = false →
        exec (.orderFetchComplete w) s = .next (State.chainFault (.callHead entry.id a) w.w4
          (added { entry with callStatus := .pending })).finish))
    ∧ (∀ (block link : Word) (u : State), 
      (link = 0 → u.fetch.stack = [] → u.fetch.chain = .recovery →
        let main : State := { u with fetch := { u.fetch with chain := .main, resync := u.jam.mainResync } }
        (u.jam.mainResume = 0 → u.followLink block link
          = { main with fetch := { main.fetch with pos := .chainEnd .controlWord2 } })
        ∧ (u.jam.mainResume ≠ 0 → u.orderAddrOk u.jam.mainResume = true → u.followLink block link
          = { main with fetch := { main.fetch with pos := .next u.jam.mainResume } })
        ∧ (u.jam.mainResume ≠ 0 → u.orderAddrOk u.jam.mainResume = false → u.followLink block link
          = main.chainFault (.value u.jam.mainResume) u.jam.mainResume))
      ∧ (link = 0 → u.fetch.stack ≠ [] ∨ u.fetch.chain = .main → u.followLink block link
          = { u with fetch := { u.fetch with pos := .chainEnd (.block block) } })
      ∧ (link ≠ 0 → u.orderAddrOk link = true → u.followLink block link
          = { u with fetch := { u.fetch with pos := .next link } })
      ∧ (link ≠ 0 → u.orderAddrOk link = false → u.followLink block link = u.chainFault (.link block) link))
    ∧ (∀ (src : FaultSource) (bad : Word) (u : State),
      let at_ : State := { u with fetch := { u.fetch with pos := .chainFault src } }
      let write : Write := ⟨5, u.ctl.area + 44, bad, .plain⟩
      (u.queueHasRoom = true → u.chainFault src bad = { at_ with
        mem := { u.mem with queue := u.mem.queue ++ [write] }
        ctl := { u.ctl with attn := u.ctl.attn ||| 0x80, lastSkip := some .chainFault } })
      ∧ (u.queueHasRoom = false → u.chainFault src bad = { at_ with
        mem := { u.mem with held := u.mem.held ++ [⟨write, .chainFault⟩] } }))

/-- The Order Fetch Unit issues no read outside RUNNING, STANDBY, DRAINING and HALTED, with a read outstanding, or
while it holds the write of a return link. Otherwise the fetch position decides: an order fetch of the copied words
at a next block or a head awaited, with fewer than 64 entries in the window; the return link; the continuation; the
re-read of a chain end or of a chain fault's source when one is asked for; and none for a chain fault at a resume
point or when idle. The held write of a chain fault holds back no re-read that is asked for (the model's choice, log
entry 27). -/
def Obligations.FetchReadsIssued : Prop :=
  (∀ s : State,
    let may := (s.ctl.state = .running ∨ s.ctl.state = .standby ∨ s.ctl.state = .draining
      ∨ s.ctl.state = .halted) ∧ s.fetch.read = none ∧ s.fetchHeld = false
    let reads (k : FetchRead) (addrs : List Word) : Prop := s.issueReads = { s with
      fetch := { s.fetch with read := some ⟨k, false⟩, rereadAsked := false }
      mem := { s.mem with waiting := s.mem.waiting ++ [⟨.fetch k, addrs⟩] } }
    let order (a : Word) : Prop :=
      (s.fetch.window.length < 64 →
        reads .order (([0, 4, 12, 16, 20, 24, 28, 32, 36] : List Word).map (a + ·)))
      ∧ (64 ≤ s.fetch.window.length → s.issueReads = s)
    let again (k : FetchRead) (a : Word) : Prop :=
      (s.fetch.rereadAsked = true → reads k [a]) ∧ (s.fetch.rereadAsked = false → s.issueReads = s)
    (¬may → s.issueReads = s)
    ∧ (may →
      (∀ a, s.fetch.pos = .next a → order a)
      ∧ (∀ call a, s.fetch.pos = .awaitingHead call a → order a)
      ∧ (∀ head, s.fetch.pos = .returning head → reads .returnLink [head + 16])
      ∧ (∀ block call, s.fetch.pos = .continuing block call → reads .continuation [block])
      ∧ (∀ a, s.fetch.pos = .chainEnd (.block a) → again .tail a)
      ∧ (s.fetch.pos = .chainEnd .controlWord2 → again .tail (s.ctl.area + 8))
      ∧ (∀ a, s.fetch.pos = .chainFault (.link a) → again .faultSource a)
      ∧ (∀ call block, s.fetch.pos = .chainFault (.callHead call block) → again .faultSource (block + 16))
      ∧ (∀ head, s.fetch.pos = .chainFault (.returnLink head) → again .faultSource (head + 16))
      ∧ (s.fetch.pos = .chainFault .controlWord2 → again .faultSource (s.ctl.area + 8))
      ∧ (s.fetch.pos = .chainFault .controlWord3 → again .faultSource (s.ctl.area + 12))
      ∧ ((∃ v, s.fetch.pos = .chainFault (.value v)) ∨ s.fetch.pos = .idle → s.issueReads = s)))
  ∧ (∀ s : State, s.fetchHeld = true ↔ ∃ h ∈ s.mem.held, ∃ call head w, h.steps = .enterSequence call head w)

/-- The re-reads of a chain end and of a chain fault read from a link word (0 keeps or makes the chain end, an
address that passes becomes the next block, one that fails is a new chain fault), and the two reads by which a
sequence is left. The candidate's ready word is written into the SHEET's entry while it is still the candidate and
discarded otherwise, and the completion asks for a wake evaluation in STANDBY, which for a discarded value is the
model's choice (log entry 10); the ready word read for a sheet at INV ends its side-2 check if that is PENDING, and
is discarded otherwise. The re-read of a chain end at control word 2; the re-reads of the fault sources link word,
head address, return link, control word 2 and control word 3, each leading where the first read would, a head
address that passes awaited as a head without a second look at the stack (the model's choice, log entry 14); a
return link that fails; and a continuation read, which follows the CALL's link. -/
def Obligations.LinkAndReadyWordReads : Prop :=
  (((∀ (v : Word) (r : ReadReq) (s : State), s.mem.bus = some ⟨.read r, false⟩ →
      let ok := recordInWindow s.ctl.area s.mem.windowLength v 64
      let base : State := { s with
        out := [], mem := { s.mem with bus := none }, fetch := { s.fetch with read := none } }
      (∀ b, r.purpose = .fetch .tail → s.fetch.read = some ⟨.tail, false⟩ → s.fetch.pos = .chainEnd (.block b) →
        (v = 0 → exec (.tailReread v) s = .next base.finish)
        ∧ (v ≠ 0 → ok = true → exec (.tailReread v) s = .next (State.finish
            { base with fetch := { base.fetch with pos := .next v, rereadAsked := false } }))
        ∧ (v ≠ 0 → ok = false → s.queueHasRoom = true → exec (.tailReread v) s = .next (State.finish
            { base with
              fetch := { base.fetch with pos := .chainFault (.link b), rereadAsked := false }
              mem := { base.mem with queue := s.mem.queue ++ [⟨5, s.ctl.area + 44, v, .plain⟩] }
              ctl := { s.ctl with attn := s.ctl.attn ||| 0x80, lastSkip := some .chainFault } })))
      ∧ (∀ b, r.purpose = .fetch .faultSource → s.fetch.read = some ⟨.faultSource, false⟩ →
        s.fetch.pos = .chainFault (.link b) →
        (v = 0 → exec (.chainFaultReread v) s = .next (State.finish
            { base with fetch := { base.fetch with pos := .chainEnd (.block b) } }))
        ∧ (v ≠ 0 → ok = true → exec (.chainFaultReread v) s = .next (State.finish
            { base with fetch := { base.fetch with pos := .next v } }))
        ∧ (v ≠ 0 → ok = false → s.queueHasRoom = true → exec (.chainFaultReread v) s = .next (State.finish
            { base with
              fetch := { base.fetch with pos := .chainFault (.link b) }
              mem := { base.mem with queue := s.mem.queue ++ [⟨5, s.ctl.area + 44, v, .plain⟩] }
              ctl := { s.ctl with attn := s.ctl.attn ||| 0x80, lastSkip := some .chainFault } }))))
  ∧ (∀ (v : Word) (r : ReadReq) (s : State), s.mem.bus = some ⟨.read r, false⟩ →
      let ok := recordInWindow s.ctl.area s.mem.windowLength v 64
      let base : State := { s with
        out := [], mem := { s.mem with bus := none }, fetch := { s.fetch with read := none } }
      (∀ head f rest, r.purpose = .fetch .returnLink → s.fetch.read = some ⟨.returnLink, false⟩ →
        s.fetch.pos = .returning head → s.fetch.stack = f :: rest →
        (ok = true → exec (.returnLinkRead v) s = .next (State.finish
            { base with
              fetch := { base.fetch with
                stack := rest, pos := .continuing v f.call
                outer := if rest = [] then none else s.fetch.outer } }))
        ∧ (ok = false → s.queueHasRoom = true → exec (.returnLinkRead v) s = .next (State.finish
            { base with
              fetch := { base.fetch with pos := .chainFault (.returnLink head) }
              mem := { base.mem with queue := s.mem.queue ++ [⟨5, s.ctl.area + 44, v, .plain⟩] }
              ctl := { s.ctl with attn := s.ctl.attn ||| 0x80, lastSkip := some .chainFault } })))
      ∧ (∀ block call, r.purpose = .fetch .continuation → s.fetch.read = some ⟨.continuation, false⟩ →
        s.fetch.pos = .continuing block call →
        let left : List Entry :=
          s.fetch.window.map fun e => if e.id = call then { e with callStatus := .left } else e
        (v = 0 → s.fetch.chain = .main → exec (.continuationRead v) s = .next (State.finish
            { base with fetch := { base.fetch with window := left, pos := .chainEnd (.block block) } }))
        ∧ (v ≠ 0 → ok = true → exec (.continuationRead v) s = .next (State.finish
            { base with fetch := { base.fetch with window := left, pos := .next v } })))))
  ∧ ((∀ (v : Word) (r : ReadReq) (id : Nat) (s : State), s.mem.bus = some ⟨.read r, false⟩ →
      r.purpose = .candidateReady → s.launch.candRead = some id →
      exec (.candidateReadyWordRead v) s = .next (State.finish
        { s with
          out := []
          mem := { s.mem with bus := none }
          launch := { s.launch with
            candRead := none, wakeAsked := s.launch.wakeAsked || s.ctl.state == .standby }
          fetch := { s.fetch with
            window := if s.launch.candidate = some id then
                s.fetch.window.map fun e =>
                  if e.id = id then { e with words := { e.words with ready := v } } else e
              else s.fetch.window } }))
  ∧ (∀ (v : Word) (r : ReadReq) (t : Nat) (s : State), s.mem.bus = some ⟨.read r, false⟩ →
      r.purpose = .invReady t →
      exec (.invReadyWordRead v) s = .next (State.finish
        { s with
          out := []
          mem := { s.mem with bus := none }
          track := { s.track with
            sheets := s.track.sheets.map fun x =>
              if x.id = t ∧ x.side2Check = .pending then
                { x with side2Check := if v.getLsbD 1 then .ready else .notReady }
              else x } }))))
  ∧ (∀ (v : Word) (r : ReadReq) (s : State), s.mem.bus = some ⟨.read r, false⟩ →
    let ok := recordInWindow s.ctl.area s.mem.windowLength v 64
    let base : State := { s with
      out := [], mem := { s.mem with bus := none }, fetch := { s.fetch with read := none } }
    let goesTo (c : Instr) (p : FetchPos) : Prop :=
      exec c s = .next (State.finish { base with fetch := { base.fetch with pos := p } })
    let fails (c : Instr) (src : FaultSource) : Prop := exec c s = .next (base.chainFault src v).finish
    (r.purpose = .fetch .tail → s.fetch.read = some ⟨.tail, false⟩ →
      let asked (u : State) : State := { u with fetch := { u.fetch with rereadAsked := false } }
      (∀ b, s.fetch.pos = .chainEnd (.block b) → v ≠ 0 → ok = false →
        exec (.tailReread v) s = .next ((asked base).chainFault (.link b) v).finish)
      ∧ (s.fetch.pos = .chainEnd .controlWord2 →
        (v = 0 → exec (.tailReread v) s = .next base.finish)
        ∧ (v ≠ 0 → ok = true → exec (.tailReread v) s = .next (State.finish
            { base with fetch := { base.fetch with pos := .next v, rereadAsked := false } }))
        ∧ (v ≠ 0 → ok = false →
            exec (.tailReread v) s = .next ((asked base).chainFault .controlWord2 v).finish)))
    ∧ (r.purpose = .fetch .faultSource → s.fetch.read = some ⟨.faultSource, false⟩ →
      let c : Instr := .chainFaultReread v
      (∀ b, s.fetch.pos = .chainFault (.link b) → v ≠ 0 → ok = false → fails c (.link b))
      ∧ (∀ call b, s.fetch.pos = .chainFault (.callHead call b) →
        (ok = true → goesTo c (.awaitingHead call v)) ∧ (ok = false → fails c (.callHead call b)))
      ∧ (∀ head f rest, s.fetch.pos = .chainFault (.returnLink head) → s.fetch.stack = f :: rest →
        (ok = true → exec c s = .next (State.finish { base with
            fetch := { base.fetch with
              stack := rest, pos := .continuing v f.call
              outer := if rest = [] then none else s.fetch.outer } }))
        ∧ (ok = false → fails c (.returnLink head)))
      ∧ (s.fetch.pos = .chainFault .controlWord2 →
        (v = 0 → goesTo c (.chainEnd .controlWord2)) ∧ (v ≠ 0 → ok = true → goesTo c (.next v))
        ∧ (v ≠ 0 → ok = false → fails c .controlWord2))
      ∧ (s.fetch.pos = .chainFault .controlWord3 →
        let main : State := { base with
          fetch := { base.fetch with chain := .main, resync := s.jam.mainResync } }
        let start (p : FetchPos) : State := { main with fetch := { main.fetch with pos := p } }
        (v = 0 → s.jam.mainResume = 0 → exec c s = .next (start (.chainEnd .controlWord2)).finish)
        ∧ (v = 0 → s.jam.mainResume ≠ 0 → s.orderAddrOk s.jam.mainResume = true →
          exec c s = .next (start (.next s.jam.mainResume)).finish)
        ∧ (v = 0 → s.jam.mainResume ≠ 0 → s.orderAddrOk s.jam.mainResume = false →
          exec c s = .next (main.chainFault (.value s.jam.mainResume) s.jam.mainResume).finish)
        ∧ (v ≠ 0 → ok = true → goesTo c (.next v)) ∧ (v ≠ 0 → ok = false → fails c .controlWord3)))
    ∧ (∀ head, r.purpose = .fetch .returnLink → s.fetch.read = some ⟨.returnLink, false⟩ →
      s.fetch.pos = .returning head → ok = false → fails (.returnLinkRead v) (.returnLink head))
    ∧ (∀ block call, r.purpose = .fetch .continuation → s.fetch.read = some ⟨.continuation, false⟩ →
      s.fetch.pos = .continuing block call →
      exec (.continuationRead v) s = .next (State.followLink block v
        { base with fetch := { base.fetch with window := s.fetch.window.map fun e =>
          if e.id = call then { e with callStatus := .left } else e } }).finish))

/-- The write in progress completes: it reaches memory and leaves the queue, the write of a retired count that makes
the flag due sets ATTN RETIRED and the valid word's write sets ATTN JAM, and a write held for room enters the queue,
its block going on with the steps after it. A write that the reset line cut off reaches memory and nothing else. Of
several held writes the one of the highest class enters, and of equal classes the one held longest; none enters
while the queue is full. The steps taken when a held write has entered: the head pushed, its entry added and its
link followed after a return link's write; ATTN CHAIN_FAULT and the skip reason after a chain fault's; JAMMED entry
when no draining sheet is left after the valid word's write of 0; the rest of the stop record, issued or held in its
turn, the record issued with its last write; none after a retirement write, nor after a return link's write whose
steps JAMMED entry has dropped (the model's choice, log entry 11). -/
def Obligations.WriteCompletes : Prop :=
  ((∀ (w : Write) (s : State),
    let set : FlagBits := match w.tag with
      | .plain => 0
      | .retiredCount => 1
      | .validWord => 2
    let done : State := { s with
      out := [.memoryWrite w.addr w.value]
      mem := { s.mem with bus := none, queue := s.mem.queue.tail }
      ctl := { s.ctl with attn := s.ctl.attn ||| set } }
    (s.mem.bus = some ⟨.write w, false⟩ → s.mem.held = [] → exec .writeComplete s = .next done.finish)
    ∧ (∀ h, s.mem.bus = some ⟨.write w, false⟩ → s.mem.held = [h] → s.mem.queue.tail.length < 16 →
        exec .writeComplete s = .next (State.runSteps h.steps
          { done with mem := { done.mem with queue := s.mem.queue.tail ++ [h.w], held := [] } }).finish)
    ∧ (s.mem.bus = some ⟨.write w, true⟩ →
        exec .writeComplete s = .next (State.finish { s with
          out := [.memoryWrite w.addr w.value], mem := { s.mem with bus := none } })))
  ∧ (∀ (w : Write) (h : HeldWrite) (before after : List HeldWrite) (s : State),
    let set : FlagBits := match w.tag with
      | .plain => 0
      | .retiredCount => 1
      | .validWord => 2
    let done : State := { s with
      out := [.memoryWrite w.addr w.value]
      mem := { s.mem with bus := none, queue := s.mem.queue.tail }
      ctl := { s.ctl with attn := s.ctl.attn ||| set } }
    s.mem.bus = some ⟨.write w, false⟩ → s.mem.held = before ++ h :: after →
    (∀ y ∈ before, h.w.cls < y.w.cls) → (∀ y ∈ after, h.w.cls ≤ y.w.cls) →
    (s.mem.queue.tail.length < 16 → exec .writeComplete s = .next (State.runSteps h.steps
      { done with mem := { done.mem with queue := s.mem.queue.tail ++ [h.w], held := before ++ after } }).finish)
    ∧ (16 ≤ s.mem.queue.tail.length → exec .writeComplete s = .next done.finish)))
  ∧ (∀ s : State,
    State.runSteps .retire s = s ∧ State.runSteps .nothing s = s
    ∧ State.runSteps .chainFault s = { s with
        ctl := { s.ctl with attn := s.ctl.attn ||| 0x80, lastSkip := some .chainFault } }
    ∧ State.runSteps .endOfDrain s =
        (if s.ctl.state = .stopping ∧ ∀ x ∈ s.track.sheets, x.state = .frozen then s.jammedEntry else s)
    ∧ State.runSteps (.stopRecord []) s = { s with jam := { s.jam with recordIssued := true } }
    ∧ (∀ w rest,
      (s.queueHasRoom = true → State.runSteps (.stopRecord (w :: rest)) s =
        State.runSteps (.stopRecord rest) { s with mem := { s.mem with queue := s.mem.queue ++ [w] } })
      ∧ (s.queueHasRoom = false → State.runSteps (.stopRecord (w :: rest)) s =
        { s with mem := { s.mem with held := s.mem.held ++ [⟨w, .stopRecord rest⟩] } }))
    ∧ (∀ call head w, s.fetch.window.length < 64 → s.fetch.stack.length < 4 →
      let outer := if s.fetch.stack = [] then some call else s.fetch.outer
      let entry : Entry :=
        { id := s.fetch.nextId, addr := head, kind := kindOf w.kind, chain := .sequence, caller := outer
          words := w, state := .fetched, draft := none, notAllowed := false
          summary := ⟨0, 0, 0, false⟩, callStatus := .notEntered, dropped := false }
      State.runSteps (.enterSequence call head w) s = State.followLink head w.link { s with
        fetch := { s.fetch with
          outer := outer, stack := ⟨head, call⟩ :: s.fetch.stack
          window := s.fetch.window ++ [entry], nextId := s.fetch.nextId + 1 } }))

/-- The bus: nothing is granted while an access is in progress; a read is granted when no queued write is to a word
it reads, its class is the highest of such reads and higher than that of every queued write; otherwise the head of
the write queue. Of several reads that may be granted, the one of the highest class, and of equal classes the one
requested first. -/
def Obligations.BusGrants : Prop :=
  (∀ s : State,
    let free (r : ReadReq) : Prop := r ∈ s.mem.waiting ∧ ∀ w ∈ s.mem.queue, w.addr ∉ r.addrs
    (s.mem.bus ≠ none → s.grant = s)
    ∧ (s.mem.bus = none → s.mem.queue = [] → (∀ r, ¬free r) → s.grant = s)
    ∧ (∀ r, s.nextAccess = some (.read r) → free r ∧ (∀ q, free q → r.purpose.cls ≤ q.purpose.cls)
        ∧ (∀ w ∈ s.mem.queue, r.purpose.cls < w.cls)
        ∧ (s.mem.bus = none → s.grant = { s with
            mem := { s.mem with bus := some ⟨.read r, false⟩, waiting := s.mem.waiting.erase r } }))
    ∧ (∀ w, s.nextAccess = some (.write w) → s.mem.queue.head? = some w
        ∧ (∀ q, free q → 6 ≤ q.purpose.cls ∨ ∃ v ∈ s.mem.queue, v.cls ≤ q.purpose.cls)
        ∧ (s.mem.bus = none → s.grant = { s with mem := { s.mem with bus := some ⟨.write w, false⟩ } }))
    ∧ (s.nextAccess = none → s.mem.queue = [] ∧ ∀ r, ¬free r))
  ∧ (∀ (s : State) (r : ReadReq),
    let free (q : ReadReq) : Prop := ∀ w ∈ s.mem.queue, w.addr ∉ q.addrs
    s.nextAccess = some (.read r) → ∃ before after, s.mem.waiting = before ++ r :: after
      ∧ (∀ q ∈ before, free q → r.purpose.cls < q.purpose.cls)
      ∧ (∀ q ∈ after, free q → r.purpose.cls ≤ q.purpose.cls)
      ∧ (s.mem.bus = none → s.grant = { s with mem := { s.mem with
          bus := some ⟨.read r, false⟩, waiting := before ++ after } }))

/-! ## Transport and the paper path -/

/-- A forward step of a section's encoder, on every state: the count advances by one modulo 2^24, whatever the run
output, and every compare held on it that the count now reaches has its event with the three counts of this step.
That the compare stays in the list, marked, until a command of its own takes the event is the model's choice (log
entry 7). A compare registered is tested once: one already reached has its event there, with the three counts as
they stand, and the first of these in the order of registration is taken at the end of the same command (the model's
choice, log entry 8). What is taken is what the commands of section counts take; a late or stuck deadline halts the
section and is reported with the counts of its event. -/
def Obligations.EncoderStepCounts : Prop :=
  (∀ (x : Section) (s : State),
    let counts := s.transport.count.set x (s.transport.count.get x + 1)
    exec (.encoderStep x) s = .next
      { s with
        out := []
        transport := { s.transport with
          count := counts
          compares := s.transport.compares.map fun k =>
            if k.event = none ∧ k.sec = x ∧ 0 ≤ posDiff (counts.get x) k.pos then
              { k with event := some counts }
            else k } }
    ∧ (counts.get x).toNat = (if (s.transport.count.get x).toNat = 16777215 then 0
        else (s.transport.count.get x).toNat + 1)
    ∧ (∀ y, y ≠ x → counts.get y = s.transport.count.get y)
    ∧ (∀ p : Pos, ¬0 ≤ posDiff (s.transport.count.get x) p → 0 ≤ posDiff (counts.get x) p →
        counts.get x = p))
  ∧ ((∀ (owner : CompareOwner) (x : Section) (pos : Pos) (s : State),
    let here : Prop := 0 ≤ posDiff (s.transport.count.get x) pos
    s.registerCompare owner x pos = { s with transport := { s.transport with
      compares := s.transport.compares ++ [
        { owner := owner, sec := x, pos := pos, event := if here then some s.transport.count else none
          atOnce := decide here }] } })
  ∧ (∀ (n : Nat) (s : State), (∀ q ∈ s.transport.compares, q.atOnce = false) → s.takeAtOnce n = s)
  ∧ (∀ (before after : List Compare) (q : Compare) (latch : PerSection Pos) (s : State),
    s.transport.compares = before ++ q :: after → (∀ y ∈ before, y.atOnce = false) → q.atOnce = true →
    q.event = some latch →
    let left : State := { s with transport := { s.transport with
      compares := s.transport.compares.filter fun y => y.owner != q.owner } }
    (∀ n, s.takeAtOnce (n + 1) = (left.takeCompare q.owner latch).takeAtOnce n))
  ∧ (∀ (q : Compare) (latch : PerSection Pos) (s : State), q.event = some latch →
    let left : State := { s with
      out := []
      transport := { s.transport with compares := s.transport.compares.filter fun y => y.owner != q.owner } }
    let first (p : CompareOwner → Bool) : Prop :=
      s.transport.compares.find? (fun y => y.event.isSome && p y.owner) = some q
    let takenBy (c : Instr) : Prop := exec c s = .next (left.takeCompare q.owner latch).finish
    (first (· == .boundary) → takenBy .pitchBoundary) ∧ (first State.isPick → takenBy .pick)
    ∧ (∀ c, first (s.isLateAt c) → takenBy (.lateDeadline c))
    ∧ (∀ c, first (State.isStuckAt c) → takenBy (.stuckDeadline c)))
  ∧ (∀ (x : Sheet) (c : Checkpoint) (latch : PerSection Pos) (s : State), s.findSheet x.id = some x →
    let reported (cause : Cause) : State := (s.haltSections ((perSection false).set c.sec true)).report
      ⟨cause, .checkpoint c, some x.order, latch⟩
    (x.next = some c → s.takeCompare (.late x.id) latch = reported .late)
    ∧ s.takeCompare (.stuck x.id c) latch = reported .stuck))

/-- Positions, signed differences, "reaches", arrival differences and lengths. -/
def Obligations.PositionArithmetic : Prop :=
  ∀ (a b : Pos) (d : Nat),
    (posAdd a d).toNat = (a.toNat + d) % 16777216
    ∧ ((posSub a d).toNat : Int) = ((a.toNat : Int) - (d : Int)) % 16777216
    ∧ (let diff := (a.toNat + 16777216 - b.toNat) % 16777216
       posDiff a b = if 8388608 ≤ diff then (diff : Int) - 16777216 else (diff : Int))
    ∧ -8388608 ≤ posDiff a b ∧ posDiff a b ≤ 8388607
    ∧ (posDiff a b = 0 ↔ a = b)
    ∧ reaches a b = decide (0 ≤ posDiff a b)
    ∧ posLength a b = (a.toNat + 16777216 - b.toNat) % 16777216
    ∧ (∀ (due : Due) (tol : Nat), State.classify due a tol = .onTime ↔
        0 ≤ posDiff a due.early ∧ posDiff a due.expected ≤ tol)

/-- No command but an encoder step and the reset line changes a section count, and the reset line sets all three to
0; the pitch number and boundary restart at an entry to AT-SPEED, from the UP count of that moment. -/
def Obligations.CountsMoveOnlyBySteps : Prop :=
  (∀ (c : Instr) (s t : State), (∀ x, c ≠ .encoderStep x) → (∀ l y, c ≠ .resetLine l y) →
    exec c s = .next t → t.transport.count = s.transport.count)
  ∧ (∀ l y s, ∃ t, exec (.resetLine l y) s = .next t ∧ t.transport.count = perSection 0)
  ∧ ∀ s : State, s.startClock.clock.pitch = 0
      ∧ s.startClock.clock.boundary = s.transport.count.up
      ∧ s.startClock.transport.count = s.transport.count

/-- An edge event records the new level as the sensor's held level, in every state; no other command but the reset
line, which takes the levels as they stand, changes a level. -/
def Obligations.EdgesRecordLevels : Prop :=
  (∀ (c : Checkpoint) (s : State), s.transport.sensors.get c = false →
    ∃ t, exec (.leadingEdge c) s = .next t ∧ t.transport.sensors = s.transport.sensors.set c true)
  ∧ (∀ (c : Checkpoint) (s : State), s.transport.sensors.get c = true →
    ∃ t, exec (.trailingEdge c) s = .next t ∧ t.transport.sensors = s.transport.sensors.set c false)
  ∧ (∀ l y s, ∃ t, exec (.resetLine l y) s = .next t ∧ t.transport.sensors = l)
  ∧ ∀ (c : Instr) (s t : State), exec c s = .next t → (∀ x, c ≠ .leadingEdge x) →
      (∀ x, c ≠ .trailingEdge x) → (∀ l y, c ≠ .resetLine l y) → t.transport.sensors = s.transport.sensors

/-- A section halts: it is no longer TRACKING, its late and stuck deadline compares are withdrawn, and nothing else
changes. An edge at a checkpoint of a HALTED section changes the sensor's level and nothing else before the end of
the event, and so does a trailing edge with no occupancy; an edge that is no change of level has no effect (the
model's choice, log entry 3). -/
def Obligations.HaltedTracking : Prop :=
  (∀ (s : State) (named : PerSection Bool),
      ∃ t : State, t = s.haltSections named
        ∧ (∀ x, t.track.tracking.get x = (s.track.tracking.get x && !named.get x))
        ∧ t.transport.compares = s.transport.compares.filter (fun k =>
            !(k.owner.isDeadline && named.get k.sec))
        ∧ t = { s with
            track := { s.track with tracking := t.track.tracking }
            transport := { s.transport with compares := t.transport.compares } })
  ∧ (∀ (c : Checkpoint) (s : State),
      let leveled (b : Bool) : State := { s with
        out := [], transport := { s.transport with sensors := s.transport.sensors.set c b } }
      (s.transport.sensors.get c = false → s.track.tracking.get c.sec = false →
        exec (.leadingEdge c) s = .next (leveled true).finish)
      ∧ (s.transport.sensors.get c = true →
          s.track.tracking.get c.sec = false ∨ s.occupant c = none →
        exec (.trailingEdge c) s = .next (leveled false).finish)
      ∧ (s.transport.sensors.get c = true → exec (.leadingEdge c) s = .next (State.finish { s with out := [] }))
      ∧ (s.transport.sensors.get c = false →
          exec (.trailingEdge c) s = .next (State.finish { s with out := [] })))

/-- A leading edge at a checkpoint of a TRACKING section that is not on time: UNEXPECTED with an empty queue, EARLY
before the head's early limit, LATE beyond the late tolerance; the section halts and the fault is reported with the
edge's counts. -/
def Obligations.LeadingEdgeFaults : Prop :=
  ∀ (c : Checkpoint) (k : Installed) (s : State), s.config = some k →
    s.transport.sensors.get c = false → s.track.tracking.get c.sec = true →
    let leveled : State := { s with
      out := [], transport := { s.transport with sensors := s.transport.sensors.set c true } }
    let halted : State := leveled.haltSections ((perSection false).set c.sec true)
    let capture := s.transport.count.get c.sec
    (s.queueHead c = none →
      exec (.leadingEdge c) s = .next
        (halted.report ⟨.unexpected, .checkpoint c, none, s.transport.count⟩).finish)
    ∧ (∀ x d, s.queueHead c = some x → x.due = some d → posDiff capture d.early < 0 →
      exec (.leadingEdge c) s = .next
        (halted.report ⟨.early, .checkpoint c, some x.order, s.transport.count⟩).finish)
    ∧ (∀ x d, s.queueHead c = some x → x.due = some d → 0 ≤ posDiff capture d.early →
        (k.block.lateTol.get c.sec : Int) < posDiff capture d.expected →
      exec (.leadingEdge c) s = .next
        (halted.report ⟨.late, .checkpoint c, some x.order, s.transport.count⟩).finish)
    ∧ (∀ x d, s.queueHead c = some x → x.due = some d → 0 ≤ posDiff capture d.early →
        posDiff capture d.expected ≤ (k.block.lateTol.get c.sec : Int) → 2 ≤ x.occ.length →
      exec (.leadingEdge c) s = .next
        (halted.report ⟨.length, .checkpoint c, some x.order, s.transport.count⟩).finish)

/-- An on-time leading edge: the sheet leaves the queue, gains the occupancy with its stuck deadline, and enters the
queue of its next checkpoint, expected from the count this edge latched there; the whole state for a feeder exit and
for RTN. At MRG a sheet from RTN goes on pass 2 and releases its return reservation; at REG the transfer decision is
made (TransferDecisionAtReg) and a pending side-2 check ends as NOT READY after the decision, both the model's
choice (log entry 22); at FUS a transfer still outstanding is abandoned with the mark TRANSFER_FAULT and D1 is set;
at INV the side-2 check becomes PENDING and its ready word is requested, from the order block at address 0 when the
sheet's order is in no entry of the window, which is the model's choice (log entry 21); after MRK the sheet goes to
PRG when it is marked and to its mailpiece's bin otherwise; at a bin entry a committed sheet needs nothing further,
and an uncommitted one is a path fault UNEXPECTED that halts DOWN. Entering a queue: the expected position, its
limits and the late deadline, at the tail, and at MRG before the first sheet of a greater merge key. -/
def Obligations.OnTimeArrivalMovesOn : Prop :=
  (∀ (c n : Checkpoint) (k : Installed) (x : Sheet) (d : Due) (s : State), s.config = some k →
    s.transport.sensors.get c = false → s.track.tracking.get c.sec = true →
    s.queueHead c = some x → x.due = some d →
    0 ≤ posDiff (s.transport.count.get c.sec) d.early →
    posDiff (s.transport.count.get c.sec) d.expected ≤ (k.block.lateTol.get c.sec : Int) →
    x.occ.length < 2 → (s.track.sheets.filter (·.id = x.id)) = [x] →
    ∀ segment : Nat, ((∃ t, c = .fd t ∧ n = .mrg ∧ segment = (k.block.trays.get t).fdToMrg)
        ∨ (c = .rtn ∧ n = .mrg ∧ segment = k.block.rtnToMrg)) →
    let lead := s.transport.count.get c.sec
    let expected := posAdd (s.transport.count.get n.sec) segment
    ∃ u : State, exec (.leadingEdge c) s = .next u.finish
      ∧ u.track.sheets = s.track.sheets.map (fun y =>
          if y.id = x.id then
            { x with
              occ := x.occ ++ [⟨c, lead, posAdd lead (2 * (k.block.trays.get x.tray).media)⟩]
              last := some c, next := some n
              due := some
                { expected := expected, early := posSub expected (k.block.earlyTol.get n.sec)
                  late := posAdd expected (k.block.lateTol.get n.sec) } }
          else y)
      ∧ x.id ∉ u.track.queues.get c ∧ x.id ∈ u.track.queues.get n
      ∧ (∃ e₁ e₂, (⟨.stuck x.id c, c.sec, posAdd lead (2 * (k.block.trays.get x.tray).media), e₁,
            e₁.isSome⟩ : Compare) ∈ u.transport.compares
          ∧ (⟨.late x.id, n.sec, posAdd expected (k.block.lateTol.get n.sec), e₂, e₂.isSome⟩ : Compare)
            ∈ u.transport.compares)
      ∧ u.transport.sensors = s.transport.sensors.set c true
      ∧ u = { s with
          out := []
          transport := { s.transport with
            sensors := u.transport.sensors, compares := u.transport.compares }
          track := { s.track with sheets := u.track.sheets, queues := u.track.queues } })
  ∧ (∀ (c : Checkpoint) (k : Installed) (x : Sheet) (d : Due) (s : State), s.config = some k →
    s.transport.sensors.get c = false → s.track.tracking.get c.sec = true →
    s.queueHead c = some x → x.due = some d →
    0 ≤ posDiff (s.transport.count.get c.sec) d.early →
    posDiff (s.transport.count.get c.sec) d.expected ≤ (k.block.lateTol.get c.sec : Int) →
    x.occ.length < 2 → s.track.sheets.filter (·.id = x.id) = [x] →
    let lead := s.transport.count.get c.sec
    let stuck := posAdd lead (2 * (k.block.trays.get x.tray).media)
    let updated (f : Sheet → Sheet) (s : State) : State := { s with
      track := { s.track with sheets := s.track.sheets.map fun y => if y.id = x.id then f y else y } }
    let arrived : State := State.registerCompare (.stuck x.id c) c.sec stuck
      (updated (fun y => { y with occ := y.occ ++ [⟨c, lead, stuck⟩], last := some c })
        { s with
          out := []
          transport := { s.transport with
            sensors := s.transport.sensors.set c true
            compares := s.transport.compares.filter fun q => q.owner != .late x.id }
          track := { s.track with
            queues := s.track.queues.set c ((s.track.queues.get c).filter (· ≠ x.id)) } })
    let goesTo (n : Checkpoint) (segment : Nat) (w : State) : Prop :=
      exec (.leadingEdge c) s
        = .next (State.enterQueue k x.id n (s.transport.count.get n.sec) segment w).finish
    (c = .mrg →
      (x.mode = .loop ∧ x.pass2 = false ∧ x.last = some .rtn →
        goesTo .reg k.block.mrgToReg
          { updated (fun y => { y with pass2 := true }) arrived with
            clock := { s.clock with ring := s.clock.ring.filter (·.track ≠ x.id) } })
      ∧ (¬(x.mode = .loop ∧ x.pass2 = false ∧ x.last = some .rtn) → goesTo .reg k.block.mrgToReg arrived))
    ∧ (c = .reg →
      (x.pass2 = true → x.side2Check = .pending →
        goesTo .fus k.block.regToFus
          (updated (fun y => { y with side2Check := .notReady }) (arrived.transferAtReg x)))
      ∧ (¬(x.pass2 = true ∧ x.side2Check = .pending) → goesTo .fus k.block.regToFus (arrived.transferAtReg x)))
    ∧ (c = .fus →
      let abandoned : State := updated (fun y => { y with transfer := .abandoned })
        { arrived with track := { arrived.track with
            fifo := s.track.fifo.map fun f => if f.track = x.id then { f with live := false } else f } }
      let w : State :=
        if x.transfer = .outstanding then abandoned.giveMark x.id .transferFault else arrived
      let set (d : D1) : State := { w with track := { w.track with d1 := d } }
      (x.mode = .loop ∧ x.pass2 = false → goesTo .inv k.block.fusToInv (set .towardInv))
      ∧ (¬(x.mode = .loop ∧ x.pass2 = false) → goesTo .mrk k.block.fusToMrk (set .towardMrk)))
    ∧ (c = .inv →
      let checked := x.mode = .loop ∧ x.pass2 = false ∧ x.side2 ≠ none ∧ x.purge = none
      (checked → goesTo .rtn k.block.invToRtn
        { updated (fun y => { y with side2Check := .pending }) arrived with
          mem := { s.mem with
            waiting := s.mem.waiting ++ [⟨.invReady x.id, [s.entryAddr x.order + 12]⟩] } })
      ∧ (¬checked → goesTo .rtn k.block.invToRtn arrived))
    ∧ (c = .mrk →
      (x.purge ≠ none → goesTo .prg k.block.mrkToPrg arrived)
      ∧ (∀ m b, x.purge = none → s.findMp x.mp = some m → m.bin = some b →
        goesTo (.stk b) (k.block.mrkToStk.get b) arrived))
    ∧ (∀ t : Dest, c = t.checkpoint →
      let w : State := updated (fun y => { y with next := none, due := none }) arrived
      (x.committed = true → exec (.leadingEdge c) s = .next w.finish)
      ∧ (x.committed = false → exec (.leadingEdge c) s
        = .next ((w.haltSections ⟨false, false, true⟩).report
            ⟨.unexpected, .checkpoint c, some x.order, s.transport.count⟩).finish)))
  ∧ (∀ (k : Installed) (id : Nat) (n : Checkpoint) (anchor : Pos) (segment : Nat) (s : State),
    let expected := posAdd anchor segment
    let late := posAdd expected (k.block.lateTol.get n.sec)
    ∃ q : List Nat,
      s.enterQueue k id n anchor segment = State.registerCompare (.late id) n.sec late
        { s with track := { s.track with
          sheets := s.track.sheets.map fun y =>
            if y.id = id then
              { y with
                next := some n
                due := some ⟨expected, posSub expected (k.block.earlyTol.get n.sec), late⟩ }
            else y
          queues := s.track.queues.set n q } }
      ∧ (n ≠ .mrg → q = s.track.queues.get n ++ [id])
      ∧ (n = .mrg → ∀ x, s.findSheet id = some x →
        let key (y : Sheet) : Word := if y.last = some .rtn then y.finalPitch else y.mergePitch
        ∃ before after, s.track.queues.mrg = before ++ after ∧ q = before ++ id :: after
          ∧ (∀ t ∈ before, ∀ y, s.findSheet t = some y → pitchGreater (key y) (key x) = false)
          ∧ (∀ t, after.head? = some t → ∃ y, s.findSheet t = some y ∧ pitchGreater (key y) (key x) = true)))

/-- The transfer decision of an on-time REG arrival, which LEADING_EDGE at REG makes (OnTimeArrivalMovesOn): the
first condition that applies decides, in the order of the table. An image identifier of 0 for a sheet whose order is
in no entry of the window is the model's choice (log entry 21). -/
def Obligations.TransferDecisionAtReg : Prop :=
  ∀ (x : Sheet) (s : State), s.track.sheets.filter (·.id = x.id) = [x] →
    let set (t : TransferState) (p : Option Reason) : List Sheet := s.track.sheets.map fun y =>
      if y.id = x.id then { x with transfer := t, purge := p } else y
    let kept : State := { s with track := { s.track with sheets := set .none x.purge } }
    (x.purge ≠ none → s.transferAtReg x = kept)
    ∧ (x.purge = none → x.pass2 = true → x.side2 = none → s.transferAtReg x = kept)
    ∧ (x.purge = none → x.pass2 = true → x.side2 ≠ none → x.side2Check ≠ .ready →
        s.transferAtReg x = kept.giveMark x.id .side2Late)
    ∧ (x.purge = none → (x.pass2 = true → x.side2 ≠ none ∧ x.side2Check = .ready) →
        5 ≤ s.track.fifo.length → s.transferAtReg x = kept.giveMark x.id .transferFault)
    ∧ (x.purge = none → (x.pass2 = true → x.side2 ≠ none ∧ x.side2Check = .ready) →
        s.track.fifo.length < 5 →
        s.transferAtReg x = { s with
          track := { s.track with
            sheets := set .outstanding none, fifo := s.track.fifo ++ [⟨x.id, true⟩] }
          out := s.out ++ [.transferRequest
            (if x.pass2 then x.side2.getD 0 else (s.findEntry x.order).elim 0 (·.words.w6)) x.pass2] })

/-- Diverter D1: set at each on-time FUS arrival by the sheet's mode and pass, toward MRK at the reset line, and
left by every other command. -/
def Obligations.DiverterD1 : Prop :=
  (∀ (k : Installed) (x : Sheet) (d : Due) (s : State), s.config = some k →
    s.transport.sensors.get .fus = false → s.track.tracking.up = true →
    s.queueHead .fus = some x → x.due = some d →
    0 ≤ posDiff s.transport.count.up d.early →
    posDiff s.transport.count.up d.expected ≤ (k.block.lateTol.up : Int) → x.occ.length < 2 →
    ∃ t, exec (.leadingEdge .fus) s = .next t
      ∧ t.track.d1 = (if x.mode = .loop ∧ x.pass2 = false then .towardInv else .towardMrk))
  ∧ (∀ (s t : State), exec (.leadingEdge .fus) s = .next t →
      (s.queueHead .fus = none ∨ ∃ x d, s.queueHead .fus = some x ∧ x.due = some d
        ∧ (posDiff s.transport.count.up d.early < 0
          ∨ ∃ k, s.config = some k ∧ (k.block.lateTol.up : Int) < posDiff s.transport.count.up d.expected)) →
      t.track.d1 = s.track.d1)
  ∧ (∀ l y s, ∃ t, exec (.resetLine l y) s = .next t ∧ t.track.d1 = .towardMrk)
  ∧ ∀ (c : Instr) (s t : State), exec c s = .next t → c ≠ .leadingEdge .fus →
      (∀ l y, c ≠ .resetLine l y) → t.track.d1 = s.track.d1

/-- A trailing edge ends the occupancy and withdraws its stuck deadline; where the length is not judged, or is
within the tolerance before the bins and away from MRK, nothing else happens, and where it is judged and fails it is
a path fault LENGTH, at REG a purge mark. One that would end a FROZEN sheet's occupancy is a path fault UNEXPECTED
naming the sheet. -/
def Obligations.TrailingEdges : Prop :=
  (∀ (c : Checkpoint) (k : Installed) (x : Sheet) (o : Occupancy) (s : State), s.config = some k →
      s.transport.sensors.get c = true → s.track.tracking.get c.sec = true →
      s.occupant c = some (x, o) → x.state ≠ .frozen →
      let len := posLength (s.transport.count.get c.sec) o.lead
      let media := (k.block.trays.get x.tray).media
      let fits := ((len : Int) - (media : Int)).natAbs ≤ k.block.lengthTol
      let judged := (c = .fus ∨ c = .inv ∨ c = .rtn ∨ c = .mrk ∨ (c = .mrg ∧ x.pass2 = true))
        ∧ x.purge ≠ some .multifeed ∧ x.purge ≠ some .shortSheet
      let ended : State := { s with
        out := []
        transport := { s.transport with
          sensors := s.transport.sensors.set c false
          compares := s.transport.compares.filter fun q => q.owner != .stuck x.id c }
        track := { s.track with
          sheets := s.track.sheets.map fun y =>
            if y.id = x.id then { y with occ := y.occ.filter (·.at_ ≠ c) } else y } }
      (c ≠ .reg → c ≠ .mrk → c.dest? = none → ¬judged ∨ fits →
        exec (.trailingEdge c) s = .next ended.finish)
      ∧ (judged → ¬fits →
        exec (.trailingEdge c) s = .next
          ((ended.haltSections ((perSection false).set c.sec true)).report
            ⟨.length, .checkpoint c, some x.order, s.transport.count⟩).finish)
      ∧ (c = .reg → fits → exec (.trailingEdge c) s = .next ended.finish)
      ∧ (c = .reg → ¬fits → media < len →
        exec (.trailingEdge c) s = .next (ended.giveMark x.id .multifeed).finish)
      ∧ (c = .reg → ¬fits → len < media →
        exec (.trailingEdge c) s = .next (ended.giveMark x.id .shortSheet).finish))
  ∧ (∀ (c : Checkpoint) (k : Installed) (x : Sheet) (o : Occupancy) (s : State), s.config = some k →
      s.transport.sensors.get c = true → s.track.tracking.get c.sec = true →
      s.occupant c = some (x, o) → x.state = .frozen →
      exec (.trailingEdge c) s = .next
        ((State.haltSections ((perSection false).set c.sec true)
          { s with out := [], transport := { s.transport with sensors := s.transport.sensors.set c false } }).report
          ⟨.unexpected, .checkpoint c, some x.order, s.transport.count⟩).finish)

/-- A result of the mark reader goes to the sheet that occupies MRK when its mark result is empty, in every state of
the controller and of DOWN, and otherwise leaves no trace; the expected mark and the masked compare of a mark value
against it. -/
def Obligations.MarkResultsAndCompare : Prop :=
  (∀ (v : Word) (s : State),
      let given (x : Sheet) (r : MarkResult) : State := { s with
        out := []
        track := { s.track with
          sheets := s.track.sheets.map fun y => if y.id = x.id then { y with mark := r } else y } }
      (∀ x o, s.occupant .mrk = some (x, o) → x.mark = .empty →
        exec (.markValue v) s = .next (given x (.value v)) ∧ exec .markNoRead s = .next (given x .noRead))
      ∧ ((∀ x o, s.occupant .mrk = some (x, o) → x.mark ≠ .empty) →
        exec (.markValue v) s = .next { s with out := [] } ∧ exec .markNoRead s = .next { s with out := [] }))
  ∧ (∀ (m : Mailpiece) (x : Sheet) (v : Word),
      (State.expectedMark m x).toNat = (m.markBase.toNat + x.index) % 4294967296
      ∧ (State.markMatches m x v = true ↔
          ∀ i, i < 32 → m.markMask.getLsbD i = true → v.getLsbD i = (State.expectedMark m x).getLsbD i)
      ∧ (m.markMask = 0xFFFFFFFF → (State.markMatches m x v = true ↔ v = State.expectedMark m x)))

/-- A trailing edge at MRK whose length passes or is not judged commits the sheet: the destination by the first row
of the table that applies, the record, the bin diverter and the committed-to-bin count. The sheet stays in its
provisional queue when the destinations agree, and otherwise leaves it, its late compare withdrawn, and enters the
committed queue from the same MRK anchor; a sheet in no queue stays in none (the model's choice, log entry 21). Then
the Mailpiece Unit is told: a sheet for an output bin counts as committed, and a mark failure brings the mailpiece
into PURGING with that failure as its reason, if it was FILLING or LAUNCHED. -/
def Obligations.MrkTrailingEdgeCommits : Prop :=
  (∀ (k : Installed) (x : Sheet) (m : Mailpiece) (b : Bin) (o : Occupancy) (s : State), s.config = some k →
    s.transport.sensors.get .mrk = true → s.track.tracking.down = true →
    s.occupant .mrk = some (x, o) → x.state ≠ .frozen →
    s.mail.table.filter (·.id = x.mp) = [m] → m.bin = some b → s.track.sheets.filter (·.id = x.id) = [x] →
    (x.purge = some .multifeed ∨ x.purge = some .shortSheet
      ∨ ((posLength s.transport.count.down o.lead : Int)
          - ((k.block.trays.get x.tray).media : Int)).natAbs ≤ k.block.lengthTol) →
    let checked := (k.block.trays.get x.tray).markCheck = true ∧ m.markMask ≠ 0
    let outcome (d : Dest) (p : Option Reason) (failed : Option Reason) : Prop :=
      ∃ u : State, exec (.trailingEdge .mrk) s = .next u.finish
        ∧ u.exit.diverter = d
        ∧ (∃ y ∈ u.track.sheets, y.id = x.id ∧ y.dest = some d ∧ y.committed = true ∧ y.purge = p)
        ∧ (failed = none → u.mail.table = s.mail.table.map fun r =>
            if r.id = x.mp ∧ d ≠ .prg then { r with committed := r.committed + 1 } else r)
        ∧ (∀ why r, failed = some why → r ∈ u.mail.table → r.id = x.mp → r.state ≠ .filling ∧ r.state ≠ .launched)
        ∧ u.mail.purgeCount = s.mail.purgeCount ∧ u.retire = s.retire ∧ u.clock = s.clock
        ∧ u.jam = s.jam ∧ u.mem = s.mem ∧ u.ctl = s.ctl ∧ u.config = s.config ∧ u.out = []
    (∀ why, x.purge = some why → outcome .prg (some why) none)
    ∧ (x.purge = none → checked → x.mark = .empty ∨ x.mark = .noRead →
        outcome .prg (some .markMissing) (some .markMissing))
    ∧ (∀ v, x.purge = none → checked → x.mark = .value v → State.markMatches m x v = false →
        outcome .prg (some .markMismatch) (some .markMismatch))
    ∧ (∀ v, x.purge = none → checked → x.mark = .value v → State.markMatches m x v = true →
        outcome (.stk b) none none)
    ∧ (x.purge = none → ¬checked → outcome (.stk b) none none))
  ∧ (∀ (k : Installed) (x : Sheet) (m : Mailpiece) (b : Bin) (o : Occupancy) (s : State), s.config = some k →
    s.transport.sensors.get .mrk = true → s.track.tracking.down = true →
    s.occupant .mrk = some (x, o) → x.state ≠ .frozen →
    s.mail.table.filter (·.id = x.mp) = [m] → m.bin = some b →
    (x.purge = some .multifeed ∨ x.purge = some .shortSheet
      ∨ ((posLength s.transport.count.down o.lead : Int)
          - ((k.block.trays.get x.tray).media : Int)).natAbs ≤ k.block.lengthTol) →
    let checked := (k.block.trays.get x.tray).markCheck = true ∧ m.markMask ≠ 0
    let segment : Dest → Nat
      | .stk b => k.block.mrkToStk.get b
      | .prg => k.block.mrkToPrg
    let recorded (d : Dest) (failed : Option Reason) : State := { s with
      out := []
      transport := { s.transport with
        sensors := s.transport.sensors.set .mrk false
        compares := s.transport.compares.filter fun q => q.owner != .stuck x.id .mrk }
      track := { s.track with sheets := s.track.sheets.map fun y =>
        if y.id = x.id then
          { y with
            occ := y.occ.filter (·.at_ ≠ .mrk), dest := some d, committed := true
            purge := failed.elim y.purge some }
        else y }
      exit := { s.exit with diverter := d } }
    let moved (d : Dest) (failed : Option Reason) (c : Checkpoint) : State :=
      let r := recorded d failed
      State.enterQueue k x.id d.checkpoint o.lead (segment d) { r with
        transport := { r.transport with compares := r.transport.compares.filter fun q => q.owner != .late x.id }
        track := { r.track with
          queues := s.track.queues.set c ((s.track.queues.get c).filter (· ≠ x.id)) } }
    let told (d : Dest) (failed : Option Reason) (w : State) : Prop :=
      ∃ u : State, exec (.trailingEdge .mrk) s = .next u.finish
        ∧ (failed = none → u = { w with mail := { w.mail with table := w.mail.table.map fun r =>
            if r.id = x.mp ∧ d ≠ .prg then { r with committed := r.committed + 1 } else r } })
        ∧ (∀ why, failed = some why → u = w.enterPurging x.mp why
          ∧ u.mail.table.map (fun r => (r.id, r.state, r.reason)) = s.mail.table.map fun r =>
              if r.id = x.mp ∧ (m.state = .filling ∨ m.state = .launched) then (r.id, .purging, some why)
              else (r.id, r.state, r.reason))
    let commits (d : Dest) (failed : Option Reason) : Prop :=
      (x.next = some d.checkpoint ∨ x.next = none → told d failed (recorded d failed))
      ∧ (∀ c, x.next = some c → c ≠ d.checkpoint → told d failed (moved d failed c))
    (x.purge ≠ none → commits .prg none)
    ∧ (x.purge = none → checked → x.mark = .empty ∨ x.mark = .noRead → commits .prg (some .markMissing))
    ∧ (∀ v, x.purge = none → checked → x.mark = .value v → State.markMatches m x v = false →
        commits .prg (some .markMismatch))
    ∧ (∀ v, x.purge = none → checked → x.mark = .value v → State.markMatches m x v = true →
        commits (.stk b) none)
    ∧ (x.purge = none → ¬checked → commits (.stk b) none))

/-- The trailing edge of a bin entry settles the sheet: STACKED in an output bin, PURGED in the purge bin. Its
record is freed, its order gets its draft, and the counters, the bin counts and the purge count with purge full are
brought up to date before what follows a settlement is considered. The order's outermost CALL counts it in its
summary. -/
def Obligations.BinTrailingEdgeSettles : Prop :=
  (∀ (d : Dest) (k : Installed) (x : Sheet) (o : Occupancy) (s : State), s.config = some k →
    s.transport.sensors.get d.checkpoint = true → s.track.tracking.down = true →
    s.occupant d.checkpoint = some (x, o) → x.state ≠ .frozen →
    let draft : Draft := if d = .prg then ⟨.purged, x.purge⟩ else ⟨.stacked, none⟩
    ∃ u : State, exec (.trailingEdge d.checkpoint) s = .next (u.afterSettlement s.mail.purgeFull).finish
      ∧ u.track.sheets = s.track.sheets.filter (·.id ≠ x.id)
      ∧ u.fetch.window.map (fun e => (e.id, e.state, e.draft))
        = s.fetch.window.map (fun e =>
            if e.id = x.order then (e.id, EntryState.settled, some draft) else (e.id, e.state, e.draft))
      ∧ (∀ b, d = .stk b →
          u.retire = { s.retire with stacked := s.retire.stacked + 1 }
          ∧ u.mail = { s.mail with
              bins := s.mail.bins.set b
                ⟨(s.mail.bins.get b).stacked + 1, (s.mail.bins.get b).reserved - 1⟩
              table := s.mail.table.map fun r =>
                if r.id = x.mp then { r with stacked := r.stacked + 1 } else r }
          ∧ u.ctl = s.ctl)
      ∧ (d = .prg →
          u.retire = { s.retire with purged := s.retire.purged + 1 }
          ∧ u.mail = { s.mail with
              purgeCount := u.mail.purgeCount, purgeFull := u.mail.purgeFull
              table := s.mail.table.map fun r =>
                if r.id = x.mp then { r with purged := r.purged + 1 } else r }
          ∧ (s.mail.purgeCount.toNat < 4294967295 → u.mail.purgeCount = s.mail.purgeCount + 1)
          ∧ u.mail.purgeFull = decide (k.block.purgeCapacity ≤ u.mail.purgeCount.toNat)
          ∧ u.ctl = { s.ctl with attn :=
              if u.mail.purgeFull = true ∧ s.mail.purgeFull = false then s.ctl.attn ||| 0x100
              else s.ctl.attn })
      ∧ u.clock = s.clock ∧ u.exit = s.exit ∧ u.jam = s.jam ∧ u.mem = s.mem ∧ u.launch = s.launch
      ∧ u.config = s.config ∧ u.out = [])
  ∧ (∀ (d : Dest) (k : Installed) (x : Sheet) (o : Occupancy) (s : State), s.config = some k →
    s.transport.sensors.get d.checkpoint = true → s.track.tracking.down = true →
    s.occupant d.checkpoint = some (x, o) → x.state ≠ .frozen →
    let draft : Draft := if d = .prg then ⟨.purged, x.purge⟩ else ⟨.stacked, none⟩
    let outermost : Option Nat := (s.findEntry x.order).bind (·.caller)
    let counted (a : Summary) : Summary :=
      if d = .prg then { a with purged := a.purged + 1 } else { a with stacked := a.stacked + 1 }
    ∃ u : State, exec (.trailingEdge d.checkpoint) s = .next (u.afterSettlement s.mail.purgeFull).finish
      ∧ u.fetch = { s.fetch with window := s.fetch.window.map fun e =>
          { e with
            state := if e.id = x.order then .settled else e.state
            draft := if e.id = x.order then some draft else e.draft
            summary := if outermost = some e.id then counted e.summary else e.summary } })

/-- A sample in RUN-UP: the third consecutive all-in-band sample brings AT-SPEED, cancels the run-up timer, starts
the Pitch Clock at the UP count and hands over the boundary of pitch 0; any other sample updates the counts. -/
def Obligations.SampleInRunUp : Prop :=
  ∀ (k : Installed) (s : State), s.config = some k → s.transport.state = .runUp →
    let speed (x : Section) : Nat := posLength (s.transport.count.get x) (s.transport.ref.get x)
    let inBand (x : Section) : Prop := k.block.floor ≤ speed x ∧ speed x ≠ 0
      ∧ k.block.nominal - k.block.band ≤ speed x ∧ speed x ≤ k.block.nominal + k.block.band
    let low (x : Section) : Prop := speed x < k.block.floor ∨ speed x = 0
    let all := inBand .up ∧ inBand .loop ∧ inBand .down
    let next (n : Nat) : Transport := { s.transport with
      ref := s.transport.count, allInBand := n, samplePeriod := some k.block.samplePeriod
      below := .of fun x => if low x then min 2 (s.transport.below.get x + 1) else 0 }
    (all → s.transport.allInBand + 1 ≠ 3 → exec .sample s = .next
      (State.finish { s with out := [], transport := next (s.transport.allInBand + 1) }))
    ∧ (¬all → exec .sample s = .next (State.finish { s with out := [], transport := next 0 }))
    ∧ (all → s.transport.allInBand = 2 → exec .sample s = .next
      (State.launchDecision (State.registerCompare .boundary .up
        (s.transport.count.up + BitVec.ofNat 24 k.block.pitchLength)
        { s with
          out := []
          transport := { next 3 with state := .atSpeed, runUpTimer := none }
          clock := { s.clock with
            running := true, pitch := 0, boundary := s.transport.count.up, lastFinal := none } })).finish)

/-- A sample AT-SPEED judges the running sections alone: the speed deviation indication with ATTN SPEED when it
comes to be set, and a STALL for each running section whose below-floor count becomes 2, in the order UP, LOOP, DOWN
(the order is the model's choice, log entry 13). -/
def Obligations.SampleAtSpeed : Prop :=
  ∀ (k : Installed) (s : State), s.config = some k → s.transport.state = .atSpeed →
    let speed (x : Section) : Nat := posLength (s.transport.count.get x) (s.transport.ref.get x)
    let low (x : Section) : Prop := speed x < k.block.floor ∨ speed x = 0
    let off (x : Section) : Prop := s.transport.run.get x = true ∧ (low x
      ∨ speed x < k.block.nominal - k.block.band ∨ k.block.nominal + k.block.band < speed x)
    let stalled (x : Section) : Bool :=
      s.transport.run.get x && s.transport.below.get x != 0 && s.transport.below.get x != 2
        && decide (low x)
    let deviates := off .up ∨ off .loop ∨ off .down
    let sampled : State := { s with
      out := []
      transport := { s.transport with
        ref := s.transport.count, samplePeriod := some k.block.samplePeriod
        below := .of fun x => if low x then min 2 (s.transport.below.get x + 1) else 0
        speedDeviation := decide deviates }
      ctl := { s.ctl with attn :=
        if deviates ∧ s.transport.speedDeviation = false then s.ctl.attn ||| 0x400 else s.ctl.attn } }
    exec .sample s = .next
      (([Section.up, .loop, .down].filter stalled).foldl
        (fun s x => s.report ⟨.stall, .sec x, none, s.transport.count⟩) sampled).finish

/-- A sample in RUN-OUT: when every below-floor count stands at 2 the transport enters STOPPED, and a held run-up
starts at once; otherwise it stays in RUN-OUT. The run-up timer expires in RUN-UP: every run output negated,
RUN-OUT, and the report RUNUP_TIMEOUT; with no run-up timer running there is no expiry, and in STOPPED, or before a
configuration is installed, no sample is taken (log entry 3). -/
def Obligations.SampleInRunOutAndTimers : Prop :=
  (∀ (k : Installed) (s : State), s.config = some k → s.transport.state = .runOut →
    let speed (x : Section) : Nat := posLength (s.transport.count.get x) (s.transport.ref.get x)
    let below : PerSection Nat := .of fun x =>
      if speed x < k.block.floor ∨ speed x = 0 then min 2 (s.transport.below.get x + 1) else 0
    let sampled : State := { s with
      out := []
      transport := { s.transport with
        ref := s.transport.count, below := below, samplePeriod := some k.block.samplePeriod } }
    (below ≠ perSection 2 → exec .sample s = .next sampled.finish)
    ∧ (below = perSection 2 → s.transport.heldRunUp = false → exec .sample s = .next (State.finish
        { sampled with transport := { sampled.transport with state := .stopped, samplePeriod := none } }))
    ∧ (below = perSection 2 → s.transport.heldRunUp = true → exec .sample s = .next
        (State.startRunUp { sampled with
          transport := { sampled.transport with state := .stopped, samplePeriod := none } }).finish))
  ∧ ((∀ s : State,
      (s.transport.state = .runUp → s.transport.runUpTimer.isSome = true →
        exec .runupTimeout s = .next (State.report
          ⟨.runupTimeout, .nowhere, none, s.transport.count⟩
          { s with
            out := []
            transport := { s.transport with
              run := perSection false, runUpTimer := none, state := .runOut } }).finish)
      ∧ (¬(s.transport.state = .runUp ∧ s.transport.runUpTimer.isSome = true) →
        exec .runupTimeout s = .next (State.finish { s with out := [] })))
  ∧ (∀ s : State, s.transport.state = .stopped ∨ s.config = none →
      exec .sample s = .next (State.finish { s with out := [] })))

/-- A pitch boundary: the pitch number advances, the boundary moves on by P, the next compare is registered P
further, and the boundary is handed to the Launch Scheduler; a boundary compare not reached gives none (log entry
3). A pick whose position has been reached: the pulse to its tray, the sheet IN_PATH and in the queue of its feeder
exit, expected from the UP count of the compare event, and the feed schedule entry removed. A late or stuck deadline
that has been reached: its compare ceases to exist, the section of the checkpoint halts, and LATE or STUCK is
reported there with the counts the compare event carried; a deadline not reached gives no event (log entry 3). Of
several reached compares the first registered is taken (the model's choice, log entry 7). -/
def Obligations.ReachedComparesTaken : Prop :=
  (∀ (q : Compare) (latch : PerSection Pos) (k : Installed) (s : State), s.config = some k →
    (s.transport.compares.find? (fun c => c.event.isSome && c.owner == .boundary) = some q →
      q.event = some latch →
      exec .pitchBoundary s = .next
        (State.launchDecision (State.registerCompare .boundary .up
          (s.clock.boundary + BitVec.ofNat 24 k.block.pitchLength + BitVec.ofNat 24 k.block.pitchLength)
          { s with
            out := []
            transport := { s.transport with
              compares := s.transport.compares.filter fun c => c.owner != .boundary }
            clock := { s.clock with
              pitch := s.clock.pitch + 1
              boundary := s.clock.boundary + BitVec.ofNat 24 k.block.pitchLength } })).finish)
    ∧ ((∀ c ∈ s.transport.compares, c.owner = .boundary → c.event = none) →
      exec .pitchBoundary s = .next (State.finish { s with out := [] })))
  ∧ (∀ (q : Compare) (p : Pick) (latch : PerSection Pos) (x : Sheet) (k : Installed) (s : State),
    s.config = some k →
    s.transport.compares.find? (fun c => c.event.isSome && State.isPick c.owner) = some q →
    q.owner = .pick p.track → q.event = some latch →
    s.launch.schedule.find? (·.track == p.track) = some p →
    s.track.sheets.filter (·.id = p.track) = [x] →
    let expected := posAdd latch.up (k.block.trays.get p.tray).pickToFd
    ∃ u : State, exec .pick s = .next u.finish
      ∧ u.out = [.pickPulse p.tray]
      ∧ u.launch = { s.launch with schedule := s.launch.schedule.filter (·.track ≠ p.track) }
      ∧ u.track.sheets = s.track.sheets.map (fun y =>
          if y.id = p.track then
            { x with
              state := .inPath, next := some (.fd p.tray)
              due := some
                { expected := expected, early := posSub expected k.block.earlyTol.up
                  late := posAdd expected k.block.lateTol.up } }
          else y)
      ∧ u.track.queues = s.track.queues.set (.fd p.tray) (s.track.queues.get (.fd p.tray) ++ [p.track])
      ∧ u = { s with
          out := u.out, launch := u.launch
          transport := { s.transport with compares := u.transport.compares }
          track := { s.track with sheets := u.track.sheets, queues := u.track.queues } })
  ∧ (∀ (c : Checkpoint) (q : Compare) (latch : PerSection Pos) (x : Sheet) (s : State),
    q.event = some latch →
    let taken : State := { s with
      out := [], transport := { s.transport with
        compares := s.transport.compares.filter fun a => a.owner != q.owner } }
    let halted : State := taken.haltSections ((perSection false).set c.sec true)
    (s.transport.compares.find? (fun a => a.event.isSome && s.isLateAt c a.owner) = some q →
      q.owner = .late x.id → s.findSheet x.id = some x → x.next = some c →
      exec (.lateDeadline c) s = .next (halted.report ⟨.late, .checkpoint c, some x.order, latch⟩).finish)
    ∧ (s.transport.compares.find? (fun a => a.event.isSome && State.isStuckAt c a.owner) = some q →
      q.owner = .stuck x.id c → s.findSheet x.id = some x →
      exec (.stuckDeadline c) s = .next (halted.report ⟨.stuck, .checkpoint c, some x.order, latch⟩).finish)
    ∧ ((∀ a ∈ s.transport.compares, s.isLateAt c a.owner = true → a.event = none) →
      exec (.lateDeadline c) s = .next (State.finish { s with out := [] }))
    ∧ ((∀ a ∈ s.transport.compares, State.isStuckAt c a.owner = true → a.event = none) →
      exec (.stuckDeadline c) s = .next (State.finish { s with out := [] })))

/-- An answer of the imaging unit is taken against the oldest entry of the transfer FIFO, which leaves it: a live
one's sheet becomes DONE, or FAULTED with the mark TRANSFER_FAULT; an abandoned one's answer is discarded, and with
an empty FIFO it is ignored. An unload event on an output bin sets its stacked count to 0 and leaves its reserved
count; one on PRG sets the purge count to 0; a tray becoming empty changes its held level alone, and a refill event
changes it; each in every state, with a wake evaluation asked for in STANDBY by an unload and a refill. -/
def Obligations.AnswersAndOperatorInputs : Prop :=
  (∀ (f : Transfer) (rest : List Transfer) (s : State),
    let popped (t : TransferState) : State := { s with
      out := []
      track := { s.track with
        fifo := rest
        sheets := if f.live then
            s.track.sheets.map fun y => if y.id = f.track then { y with transfer := t } else y
          else s.track.sheets } }
    (s.track.fifo = f :: rest →
      exec .transferDone s = .next (popped .done)
      ∧ (f.live = true → exec .transferFault s
          = .next ((popped .faulted).giveMark f.track .transferFault).finish)
      ∧ (f.live = false → exec .transferFault s = .next (popped .faulted).finish))
    ∧ (s.track.fifo = [] → exec .transferDone s = .next { s with out := [] }
      ∧ exec .transferFault s = .next (State.finish { s with out := [] })))
  ∧ ((∀ (b : Bin) (s : State),
      let asked : Launch := { s.launch with wakeAsked := s.launch.wakeAsked || s.ctl.state == .standby }
      exec (.unloadEvent (.stk b)) s = .next (State.finish
        { s with
          out := []
          mail := { s.mail with bins := s.mail.bins.set b ⟨0, (s.mail.bins.get b).reserved⟩ }
          launch := asked })
      ∧ exec (.unloadEvent .prg) s = .next (State.finish
        { s with out := [], mail := { s.mail with purgeCount := 0, purgeFull := false }, launch := asked }))
  ∧ (∀ (t : Tray) (s : State),
      exec (.trayEmptyInput t) s = .next
        { s with out := [], launch := { s.launch with trays := s.launch.trays.set t true } }
      ∧ (s.launch.trays.get t = true → exec (.refillEvent t) s = .next (State.finish
          { s with
            out := []
            launch := { s.launch with
              trays := s.launch.trays.set t false
              wakeAsked := s.launch.wakeAsked || s.ctl.state == .standby } }))))

/-! ## Launching, mailpieces and retirement -/

/-- A boundary that is not one of a FEED slot in RUNNING decides nothing. Without a candidate the pitch is skipped.
With a candidate that passes the seven checks, its mailpiece having a bin, the sheet is launched. -/
def Obligations.LaunchDecisionAtABoundary : Prop :=
  ∀ (k : Installed) (s : State), s.config = some k →
    let p : Word := s.clock.pitch + BitVec.ofNat 32 k.qty.lmax
    (¬(k.block.slotOfPitch p = some .feed ∧ s.ctl.state = .running) → s.launchDecision = s)
    ∧ (k.block.slotOfPitch p = some .feed → s.ctl.state = .running → s.candidateEntry = none →
        ∃ t : State, t = s.launchDecision ∧ t.retire.skipped = s.retire.skipped + 1
          ∧ t.launch.schedule = s.launch.schedule ∧ t.track.sheets.length = s.track.sheets.length
          ∧ (s.mail.waitingOpen ≠ none → t.ctl.lastSkip = some .pathFull)
          ∧ (s.mail.waitingOpen = none → ∀ src, s.fetch.pos = .chainFault src →
              t.ctl.lastSkip = some .chainFault)
          ∧ (s.mail.waitingOpen = none → (∀ src, s.fetch.pos ≠ .chainFault src) →
              t.ctl.lastSkip = if s.front = none ∧ s.fetch.window.length = 64 then some .windowFull
                else some .starved)
          ∧ t.launch.emptyCount = min s.runOutLimit (s.launch.emptyCount + 1))
    ∧ (∀ e m b tray, k.block.slotOfPitch p = some .feed → s.ctl.state = .running →
        s.candidateEntry = some e → s.currentMp = some m → m.bin = some b →
        trayOf e.words.w4 = some tray → (k.block.trays.get tray).enabled = true →
        s.launch.trays.get tray = false →
        e.words.ready.getLsbD 0 = true →
        (k.block.duplexGate = true → side2Of e.words ≠ none → e.words.ready.getLsbD 1 = true) →
        let loop := modeOf e.words.w5 = .loop
        let final : Word := if loop then p + BitVec.ofNat 32 k.qty.loopDelay else p
        let pos := posSub (posAdd s.clock.boundary (k.qty.lmax % 4294967296 * k.block.pitchLength))
          ((k.block.trays.get tray).pickToFd + (k.block.trays.get tray).fdToMrg)
        s.track.sheets.length < 24 → s.launch.schedule.length < 6 →
        (∀ l, s.launch.schedule.getLast? = some l → 0 ≤ posDiff pos l.pos) →
        (loop → k.block.slotOfPitch final = some .ret
          ∧ ∀ h ∈ s.clock.ring, h.pitch.toNat % 64 ≠ final.toNat % 64) →
        (∀ last, s.clock.lastFinal = some last → pitchGreater final last = true) →
        let x : Sheet :=
          { id := s.track.nextId, order := e.id, mp := m.id, tray := tray, mode := modeOf e.words.w5
            side2 := side2Of e.words, pass2 := false, index := m.launched, mergePitch := p
            finalPitch := final, last := none, next := none, due := none, occ := [], dest := none
            committed := false, purge := none, transfer := .none, side2Check := .notDue
            mark := .empty, state := .pickPending }
        s.launchDecision = State.registerCompare (.pick x.id) .up pos
          { s with
            track := { s.track with sheets := s.track.sheets ++ [x], nextId := s.track.nextId + 1 }
            clock := { s.clock with
              ring := if loop then s.clock.ring ++ [⟨x.id, final⟩] else s.clock.ring
              lastFinal := some final }
            launch := { s.launch with
              schedule := s.launch.schedule ++ [⟨x.id, tray, pos⟩], candidate := none, emptyCount := 0
              starvedArm := true, trayArm := true }
            mail := { s.mail with
              binWaitArm := true
              table := s.mail.table.map fun y =>
                if y.id = m.id then
                  { y with
                    launched := y.launched + 1, taken := y.taken + 1
                    closed := y.closed || decide (y.sheetCount ≤ y.taken + 1)
                    state := if y.sheetCount ≤ y.taken + 1 then .launched else y.state }
                else y }
            fetch := { s.fetch with
              window := s.fetch.window.map fun y =>
                if y.id = e.id then { y with state := .launched } else y }
            retire := { s.retire with launched := s.retire.launched + 1 } })

/-- A candidate at a FEED boundary in RUNNING: with no bin, the first bin of its mask that is enabled and has room
for the whole mailpiece is written into the record and its sheet count reserved, and with none the skip is BIN_WAIT;
then the first check that fails gives TRAY_EMPTY, IMAGE_WAIT, PATH_FULL, NO_RETURN_SLOT or ORDER_HOLD. A skip gives
its reason, counts, holds the empty-pitch count at the run-out limit and considers STANDBY; STARVED asks for the
tail re-read at a chain end, IMAGE_WAIT for the candidate's ready word when no such read is outstanding; STARVED,
TRAY_EMPTY and BIN_WAIT set their attention flag when armed and disarm it; WINDOW_FULL closes the mailpiece whose
OPEN is the head entry. -/
def Obligations.FailedChecksAndSkips : Prop :=
  (∀ (k : Installed) (e : Entry) (m : Mailpiece) (s : State), s.config = some k →
    let p : Word := s.clock.pitch + BitVec.ofNat 32 k.qty.lmax
    k.block.slotOfPitch p = some .feed → s.ctl.state = .running → s.candidateEntry = some e →
    s.currentMp = some m →
    let fits (b : Bin) : Prop := m.binMask.get b = true ∧ (k.block.bins.get b).enabled = true
      ∧ m.sheetCount + (s.mail.bins.get b).stacked + (s.mail.bins.get b).reserved
        ≤ (k.block.bins.get b).capacity
    let reserved (b : Bin) : State := { s with mail := { s.mail with
      table := s.mail.table.map fun r => if r.id = m.id then { r with bin := some b } else r
      bins := s.mail.bins.set b
        { s.mail.bins.get b with reserved := (s.mail.bins.get b).reserved + m.sheetCount } } }
    (m.bin = none → (∀ b, ¬fits b) → s.launchDecision = s.skip .binWait)
    ∧ (∀ b, m.bin = none → fits b → (∀ b', Bin.order.idxOf b' < Bin.order.idxOf b → ¬fits b') →
        s.launchDecision = (reserved b).launchDecision)
    ∧ (m.bin ≠ none → (∀ t, trayOf e.words.w4 = some t →
          (k.block.trays.get t).enabled = false ∨ s.launch.trays.get t = true) →
        s.launchDecision = s.skip .trayEmpty)
    ∧ (∀ t, m.bin ≠ none → trayOf e.words.w4 = some t → (k.block.trays.get t).enabled = true →
        s.launch.trays.get t = false →
        let imagesReady := e.words.ready.getLsbD 0 = true
          ∧ (k.block.duplexGate = true → side2Of e.words ≠ none → e.words.ready.getLsbD 1 = true)
        let final : Word := if modeOf e.words.w5 = .loop then p + BitVec.ofNat 32 k.qty.loopDelay else p
        let pos := posSub (posAdd s.clock.boundary (k.qty.lmax % 4294967296 * k.block.pitchLength))
          ((k.block.trays.get t).pickToFd + (k.block.trays.get t).fdToMrg)
        let room := s.track.sheets.length < 24 ∧ s.launch.schedule.length < 6
          ∧ ∀ l, s.launch.schedule.getLast? = some l → 0 ≤ posDiff pos l.pos
        let returnFree := modeOf e.words.w5 = .loop → k.block.slotOfPitch final = some .ret
          ∧ ∀ h ∈ s.clock.ring, h.pitch.toNat % 64 ≠ final.toNat % 64
        (¬imagesReady → s.launchDecision = s.skip .imageWait)
        ∧ (imagesReady → ¬room → s.launchDecision = s.skip .pathFull)
        ∧ (imagesReady → room → ¬returnFree → s.launchDecision = s.skip .noReturnSlot)
        ∧ (∀ last, imagesReady → room → returnFree → s.clock.lastFinal = some last →
            pitchGreater final last = false → s.launchDecision = s.skip .orderHold)))
  ∧ (∀ (r : SkipReason) (s : State), s.ctl.state = .running →
    let count := min s.runOutLimit (s.launch.emptyCount + 1)
    let counted : State := { s with
      ctl := { s.ctl with lastSkip := some r }
      retire := { s.retire with skipped := s.retire.skipped + 1 }
      launch := { s.launch with emptyCount := count } }
    let base : State :=
      if count = s.runOutLimit ∧ s.track.sheets = [] then counted.enterStandby else counted
    let flagged (armed : Bool) (f : AttnFlag) : FlagBits :=
      if armed then base.ctl.attn ||| BitVec.ofNat 11 (2 ^ f.bit) else base.ctl.attn
    (r = .pathFull ∨ r = .chainFault ∨ r = .noReturnSlot ∨ r = .orderHold → s.skip r = base)
    ∧ (r = .starved → s.skip r = { base with
        fetch := { s.fetch with rereadAsked :=
          match s.fetch.pos with
          | .chainEnd _ => true
          | _ => s.fetch.rereadAsked }
        launch := { base.launch with starvedArm := false }
        ctl := { base.ctl with attn := flagged s.launch.starvedArm .starved } })
    ∧ (r = .trayEmpty → s.skip r = { base with
        launch := { base.launch with trayArm := false }
        ctl := { base.ctl with attn := flagged s.launch.trayArm .trayEmpty } })
    ∧ (r = .binWait → s.skip r = { base with
        mail := { base.mail with binWaitArm := false }
        ctl := { base.ctl with attn := flagged s.mail.binWaitArm .binWait } })
    ∧ (∀ e, r = .imageWait → s.candidateEntry = some e →
        s.skip r = if s.launch.candRead = none then
            { base with
              launch := { base.launch with candRead := some e.id }
              mem := { s.mem with waiting := s.mem.waiting ++ [⟨.candidateReady, [e.addr + 12]⟩] } }
          else base)
    ∧ (r = .windowFull → s.skip r =
        match s.currentMp, s.fetch.window with
        | some m, h :: _ => if m.openRef = h.id then base.closeShort m else base
        | _, _ => base))

/-- The work at the end of an event, in its order, which is the model's choice (log entry 10), and that its loop
leaves no order to be taken. The front is taken in RUNNING and STANDBY alone, and an order taken in STANDBY asks for
a wake evaluation. A candidate stays, a waiting OPEN is accepted when a record is free, an entry with a draft keeps
it, and one not allowed, a HEAD, a RETURN and a NOP are passed. A CALL is passed, and SKIPPED in a PURGING
mailpiece; a PAUSE is recorded and brings RUNNING to DRAINING and STANDBY to HALTED; an OPEN closes the current
mailpiece short before it is taken. A SHEET is refused NO_MAILPIECE without a mailpiece, skipped and counted in a
PURGING one, refused BAD_TRAY or NO_LOOP with the mailpiece PURGING and the SHEET counted, and otherwise becomes the
candidate. The books of an event: CALLs settle, every mailpiece that may settles, the Retire Unit moves until it has
no move left, and the stop record begins when it is due. A waiting OPEN is accepted with a FILLING record of its
fields. -/
def Obligations.OrdersTakenAtTheFront : Prop :=
  ((∀ s : State, s.finish =
      ((((s.takeAtOnce 24).settleBooks.frontLoop
        (2 * (s.takeAtOnce 24).settleBooks.fetch.window.length + 1)).evaluateWake).issueReads).grant
    ∧ (∀ n, s.frontLoop (n + 1) = match s.takeFront with
        | none => s
        | some t => t.settleBooks.frontLoop n)
    ∧ (s.frontLoop (2 * s.fetch.window.length + 1)).takeFront = none)
  ∧ (∀ s : State, ¬(s.ctl.state = .running ∨ s.ctl.state = .standby) ∨ s.front = none → s.takeFront = none)
  ∧ (∀ (e : Entry) (s : State), s.ctl.state = .running ∨ s.ctl.state = .standby → s.front = some e →
    let asked : State := { s with launch := { s.launch with
      wakeAsked := s.launch.wakeAsked || s.ctl.state == .standby } }
    let becomes (f : Entry → Entry) (s : State) : State := { s with fetch := { s.fetch with
      window := s.fetch.window.map fun y => if y.id = e.id then f y else y } }
    let passed (r : Result) (why : Option Reason) : State :=
      becomes (fun y => { y with state := .passed, draft := some ⟨r, why⟩ }) asked
    let counted (m : Mailpiece) (s : State) : State := { s with mail := { s.mail with
      table := s.mail.table.map fun y =>
        if y.id = m.id then
          { y with taken := y.taken + 1, closed := y.closed || decide (y.sheetCount ≤ y.taken + 1) }
        else y } }
    (s.launch.candidate = some e.id → s.takeFront = none)
    ∧ (s.launch.candidate ≠ some e.id → s.mail.waitingOpen = some e.id →
      (s.mail.table.length < 32 → s.takeFront = some (asked.acceptOpen e))
      ∧ (32 ≤ s.mail.table.length → s.takeFront = none))
    ∧ (s.launch.candidate ≠ some e.id → s.mail.waitingOpen ≠ some e.id →
      (e.draft ≠ none → s.takeFront = some (becomes (fun y => { y with state := .passed }) asked))
      ∧ (e.draft = none → e.notAllowed = true → s.takeFront = some (passed .passed none))
      ∧ (e.draft = none → e.notAllowed = false →
        (e.kind = .head ∨ e.kind = .ret ∨ e.kind = .nop → s.takeFront = some (passed .passed none))
        ∧ (e.kind = .call → s.takeFront = some (
            match s.currentMp with
            | some m => if m.state = .purging then passed .skipped (some .mailpiecePurging) else passed .passed none
            | none => passed .passed none))
        ∧ (e.kind = .pause →
          let recorded : State := { passed .passed none with ctl := { s.ctl with pauseRec := some e.id } }
          (s.ctl.state = .running → s.takeFront = some recorded.enterDraining)
          ∧ (s.ctl.state = .standby → s.takeFront = some (State.enterHalted recorded)))
        ∧ (e.kind = .mpOpen →
          (s.currentMp = none → s.takeFront = some (asked.takeOpen e))
          ∧ (∀ m, s.currentMp = some m →
            s.takeFront = some ((asked.closeShort m).takeOpen e)))
        ∧ (e.kind = .sheet → s.currentMp = none → s.takeFront = some (passed .refused (some .noMailpiece)))
        ∧ (∀ m, e.kind = .sheet → s.currentMp = some m → m.state = .purging →
            s.takeFront = some (counted m (passed .skipped (some .mailpiecePurging))))
        ∧ (∀ m k, e.kind = .sheet → s.currentMp = some m → m.state ≠ .purging → s.config = some k →
          let trayOk := ∃ t, trayOf e.words.w4 = some t ∧ (k.block.trays.get t).enabled = true
          let loopOk := modeOf e.words.w5 = .direct ∨ s.clock.loopUnusable = false
          let refused (why : Reason) : State :=
            let took : State := { passed .refused (some why) with mail := { s.mail with
              table := s.mail.table.map fun y => if y.id = m.id then { y with taken := y.taken + 1 } else y } }
            let purging : State := took.enterPurging m.id .shortMailpiece
            { purging with mail := { purging.mail with
              table := purging.mail.table.map fun y =>
                if y.id = m.id then { y with closed := y.closed || decide (y.sheetCount ≤ y.taken) } else y } }
          (¬trayOk → s.takeFront = some (refused .badTray))
          ∧ (trayOk → ¬loopOk → s.takeFront = some (refused .noLoop))
          ∧ (trayOk → loopOk → s.takeFront = some
              { asked with launch := { asked.launch with candidate := some e.id } }))))))
  ∧ ((∀ s : State, s.settleBooks = ((s.settleCalls.settleMailpieces false).retireAll).beginStopRecord
    ∧ s.settleMailpieces false = s.mail.table.foldl (State.settleMp false) s
    ∧ (s.fetch.window = [] → s.retireMove = none)
    ∧ (s.retireMove = none → s.retireAll = s)
    ∧ (∀ t, s.retireMove = some t → s.retireAll = t.retireAll)
    ∧ s.retireAll.retireMove = none)
  ∧ (∀ (e : Entry) (s : State), s.acceptOpen e = { s with
      mail := { s.mail with
        waitingOpen := none, nextId := s.mail.nextId + 1
        table := s.mail.table ++
          [{ id := s.mail.nextId, number := e.words.w4, sheetCount := e.words.w5.toNat
             binMask := binMaskOf e.words.w6, markBase := e.words.w7, markMask := e.words.w8
             openRef := e.id, bin := none, taken := 0, launched := 0, committed := 0, stacked := 0
             purged := 0, lost := 0, closed := false, interrupted := false, reason := none
             state := .filling }] }
      fetch := { s.fetch with
        window := s.fetch.window.map fun y => if y.id = e.id then { y with state := .passed } else y } }))

/-- STANDBY is entered in RUNNING with the empty-pitch count at the run-out limit and the track table empty: a
run-out order, DOWN HALTED, the state and ATTN STANDBY; that DOWN halts on the event of the entry is read from two
rules together (log entry 25). What follows a settlement, by the controller state: purge full newly holding brings
RUNNING to DRAINING, and to HALTED with no sheet left, before STANDBY is considered, which is the model's choice
(log entry 24); DRAINING with no sheet left ends in HALTED; STOPPING with no draining sheet left ends in JAMMED. A
wake evaluation asked for in STANDBY makes checks 1 to 4, reserving a bin at check 2, and wakes with RUNNING and a
run-up order when all pass. -/
def Obligations.StandbyEntryAndWake : Prop :=
  ((∀ s : State,
    (s.ctl.state = .running → s.launch.emptyCount = s.runOutLimit → s.track.sheets = [] →
      s.considerStandby = { State.haltSections ⟨false, false, true⟩ s.runOutOrder with
        ctl := { s.ctl with state := .standby, attn := s.ctl.attn ||| 8 } })
    ∧ (¬(s.ctl.state = .running ∧ s.launch.emptyCount = s.runOutLimit ∧ s.track.sheets = []) →
      s.considerStandby = s)
    ∧ s.considerStandby.track.sheets = s.track.sheets)
  ∧ (∀ (wasFull : Bool) (s : State),
    let a := s.settleMailpieces false
    let newlyFull := a.mail.purgeFull = true ∧ wasFull = false
    (a.ctl.state = .running → newlyFull → a.track.sheets ≠ [] →
      s.afterSettlement wasFull = { a with ctl := { a.ctl with state := .draining } })
    ∧ (a.ctl.state = .running → newlyFull → a.track.sheets = [] → s.afterSettlement wasFull = a.enterHalted)
    ∧ (a.ctl.state = .running → ¬newlyFull → s.afterSettlement wasFull = a.considerStandby)
    ∧ (a.ctl.state = .draining → s.afterSettlement wasFull =
        if a.track.sheets = [] then a.enterHalted else a)
    ∧ (a.ctl.state = .stopping → s.afterSettlement wasFull =
        if ∀ x ∈ a.track.sheets, x.state = .frozen then a.jammedEntry else a)
    ∧ (a.ctl.state ≠ .running → a.ctl.state ≠ .draining → a.ctl.state ≠ .stopping →
        s.afterSettlement wasFull = a))
  ∧ (∀ s : State,
    let done : State := { s with launch := { s.launch with wakeAsked := false } }
    (s.launch.wakeAsked = false → s.evaluateWake = s)
    ∧ (s.launch.wakeAsked = true → s.ctl.state ≠ .standby → s.evaluateWake = done)
    ∧ (s.launch.wakeAsked = true → s.ctl.state = .standby →
      (s.candidateEntry = none ∨ s.currentMp = none → s.evaluateWake = done)
      ∧ (∀ m e k, s.currentMp = some m → s.candidateEntry = some e → s.config = some k →
        let fits (b : Bin) : Prop := m.binMask.get b = true ∧ (k.block.bins.get b).enabled = true
          ∧ m.sheetCount + (s.mail.bins.get b).stacked + (s.mail.bins.get b).reserved
            ≤ (k.block.bins.get b).capacity
        let passes := (∃ t, trayOf e.words.w4 = some t ∧ (k.block.trays.get t).enabled = true
            ∧ s.launch.trays.get t = false)
          ∧ e.words.ready.getLsbD 0 = true
          ∧ (k.block.duplexGate = true → side2Of e.words ≠ none → e.words.ready.getLsbD 1 = true)
        (m.bin = none → (∀ b, ¬fits b) → s.evaluateWake = done)
        ∧ (∀ b, m.bin = none → fits b → (∀ b', Bin.order.idxOf b' < Bin.order.idxOf b → ¬fits b') →
          s.evaluateWake = State.evaluateWake { s with mail := { s.mail with
            table := s.mail.table.map fun r => if r.id = m.id then { r with bin := some b } else r
            bins := s.mail.bins.set b
              { s.mail.bins.get b with reserved := (s.mail.bins.get b).reserved + m.sheetCount } } })
        ∧ (m.bin ≠ none → ¬passes → s.evaluateWake = done)
        ∧ (m.bin ≠ none → passes →
          s.evaluateWake = State.runUpOrder { done with ctl := { s.ctl with state := .running } })))))
  ∧ (∀ s : State, s.ctl.state = .running → s.launch.emptyCount = s.runOutLimit → s.track.sheets = [] →
    s.considerStandby = { State.haltSections ⟨false, false, true⟩ s.runOutOrder with
        ctl := { s.ctl with state := .standby, attn := s.ctl.attn ||| 8 } }
      ∧ s.considerStandby.track = { s.track with tracking := s.track.tracking.set .down false }
      ∧ (∀ d : Dest, s.considerStandby.track.tracking.get d.checkpoint.sec = false))

/-- An OPEN at the front with no current mailpiece: the first check of sheet count, bin mask and capacity that fails
refuses it with its reason; one that passes waits while all 32 records are in use, and otherwise gets a FILLING
record with its fields. When a mailpiece settles, and with which outcome and reason. -/
def Obligations.MailpieceOpeningAndSettlement : Prop :=
  (∀ (e : Entry) (k : Installed) (s : State), s.config = some k → s.currentMp = none →
      let n := e.words.w5.toNat
      let named (b : Bin) : Prop :=
        (binMaskOf e.words.w6).get b = true ∧ (k.block.bins.get b).enabled = true
      let refused (why : Reason) : Prop := s.takeOpen e = s.setEntry e.id .settled .refused (some why)
      (¬(1 ≤ n ∧ n ≤ 64) → refused .badCount)
      ∧ (1 ≤ n → n ≤ 64 → (∀ b, ¬named b) → refused .noBin)
      ∧ (1 ≤ n → n ≤ 64 → (∃ b, named b) → (∀ b, named b → (k.block.bins.get b).capacity < n) →
          refused .binImpossible)
      ∧ (∀ b, 1 ≤ n → n ≤ 64 → named b → n ≤ (k.block.bins.get b).capacity → 32 ≤ s.mail.table.length →
          s.takeOpen e = { s with mail := { s.mail with waitingOpen := some e.id } })
      ∧ (∀ b, 1 ≤ n → n ≤ 64 → named b → n ≤ (k.block.bins.get b).capacity → s.mail.table.length < 32 →
          s.takeOpen e = { s with
            mail := { s.mail with
              waitingOpen := none, nextId := s.mail.nextId + 1
              table := s.mail.table ++
                [{ id := s.mail.nextId, number := e.words.w4, sheetCount := n
                   binMask := binMaskOf e.words.w6, markBase := e.words.w7, markMask := e.words.w8
                   openRef := e.id, bin := none, taken := 0, launched := 0, committed := 0, stacked := 0
                   purged := 0, lost := 0, closed := false, interrupted := false, reason := none
                   state := .filling }] }
            fetch := { s.fetch with
              window := s.fetch.window.map fun y =>
                if y.id = e.id then { y with state := .passed } else y } }))
  ∧ (∀ (m : Mailpiece) (jam : Bool) (s : State),
      (State.mpSettles jam m = true ↔ (m.state = .launched ∨ m.state = .purging) ∧ m.closed = true
        ∧ (jam = true ∨ m.interrupted = false) ∧ m.stacked + m.purged + m.lost = m.launched)
      ∧ (m.stacked = m.sheetCount → State.mpOutcome m = ⟨.complete, none⟩)
      ∧ (m.stacked ≠ m.sheetCount → m.stacked = 0 → State.mpOutcome m = ⟨.purged, m.reason⟩)
      ∧ (m.stacked ≠ m.sheetCount → m.stacked ≠ 0 → State.mpOutcome m = ⟨.split, m.reason⟩)
      ∧ (State.mpSettles jam m = true → s.settleMp jam m = { s with
          mail := { s.mail with
            table := s.mail.table.map fun r => if r.id = m.id then { r with state := .settled } else r }
          fetch := { s.fetch with
            window := s.fetch.window.map fun e =>
              if e.id = m.openRef then
                { e with state := .settled, draft := some (State.mpOutcome m) }
              else e } })
      ∧ (State.mpSettles jam m = false → s.settleMp jam m = s))

/-- A cause of purging in FILLING or LAUNCHED: PURGING with that reason, the mark MAILPIECE on every sheet of the
mailpiece that is neither committed nor marked, the sheet count less the committed count given back to the bin, and
outside STOPPING the candidate of the mailpiece skipped and counted; in PURGING and SETTLED nothing changes, so the
first reason stays. A mark given to a sheet that is neither committed nor marked stands, and brings its mailpiece
into PURGING with the mark as reason. Closing short purges a FILLING mailpiece with SHORT_MAILPIECE and closes the
record. A mailpiece or sheet that is not in its table gives no effect (the model's choice, log entry 21). -/
def Obligations.MailpiecePurging : Prop :=
  (∀ (id : Nat) (why : Reason) (s : State),
    (s.findMp id = none → s.enterPurging id why = s)
    ∧ (∀ m, s.findMp id = some m → m.state = .purging ∨ m.state = .settled → s.enterPurging id why = s)
    ∧ (∀ m, s.findMp id = some m → m.state = .filling ∨ m.state = .launched →
      let base : State := { s with
        mail := { s.mail with
          table := s.mail.table.map fun r =>
            if r.id = id then { r with state := .purging, reason := some why } else r
          bins := match m.bin with
            | none => s.mail.bins
            | some b => s.mail.bins.set b { s.mail.bins.get b with
                reserved := (s.mail.bins.get b).reserved - (m.sheetCount - m.committed) } }
        track := { s.track with
          sheets := s.track.sheets.map fun x =>
            if x.mp = id ∧ x.committed = false ∧ x.purge = none then
              { x with purge := some .mailpiece }
            else x } }
      let itsCandidate := s.currentMp.map (·.id) = some id ∧ s.ctl.state ≠ .stopping
      (∀ c, s.launch.candidate = some c → itsCandidate → s.enterPurging id why = { base with
        fetch := { s.fetch with window := s.fetch.window.map fun e =>
          if e.id = c then
            { e with state := .passed, draft := some ⟨.skipped, some .mailpiecePurging⟩ }
          else e }
        launch := { s.launch with candidate := none }
        mail := { base.mail with table := base.mail.table.map fun r =>
          if r.id = id then
            { r with taken := r.taken + 1, closed := r.closed || decide (r.sheetCount ≤ r.taken + 1) }
          else r } })
      ∧ (s.launch.candidate = none ∨ ¬itsCandidate → s.enterPurging id why = base)))
  ∧ (∀ (track : Nat) (why : Reason) (s : State),
    (s.findSheet track = none → s.giveMark track why = s)
    ∧ (∀ x, s.findSheet track = some x → x.committed = true ∨ x.purge ≠ none → s.giveMark track why = s)
    ∧ (∀ x, s.findSheet track = some x → x.committed = false → x.purge = none →
      s.giveMark track why = State.enterPurging x.mp why { s with track := { s.track with
        sheets := s.track.sheets.map fun y =>
          if y.id = track then { y with purge := some why } else y } }))
  ∧ (∀ (m : Mailpiece) (s : State),
    let close (s : State) : State := { s with mail := { s.mail with
      table := s.mail.table.map fun r => if r.id = m.id then { r with closed := true } else r } }
    (m.state = .filling → s.closeShort m = close (s.enterPurging m.id .shortMailpiece))
    ∧ (m.state ≠ .filling → s.closeShort m = close s))

/-- The writes of a retirement, in their order: the result fields of an OPEN or a CALL, the disposition, the five
progress counters, the last retired address, and the retired count, which advances with its write. The values
written: the result code, bin and counts of an OPEN, the summary of a CALL, and the disposition word of a draft,
with the codes of the results and reasons. Every write has class 5, and the write of the retired count that fills
the batch carries the tag of ATTN RETIRED. What makes an entry retirable. A write issued with the queue full is
held, its value and the progress of the retirement fixed at the moment of issue (the model's choice, log entry 11),
and none is issued while one is held. A CALL settles once it is passed, its sequence left, and no SHEET of it is
unsettled. -/
def Obligations.RetirementSequence : Prop :=
  (∀ (e : Entry) (s : State),
    (e.retireSteps.map fun x => (s.retireWrite e x).addr) =
      ((match e.kind with
        | .mpOpen => [40, 44, 48, 52, 56]
        | .call => [40, 44, 48, 52]
        | .sheet | .ret | .head | .pause | .nop | .unknown => []).map (e.addr + BitVec.ofNat 32 ·))
      ++ [e.addr + 8]
      ++ [24, 28, 32, 36, 40, 20, 16].map (s.ctl.area + BitVec.ofNat 32 ·)
    ∧ ((e.retireSteps.map fun x => (s.retireWrite e x).value).drop (e.retireSteps.length - 7) =
        [s.retire.launched, s.retire.stacked, s.retire.purged, s.retire.lost, s.retire.skipped, e.addr,
          s.retire.retired + 1])
    ∧ (s.retireWrite e .disposition).value = dispositionWord (State.dispositionOf e)
    ∧ (∀ rest x n, s.fetch.window = e :: rest → e.retirable = true → s.retireHeld = false →
        e.chain ≠ .sequence → s.retire.step.getD 0 = n → e.retireSteps[n]? = some x →
        s.queueHasRoom = true →
        ∃ t, s.retireMove = some t ∧ t.mem = { s.mem with queue := s.mem.queue ++ [s.retireWrite e x] }
          ∧ t.retire.step = some (n + 1)
          ∧ t.retire.retired = (if x = .count then s.retire.retired + 1 else s.retire.retired)
          ∧ t = { s with mem := t.mem, retire := t.retire })
    ∧ (∀ rest, s.fetch.window = e :: rest → e.retirable = true → s.retireHeld = false →
        e.chain = .sequence ∨ e.retireSteps.length ≤ s.retire.step.getD 0 →
        ∃ t, s.retireMove = some t ∧ t.fetch = { s.fetch with window := rest }
          ∧ t.retire = { s.retire with step := none } ∧ t.mem = s.mem
          ∧ t.mail.table = (if (s.mpOfOpen e.id).isSome then
              s.mail.table.filter (·.openRef ≠ e.id) else s.mail.table))
    ∧ (∀ rest, s.fetch.window = e :: rest → e.retirable = false → s.retireMove = none))
  ∧ ((∀ (e : Entry) (s : State),
    let written : List Word := e.retireSteps.map fun x => (s.retireWrite e x).value
    let n (k : Nat) : Word := BitVec.ofNat 32 k
    let batch : Nat := s.config.elim 1 fun k => max 1 k.block.retireBatch
    let full : Bool := decide ((s.retire.retired.toNat + 1) % 4294967296 % batch = 0)
    (∀ m, e.kind = .mpOpen → s.mpOfOpen e.id = some m → written.take 5 =
      [n (State.mpOutcome m).result.code, n (m.bin.elim 0 (Bin.order.idxOf · + 1)), n m.stacked, n m.purged, n m.lost])
    ∧ (e.kind = .mpOpen → s.mpOfOpen e.id = none → written.take 5 = [5, 0, 0, 0, 0])
    ∧ (e.kind = .call → written.take 4 =
      [n e.summary.stacked, n e.summary.purged, n e.summary.lost, if e.summary.fault then 1 else 0])
    ∧ (∀ d, e.draft = some d → (s.retireWrite e .disposition).value = dispositionWord d)
    ∧ (∀ x, (s.retireWrite e x).cls = 5 ∧ (s.retireWrite e x).tag =
        if x = .count ∧ full = true then .retiredCount else .plain)
    ∧ (e.retirable = true ↔ e.state = .settled ∨ (e.state = .passed ∧
        (e.kind = .sheet ∨ e.kind = .ret ∨ e.kind = .head ∨ e.kind = .nop ∨ e.kind = .unknown
          ∨ ((e.kind = .mpOpen ∨ e.kind = .pause) ∧ e.notAllowed = true)
          ∨ (e.kind = .pause ∧ e.draft.map (·.result) = some .skipped)
          ∨ (e.kind = .call ∧ e.callStatus = .notEntered))))
    ∧ (∀ rest x, s.fetch.window = e :: rest → e.retirable = true → s.retireHeld = false →
        e.chain ≠ .sequence → e.retireSteps[s.retire.step.getD 0]? = some x →
        let advanced : Retire := { s.retire with
          step := some (s.retire.step.getD 0 + 1)
          retired := if x = .count then s.retire.retired + 1 else s.retire.retired
          batching := if x = .count then (s.retire.retired.toNat + 1) % 4294967296 % batch
            else s.retire.batching }
        (s.queueHasRoom = true → s.retireMove = some { s with
          retire := advanced, mem := { s.mem with queue := s.mem.queue ++ [s.retireWrite e x] } })
        ∧ (s.queueHasRoom = false → s.retireMove = some { s with
          retire := advanced, mem := { s.mem with held := s.mem.held ++ [⟨s.retireWrite e x, .retire⟩] } }))
    ∧ ((∃ h ∈ s.mem.held, h.steps = .retire) → s.retireMove = none))
  ∧ [.stacked, .purged, .lost, .skipped, .refused, .passed, .complete, .split].map Result.code
      = [1, 2, 3, 4, 5, 6, 7, 8]
  ∧ [.multifeed, .shortSheet, .transferFault, .side2Late, .markMismatch, .markMissing, .mailpiece, .jam,
        .shortMailpiece, .mailpiecePurging, .resync, .badKind, .badTray, .noLoop, .noMailpiece, .badCount, .noBin,
        .binImpossible, .callDepth, .callLoop].map Reason.code
      = [1, 2, 3, 4, 5, 6, 7, 8, 9, 16, 17, 32, 33, 34, 35, 36, 37, 38, 39, 40]
  ∧ (∀ d : Draft, (dispositionWord d).extractLsb' 0 8 = BitVec.ofNat 8 d.result.code
      ∧ (dispositionWord d).extractLsb' 8 8 = BitVec.ofNat 8 (d.reason.elim 0 Reason.code)
      ∧ (dispositionWord d).extractLsb' 16 16 = 0)
  ∧ (∀ (e : Entry) (s : State),
    (s.callSettles e = true ↔ e.kind = .call ∧ e.state = .passed ∧ e.callStatus = .left
      ∧ (e.chain = .sequence ∨ ∀ x ∈ s.fetch.window, x.kind = .sheet → x.caller = some e.id →
          x.state = .settled ∨ (x.state = .passed ∧ x.draft ≠ none)))
    ∧ s.settleCalls = { s with fetch := { s.fetch with
        window := s.fetch.window.map fun y =>
          if s.callSettles y = true then { y with state := .settled } else y } }))

/-! ## Jams -/

/-- A path fault report is a primary jam in RUNNING, DRAINING and STANDBY: the primary cause record, the sections
stopped at once, the frozen sheets, the withdrawn valid word, and an outstanding fetch read that is discarded with
its re-read no longer asked for. Every pick of the feed schedule is dropped: its record, its reservation in the ring
and its compare are gone, and with the sheet books in order sheets launched falls by their number, each mailpiece's
launched and taken counts fall by its own, those mailpieces are interrupted and the SHEETs' entries marked dropped,
and nothing else leaves the tables while the controller is STOPPING. With no draining sheet left (each sheet
dropped, frozen already, or stranded) and room in the write queue the same event brings JAMMED entry, and otherwise
it does not, for a draining sheet with the sheet books in order. A mailpiece that is not closed, or has a frozen
sheet, is interrupted; each uncommitted, unmarked sheet in the path of an interrupted mailpiece gets the mark JAM
and its mailpiece enters PURGING, and in STOPPING the mailpiece table and the track table are what this makes of the
classified sheets. After a fault in UP or LOOP, DOWN's tracking stays, its deadline compares alone are left, and its
run output stays while the transport is AT-SPEED. With the write queue full the valid word's write is held, with the
end of the drain after it. -/
def Obligations.PrimaryJam : Prop :=
  ((∀ (r : Report) (s : State),
    s.ctl.state = .running ∨ s.ctl.state = .draining ∨ s.ctl.state = .standby →
    let downToo := r.place.sections.down
    let stranded (x : Sheet) : Prop :=
      x.occ.any (fun o => decide (o.at_.sec ≠ .down) || downToo) = true
        ∨ (∃ c, x.next = some c ∧ (c.sec ≠ .down ∨ downToo = true))
    let scheduled (x : Sheet) : Bool := s.launch.schedule.any (·.track == x.id)
    let dropped : List Sheet := s.track.sheets.filter scheduled
    ∃ t : State, t = s.report r
      ∧ t.jam.primary = some
          { cause := r.cause, place := r.place, sheetAddr := r.sheet.map s.entryAddr, counts := r.counts
            pitch := s.clock.pitch }
      ∧ t.jam.seq = (if s.jam.seq = 0xFFFFFFFF then 1 else s.jam.seq + 1)
      ∧ t.jam.secondary = 0 ∧ t.jam.lastSecondary = none ∧ t.attnHas .jam = true
      ∧ t.ctl.pauseRec = none ∧ t.launch.schedule = []
      ∧ t.transport.run.up = false ∧ t.transport.run.loop = false
      ∧ (downToo = true → t.transport.run.down = false)
      ∧ t.track.tracking.up = false ∧ t.track.tracking.loop = false
      ∧ (downToo = true → t.track.tracking.down = false)
      ∧ (s.queueHasRoom = true →
          (⟨2, s.controlWord 159, 0, .plain⟩ : Write) ∈ t.mem.queue)
      ∧ (t.ctl.state = .stopping ∨ t.ctl.state = .jammed)
      ∧ (t.ctl.state = .jammed → t.track.sheets = [] ∧ s.queueHasRoom = true)
      ∧ (t.ctl.state = .stopping → ∀ x ∈ t.track.sheets, stranded x → x.state ≠ .inPath)
      ∧ (s.queueHasRoom = true →
          (∀ x ∈ s.track.sheets, scheduled x = true ∨ x.state = .frozen ∨ (x.state = .inPath ∧ stranded x)) →
          t.ctl.state = .jammed)
      ∧ t.fetch.read = s.fetch.read.map (fun q => { q with discard := true }) ∧ t.fetch.rereadAsked = false
      ∧ (∀ x ∈ dropped, (∀ y ∈ t.track.sheets, y.id ≠ x.id) ∧ (∀ h ∈ t.clock.ring, h.track ≠ x.id)
          ∧ ∀ q ∈ t.transport.compares, q.owner ≠ .pick x.id)
      ∧ (s.SheetBooks →
          (t.ctl.state = .jammed →
              ∀ x ∈ s.track.sheets, scheduled x = true ∨ x.state = .frozen ∨ (x.state = .inPath ∧ stranded x))
          ∧ t.retire.launched = s.retire.launched - BitVec.ofNat 32 dropped.length
          ∧ (t.ctl.state = .stopping →
              t.track.sheets.map (·.id) = (s.track.sheets.filter fun x => !scheduled x).map (·.id)
              ∧ t.clock.ring = s.clock.ring.filter (fun h => dropped.all (·.id != h.track))
              ∧ t.mail.table.map (fun m => (m.id, m.launched, m.taken))
                = s.mail.table.map (fun m =>
                    let n := (dropped.filter (·.mp = m.id)).length
                    (m.id, m.launched - n, m.taken - n))
              ∧ (∀ m ∈ t.mail.table, (∃ x ∈ dropped, x.mp = m.id) → m.interrupted = true)
              ∧ t.fetch.window = s.fetch.window.map (fun e =>
                  if dropped.any (·.order == e.id) then { e with dropped := true } else e)))
      ∧ t.transport.count = s.transport.count ∧ t.transport.sensors = s.transport.sensors
      ∧ t.clock.loopUnusable = s.clock.loopUnusable ∧ t.config = s.config ∧ t.out = s.out)
  ∧ ((∀ s : State,
    let stranded (m : Mailpiece) : Bool := s.track.sheets.any fun x => x.state == .frozen && x.mp == m.id
    let marked (x : Sheet) : Bool := x.state == .inPath && !x.committed && x.purge == none
      && s.mail.table.any fun m => m.id == x.mp && m.interrupted
    s.setInterrupted = { s with mail := { s.mail with table := s.mail.table.map fun m =>
      { m with interrupted := m.interrupted || !m.closed || stranded m } } }
    ∧ s.markJam = (s.track.sheets.filter marked).foldl (fun u x => u.enterPurging x.mp .jam)
        { s with track := { s.track with sheets := s.track.sheets.map fun y =>
          if (s.track.sheets.filter marked).any (·.id == y.id) then { y with purge := some .jam } else y } })
  ∧ (∀ (r : Report) (s : State), s.SheetBooks →
    s.ctl.state = .running ∨ s.ctl.state = .draining ∨ s.ctl.state = .standby →
    let stopped (c : Checkpoint) : Bool := c.sec != .down || r.place.sections.down
    let stranded (x : Sheet) : Bool := x.occ.any (fun o => stopped o.at_) || x.next.any stopped
    let scheduled (x : Sheet) : Bool := s.launch.schedule.any (·.track == x.id)
    let lost (m : Mailpiece) : Nat := (s.track.sheets.filter fun x => scheduled x && x.mp == m.id).length
    let classified : State := { s with
      ctl := { s.ctl with state := .stopping }
      track := { s.track with
        sheets := (s.track.sheets.filter fun x => !scheduled x).map fun x =>
          if x.state = .inPath ∧ stranded x then { x with state := .frozen } else x }
      mail := { s.mail with table := s.mail.table.map fun m =>
        { m with
          launched := m.launched - lost m, taken := m.taken - lost m
          interrupted := m.interrupted || lost m != 0
          state := if lost m ≠ 0 ∧ m.state = .launched then .filling else m.state } } }
    let marked : State := (classified.setInterrupted).markJam
    (s.report r).ctl.state = .stopping →
      (s.report r).mail = marked.mail ∧ (s.report r).track.sheets = marked.track.sheets)))
  ∧ (∀ (r : Report) (s : State),
    s.ctl.state = .running ∨ s.ctl.state = .draining ∨ s.ctl.state = .standby →
    let downToo := r.place.sections.down
    ∃ t : State, t = s.report r
      ∧ (t.ctl.state = .stopping → downToo = false →
        t.track.tracking.down = s.track.tracking.down
        ∧ (s.transport.state = .atSpeed → t.transport.run.down = s.transport.run.down
          ∧ (s.transport.run.down = true → t.transport.state = .atSpeed)))
      ∧ (t.ctl.state = .stopping → ∀ q ∈ t.transport.compares, q.owner.isDeadline = true →
        q ∈ s.transport.compares ∧ q.sec = .down ∧ downToo = false)
      ∧ (s.queueHasRoom = true → t.ctl.state = .stopping →
        t.mem = { s.mem with queue := s.mem.queue ++ [⟨2, s.ctl.area + 636, 0, .plain⟩] })
      ∧ (s.queueHasRoom = false → t.ctl.state = .stopping
        ∧ t.mem = { s.mem with held := s.mem.held ++ [⟨⟨2, s.ctl.area + 636, 0, .plain⟩, .endOfDrain⟩] }))

/-- A further report in STOPPING is a secondary jam, which brings JAMMED entry on its event and leaves the primary
cause record; in the states without a TRACKING section a report changes nothing. One LOST settlement: the entry of
the sheet in the stranded list, the lost counts of the mailpiece, the Retire Unit and the outermost CALL, the bin
reservation given back, the draft LOST JAM, and the record, ring entry, compares and queue places gone, with its
transfer entry abandoned; the order or mailpiece record that is missing reads as 0 (the model's choice, log entry
21). Every sheet in the track table is settled so. Then every mailpiece is closed, an interrupted one enters PURGING
with JAM, and one whose sheets are all accounted for settles with its order. -/
def Obligations.SecondaryJam : Prop :=
  (∀ (r : Report) (s : State),
    (s.ctl.state = .stopping → ∃ t : State, t = s.report r
      ∧ t.ctl.state = .jammed ∧ t.track.sheets = [] ∧ t.jam.primary = s.jam.primary
      ∧ t.jam.seq = s.jam.seq
      ∧ t.jam.secondary = (if s.jam.secondary = 0xFFFFFFFF then s.jam.secondary else s.jam.secondary + 1)
      ∧ t.jam.lastSecondary = some (r.cause, r.place)
      ∧ t.jam.recordDue = true ∧ t.jam.recordIssued = false
      ∧ t.jam.stranded.length = s.jam.stranded.length + s.track.sheets.length
      ∧ t.retire.lost = s.retire.lost + BitVec.ofNat 32 s.track.sheets.length
      ∧ t.transport.run.down = false ∧ t.track.tracking = perSection false
      ∧ t.fetch.pos = .idle ∧ t.fetch.stack = [] ∧ t.launch.candidate = none
      ∧ t.mail.waitingOpen = none ∧ (∀ m ∈ t.mail.table, m.closed = true)
      ∧ t.ctl.attn = s.ctl.attn)
    ∧ (s.ctl.state = .unconfigured ∨ s.ctl.state = .ready ∨ s.ctl.state = .halted
        ∨ s.ctl.state = .jammed → s.report r = s))
  ∧ ((∀ (x : Sheet) (s : State),
    let outermost : Option Nat := (s.findEntry x.order).bind (·.caller)
    s.settleLost x = { s with
      jam := { s.jam with stranded := s.jam.stranded ++
        [{ addr := (s.findEntry x.order).elim 0 (·.addr), number := (s.findMp x.mp).elim 0 (·.number)
           index := x.index, last := x.last }] }
      mail := { s.mail with
        table := s.mail.table.map fun m => if m.id = x.mp then { m with lost := m.lost + 1 } else m
        bins := match x.committed, x.dest with
          | true, some (.stk b) =>
            s.mail.bins.set b { s.mail.bins.get b with reserved := (s.mail.bins.get b).reserved - 1 }
          | _, _ => s.mail.bins }
      retire := { s.retire with lost := s.retire.lost + 1 }
      fetch := { s.fetch with window := s.fetch.window.map fun e =>
        { e with
          state := if e.id = x.order then .settled else e.state
          draft := if e.id = x.order then some ⟨.lost, some .jam⟩ else e.draft
          summary := if outermost = some e.id then { e.summary with lost := e.summary.lost + 1 } else e.summary } }
      clock := { s.clock with ring := s.clock.ring.filter (·.track ≠ x.id) }
      track := { s.track with
        sheets := s.track.sheets.filter (·.id ≠ x.id)
        queues := s.track.queues.map fun q => q.filter (· ≠ x.id)
        fifo := s.track.fifo.map fun t => if t.track = x.id then { t with live := false } else t }
      transport := { s.transport with compares := s.transport.compares.filter fun q => !q.owner.isOf x.id } })
  ∧ (∀ s : State, s.settleAllLost = s.track.sheets.foldl State.settleLost s)
  ∧ (∀ (r : Report) (s : State), s.ctl.state = .stopping →
    (s.report r).jam.stranded = s.jam.stranded ++ s.track.sheets.map fun x =>
      { addr := (s.findEntry x.order).elim 0 (·.addr), number := (s.findMp x.mp).elim 0 (·.number)
        index := x.index, last := x.last })
  ∧ (∀ s : State,
    let closed : State := { s with mail := { s.mail with
      table := s.mail.table.map fun m => { m with closed := true } } }
    s.closeMailpieces = State.settleMailpieces true
      ((closed.mail.table.filter (·.interrupted)).foldl (fun u m => u.enterPurging m.id .jam) closed)
    ∧ s.settleMailpieces true = s.mail.table.foldl (State.settleMp true) s)
  ∧ (∀ (m : Mailpiece) (s : State), s.launch.candidate = none → s.mail.table.filter (·.id = m.id) = [m] →
    let purging := m.interrupted = true ∧ (m.state = .filling ∨ m.state = .launched)
    let p : Mailpiece := { m with
      closed := true
      state := if purging then .purging else m.state
      reason := if purging then some .jam else m.reason }
    let settles := (p.state = .launched ∨ p.state = .purging) ∧ p.stacked + p.purged + p.lost = p.launched
    (if settles then { p with state := .settled } else p) ∈ s.closeMailpieces.mail.table
    ∧ (∀ e ∈ s.fetch.window, e.id = m.openRef → s.mail.table.filter (·.openRef = m.openRef) = [m] →
        (if settles then { e with state := .settled, draft := some (State.mpOutcome p) } else e)
          ∈ s.closeMailpieces.fetch.window))
  ∧ (∀ s : State,
    let lost := s.settleAllLost
    let kept (id : Nat) : List Entry := lost.fetch.window.takeWhile (·.id ≠ id)
    ∃ a : State, s.jammedEntry = { a.closeMailpieces with
        ctl := { a.closeMailpieces.ctl with state := .jammed } }
      ∧ a.launch.candidate = none ∧ a.track.sheets = []
      ∧ a.mail.table = (match lost.resumePoint.opener with
        | none => lost.mail.table
        | some id => lost.mail.table.filter fun m => (kept id).any (·.id == m.openRef))))

/-- The resume point by its four cases: the first OPEN of the main or recovery chain that is not taken or has a
FILLING mailpiece without a bin, the link of an unfinished CALL, the next block, or 0; its chain; and when the
resync flag of a new main resume point is set. At JAMMED entry, after the stranded sheets are settled: the resume
point is given to its chain, the entries from an OPEN at the resume point on are discarded, the Order Fetch Unit is
idle with an empty stack, the numbers of the interrupted mailpieces are listed, and each order left is passed with
its draft or settled SKIPPED, JAM as its state has it. A held write stays held, and one of a return link has its
steps dropped (the model's choice, log entry 11). -/
def Obligations.ResumePointAtJammedEntry : Prop :=
  ((∀ s : State,
    let opens (e : Entry) : Prop := e.kind = .mpOpen ∧ e.chain ≠ .sequence ∧ (e.state = .fetched
      ∨ ∃ m ∈ s.mail.table, m.openRef = e.id ∧ m.state = .filling ∧ m.bin = none)
    let unfinished (e : Entry) : Prop :=
      e.kind = .call ∧ e.chain ≠ .sequence ∧ e.callStatus = .pending
    let first (p : Entry → Prop) (e : Entry) : Prop :=
      ∃ before after, s.fetch.window = before ++ e :: after ∧ p e ∧ ∀ y ∈ before, ¬p y
    let none_ (p : Entry → Prop) : Prop := ∀ y ∈ s.fetch.window, ¬p y
    let at_ (e : Entry) : Stream := if e.chain = .recovery then .recovery else .main
    let r := s.resumePoint
    (∀ e, first opens e → r = ⟨e.addr, at_ e, some e.id⟩)
    ∧ (∀ e, none_ opens → first unfinished e →
      r = ⟨if e.words.link ≠ 0 ∧ s.orderAddrOk e.words.link = true then e.words.link else 0, at_ e, none⟩)
    ∧ (∀ a, none_ opens → none_ unfinished → s.fetch.pos = .next a → r = ⟨a, s.fetch.chain, none⟩)
    ∧ (none_ opens → none_ unfinished → (∀ a, s.fetch.pos ≠ .next a) → r = ⟨0, s.fetch.chain, none⟩)
    ∧ (s.resumeResync r = true ↔ r.opener = none
        ∧ ((∃ m, s.mail.table.getLast? = some m ∧ m.interrupted = true)
          ∨ (s.fetch.resync = true ∧ s.fetch.chain = .main))))
  ∧ (∀ s : State,
    let a := s.settleAllLost
    let r := a.resumePoint
    let kept := match r.opener with
      | none => a.fetch.window
      | some id => a.fetch.window.takeWhile (·.id ≠ id)
    let t := s.jammedEntry
    (r.chain = .main →
      t.jam.mainResume = r.addr ∧ t.jam.mainResync = a.resumeResync r ∧ t.jam.recoveryResume = 0)
    ∧ (r.chain = .recovery → t.jam.recoveryResume = r.addr ∧ t.jam.mainResume = s.jam.mainResume
        ∧ t.jam.mainResync = s.jam.mainResync)
    ∧ t.fetch.window.map (·.id) = kept.map (·.id)
    ∧ t.fetch.pos = .idle ∧ t.fetch.stack = [] ∧ t.fetch.outer = none
    ∧ t.fetch.chain = s.fetch.chain ∧ t.fetch.resync = s.fetch.resync
    ∧ t.jam.interrupted = ((a.mail.table.filter fun m =>
        m.interrupted && (r.opener.isNone || kept.any (·.id == m.openRef))).map (·.number))
    ∧ (∀ e ∈ kept, e.kind ≠ .mpOpen → e.kind ≠ .call → (∀ m ∈ a.mail.table, m.openRef ≠ e.id) →
      let jam (e : Entry) : Entry :=
        { e with state := .settled, draft := some ⟨.skipped, some .jam⟩ }
      (e.retirable = true → e ∈ t.fetch.window)
      ∧ (e.state = .fetched → e.draft ≠ none → { e with state := .passed } ∈ t.fetch.window)
      ∧ (e.state = .fetched → e.draft = none → jam e ∈ t.fetch.window)
      ∧ (e.retirable = false → e.state = .passed → e.kind = .pause → jam e ∈ t.fetch.window)
      ∧ (e.state = .launched → e.dropped = true → jam e ∈ t.fetch.window))
    ∧ (∀ e ∈ kept, e.kind = .call → (∀ m ∈ a.mail.table, m.openRef ≠ e.id) → e.retirable = false →
      (e.callStatus ≠ .left → e.state = .fetched → e.draft = none →
        { e with state := .settled, draft := some ⟨.skipped, some .jam⟩ } ∈ t.fetch.window)
      ∧ (e.callStatus ≠ .left → e.state = .fetched → e.draft ≠ none →
        { e with state := .passed } ∈ t.fetch.window)
      ∧ (e.callStatus ≠ .left → e.state = .passed →
        { e with state := .settled, draft := some ⟨.skipped, some .jam⟩ } ∈ t.fetch.window))))
  ∧ (∀ s : State, s.jammedEntry.mem = { s.mem with held := s.mem.held.map fun h =>
    match h.steps with
    | .enterSequence _ _ _ => { h with steps := .nothing }
    | _ => h })

/-- The writes of the stop record, of class 2, at their places in the control area and in layout order: the primary
cause record, the secondary count and last secondary cause, the resume points with the resync flag, the stranded
list and the interrupted list with their counts, and the valid word last, which is the sequence number. They are
issued when the record is due and the order window is empty: all at once when the write queue has room for them, and
otherwise as many as it takes, the next held with the rest after it; that the record does not count as issued while
its last write is held is the model's reading (log entry 11). -/
def Obligations.StopRecordWrites : Prop :=
  (∀ s : State,
    let at_ (offset : Nat) (v : Word) : Write := ⟨2, s.ctl.area + BitVec.ofNat 32 offset, v, .plain⟩
    let n := s.jam.stranded.length
    let l := s.jam.interrupted.length
    let writes := s.stopRecordWrites
    writes.length = 16 + 4 * n + l
    ∧ (∀ p, s.jam.primary = some p →
      writes.take 7 = [at_ 64 (BitVec.ofNat 32 p.cause.code), at_ 68 (BitVec.ofNat 32 p.place.code),
        at_ 72 (p.sheetAddr.getD 0), at_ 76 (p.counts.up.setWidth 32), at_ 80 (p.counts.loop.setWidth 32),
        at_ 84 (p.counts.down.setWidth 32), at_ 88 p.pitch])
    ∧ (writes.drop 7).take 7 = [at_ 92 s.jam.secondary,
        at_ 96 (match s.jam.lastSecondary with | none => 0 | some q => BitVec.ofNat 32 q.1.code),
        at_ 100 (match s.jam.lastSecondary with | none => 0 | some q => BitVec.ofNat 32 q.2.code),
        at_ 104 s.jam.mainResume, at_ 108 (if s.jam.mainResync then 1 else 0),
        at_ 112 s.jam.recoveryResume, at_ 116 (BitVec.ofNat 32 n)]
    ∧ (∀ i x, i < 24 → s.jam.stranded[i]? = some x → (writes.drop (14 + 4 * i)).take 4 =
        [at_ (120 + 16 * i) x.addr, at_ (124 + 16 * i) x.number, at_ (128 + 16 * i) (BitVec.ofNat 32 x.index),
          at_ (132 + 16 * i) (match x.last with | none => 0 | some c => BitVec.ofNat 32 (Checkpoint.code c))])
    ∧ writes[14 + 4 * n]? = some (at_ 504 (BitVec.ofNat 32 l))
    ∧ (∀ i v, i < 32 → s.jam.interrupted[i]? = some v → writes[15 + 4 * n + i]? = some (at_ (508 + 4 * i) v))
    ∧ writes.getLast? = some ⟨2, s.ctl.area + 636, s.jam.seq, .validWord⟩)
  ∧ (∀ s : State,
    let writes := s.stopRecordWrites
    let room := 16 - s.mem.queue.length
    (¬(s.jam.recordDue = true ∧ s.fetch.window = []) → s.beginStopRecord = s)
    ∧ (s.jam.recordDue = true → s.fetch.window = [] → writes.length ≤ room →
      s.beginStopRecord = { s with
        jam := { s.jam with recordDue := false, recordIssued := true }
        mem := { s.mem with queue := s.mem.queue ++ writes } })
    ∧ (∀ w rest, s.jam.recordDue = true → s.fetch.window = [] → writes.drop room = w :: rest →
      s.beginStopRecord = { s with
        jam := { s.jam with recordDue := false }
        mem := { s.mem with
          queue := s.mem.queue ++ writes.take room
          held := s.mem.held ++ [⟨w, .stopRecord rest⟩] } }))

/-! ## The end of an event and the invariants -/

/-- What the work at the end of an event never changes, whatever it settles, retires, takes at the front or reads;
and no attention flag is cleared by it. With no work of an event left, the end of an event changes nothing. -/
def Obligations.EndOfEvent : Prop :=
  (∀ s : State, ∃ t : State, t = s.finish
    ∧ t.transport.count = s.transport.count ∧ t.transport.sensors = s.transport.sensors
    ∧ t.clock.loopUnusable = s.clock.loopUnusable ∧ t.fetch.chain = s.fetch.chain
    ∧ t.fetch.resync = s.fetch.resync ∧ t.fetch.nextId = s.fetch.nextId
    ∧ t.mail.purgeCount = s.mail.purgeCount ∧ t.mail.purgeFull = s.mail.purgeFull
    ∧ t.launch.trays = s.launch.trays ∧ t.track.d1 = s.track.d1 ∧ t.exit = s.exit
    ∧ t.retire.stacked = s.retire.stacked ∧ t.retire.purged = s.retire.purged
    ∧ t.jam.recoveryPending = s.jam.recoveryPending ∧ t.mem.windowLength = s.mem.windowLength
    ∧ t.ctl.area = s.ctl.area ∧ t.ctl.cmd = s.ctl.cmd ∧ t.ctl.lastCommand = s.ctl.lastCommand
    ∧ t.ctl.lastOutcome = s.ctl.lastOutcome ∧ t.ctl.validation = s.ctl.validation
    ∧ t.ctl.amask = s.ctl.amask ∧ t.config = s.config ∧ t.pending = s.pending
    ∧ (∀ f, s.attnHas f = true → t.attnHas f = true))
  ∧ (∀ s : State, s.atRest = true → s.finish = s)

/-- The state at reset has every invariant that the steps keep. -/
def Obligations.InvariantsAtReset : Prop :=
  State.reset.SheetBooks ∧ State.reset.TablesFit ∧ State.reset.ConfigurationHolds
    ∧ State.reset.OneOpenMailpiece

/-- Every step keeps the sheet books: sheets launched = stacked + purged + lost + track entries in use. -/
def Obligations.SheetBooksKept : Prop :=
  ∀ s s' : State, s.SheetBooks → step s = .next s' → s'.SheetBooks

/-- Every step keeps every table, queue and stack within its size, and no two return reservations on one ring entry. -/
def Obligations.TablesFitKept : Prop :=
  ∀ s s' : State, s.TablesFit → step s = .next s' → s'.TablesFit

/-- Every step keeps the installed configuration valid, and what is computed from it as computed. -/
def Obligations.ConfigurationKept : Prop :=
  ∀ s s' : State, s.ConfigurationHolds → step s = .next s' → s'.ConfigurationHolds

/-- Every step keeps at most one mailpiece open, the one most recently allocated, and none while an OPEN waits. -/
def Obligations.OneOpenMailpieceKept : Prop :=
  ∀ s s' : State, s.OneOpenMailpiece → step s = .next s' → s'.OneOpenMailpiece
end

