-- ==== Sys2Proof/Laws/State.lean ====
section
/-! SUPPORT. One lemma for each field of State under each named update, so that no later proof unfolds a record update. -/

namespace Sys2Proof.Machine.State

/-! ## onTransport -/

section
variable (f : Transport → Transport) (s : State)

@[simp] theorem onTransport_transport : (s.onTransport f).transport = f s.transport := rfl
@[simp] theorem onTransport_clock : (s.onTransport f).clock = s.clock := rfl
@[simp] theorem onTransport_fetch : (s.onTransport f).fetch = s.fetch := rfl
@[simp] theorem onTransport_mail : (s.onTransport f).mail = s.mail := rfl
@[simp] theorem onTransport_launch : (s.onTransport f).launch = s.launch := rfl
@[simp] theorem onTransport_track : (s.onTransport f).track = s.track := rfl
@[simp] theorem onTransport_exit : (s.onTransport f).exit = s.exit := rfl
@[simp] theorem onTransport_retire : (s.onTransport f).retire = s.retire := rfl
@[simp] theorem onTransport_jam : (s.onTransport f).jam = s.jam := rfl
@[simp] theorem onTransport_mem : (s.onTransport f).mem = s.mem := rfl
@[simp] theorem onTransport_ctl : (s.onTransport f).ctl = s.ctl := rfl
@[simp] theorem onTransport_config : (s.onTransport f).config = s.config := rfl
@[simp] theorem onTransport_pending : (s.onTransport f).pending = s.pending := rfl
@[simp] theorem onTransport_out : (s.onTransport f).out = s.out := rfl
@[simp] theorem onTransport_freeIndex : (s.onTransport f).freeIndex = s.freeIndex := rfl

end

/-! ## onClock -/

section
variable (f : PitchClock → PitchClock) (s : State)

@[simp] theorem onClock_transport : (s.onClock f).transport = s.transport := rfl
@[simp] theorem onClock_clock : (s.onClock f).clock = f s.clock := rfl
@[simp] theorem onClock_fetch : (s.onClock f).fetch = s.fetch := rfl
@[simp] theorem onClock_mail : (s.onClock f).mail = s.mail := rfl
@[simp] theorem onClock_launch : (s.onClock f).launch = s.launch := rfl
@[simp] theorem onClock_track : (s.onClock f).track = s.track := rfl
@[simp] theorem onClock_exit : (s.onClock f).exit = s.exit := rfl
@[simp] theorem onClock_retire : (s.onClock f).retire = s.retire := rfl
@[simp] theorem onClock_jam : (s.onClock f).jam = s.jam := rfl
@[simp] theorem onClock_mem : (s.onClock f).mem = s.mem := rfl
@[simp] theorem onClock_ctl : (s.onClock f).ctl = s.ctl := rfl
@[simp] theorem onClock_config : (s.onClock f).config = s.config := rfl
@[simp] theorem onClock_pending : (s.onClock f).pending = s.pending := rfl
@[simp] theorem onClock_out : (s.onClock f).out = s.out := rfl
@[simp] theorem onClock_freeIndex : (s.onClock f).freeIndex = s.freeIndex := rfl

end

/-! ## onFetch -/

section
variable (f : Fetch → Fetch) (s : State)

@[simp] theorem onFetch_transport : (s.onFetch f).transport = s.transport := rfl
@[simp] theorem onFetch_clock : (s.onFetch f).clock = s.clock := rfl
@[simp] theorem onFetch_fetch : (s.onFetch f).fetch = f s.fetch := rfl
@[simp] theorem onFetch_mail : (s.onFetch f).mail = s.mail := rfl
@[simp] theorem onFetch_launch : (s.onFetch f).launch = s.launch := rfl
@[simp] theorem onFetch_track : (s.onFetch f).track = s.track := rfl
@[simp] theorem onFetch_exit : (s.onFetch f).exit = s.exit := rfl
@[simp] theorem onFetch_retire : (s.onFetch f).retire = s.retire := rfl
@[simp] theorem onFetch_jam : (s.onFetch f).jam = s.jam := rfl
@[simp] theorem onFetch_mem : (s.onFetch f).mem = s.mem := rfl
@[simp] theorem onFetch_ctl : (s.onFetch f).ctl = s.ctl := rfl
@[simp] theorem onFetch_config : (s.onFetch f).config = s.config := rfl
@[simp] theorem onFetch_pending : (s.onFetch f).pending = s.pending := rfl
@[simp] theorem onFetch_out : (s.onFetch f).out = s.out := rfl
@[simp] theorem onFetch_freeIndex : (s.onFetch f).freeIndex = s.freeIndex := rfl

end

/-! ## onMail -/

section
variable (f : Mail → Mail) (s : State)

@[simp] theorem onMail_transport : (s.onMail f).transport = s.transport := rfl
@[simp] theorem onMail_clock : (s.onMail f).clock = s.clock := rfl
@[simp] theorem onMail_fetch : (s.onMail f).fetch = s.fetch := rfl
@[simp] theorem onMail_mail : (s.onMail f).mail = f s.mail := rfl
@[simp] theorem onMail_launch : (s.onMail f).launch = s.launch := rfl
@[simp] theorem onMail_track : (s.onMail f).track = s.track := rfl
@[simp] theorem onMail_exit : (s.onMail f).exit = s.exit := rfl
@[simp] theorem onMail_retire : (s.onMail f).retire = s.retire := rfl
@[simp] theorem onMail_jam : (s.onMail f).jam = s.jam := rfl
@[simp] theorem onMail_mem : (s.onMail f).mem = s.mem := rfl
@[simp] theorem onMail_ctl : (s.onMail f).ctl = s.ctl := rfl
@[simp] theorem onMail_config : (s.onMail f).config = s.config := rfl
@[simp] theorem onMail_pending : (s.onMail f).pending = s.pending := rfl
@[simp] theorem onMail_out : (s.onMail f).out = s.out := rfl
@[simp] theorem onMail_freeIndex : (s.onMail f).freeIndex = s.freeIndex := rfl

end

/-! ## onLaunch -/

section
variable (f : Launch → Launch) (s : State)

@[simp] theorem onLaunch_transport : (s.onLaunch f).transport = s.transport := rfl
@[simp] theorem onLaunch_clock : (s.onLaunch f).clock = s.clock := rfl
@[simp] theorem onLaunch_fetch : (s.onLaunch f).fetch = s.fetch := rfl
@[simp] theorem onLaunch_mail : (s.onLaunch f).mail = s.mail := rfl
@[simp] theorem onLaunch_launch : (s.onLaunch f).launch = f s.launch := rfl
@[simp] theorem onLaunch_track : (s.onLaunch f).track = s.track := rfl
@[simp] theorem onLaunch_exit : (s.onLaunch f).exit = s.exit := rfl
@[simp] theorem onLaunch_retire : (s.onLaunch f).retire = s.retire := rfl
@[simp] theorem onLaunch_jam : (s.onLaunch f).jam = s.jam := rfl
@[simp] theorem onLaunch_mem : (s.onLaunch f).mem = s.mem := rfl
@[simp] theorem onLaunch_ctl : (s.onLaunch f).ctl = s.ctl := rfl
@[simp] theorem onLaunch_config : (s.onLaunch f).config = s.config := rfl
@[simp] theorem onLaunch_pending : (s.onLaunch f).pending = s.pending := rfl
@[simp] theorem onLaunch_out : (s.onLaunch f).out = s.out := rfl
@[simp] theorem onLaunch_freeIndex : (s.onLaunch f).freeIndex = s.freeIndex := rfl

end

/-! ## onTrack -/

section
variable (f : Track → Track) (s : State)

@[simp] theorem onTrack_transport : (s.onTrack f).transport = s.transport := rfl
@[simp] theorem onTrack_clock : (s.onTrack f).clock = s.clock := rfl
@[simp] theorem onTrack_fetch : (s.onTrack f).fetch = s.fetch := rfl
@[simp] theorem onTrack_mail : (s.onTrack f).mail = s.mail := rfl
@[simp] theorem onTrack_launch : (s.onTrack f).launch = s.launch := rfl
@[simp] theorem onTrack_track : (s.onTrack f).track = f s.track := rfl
@[simp] theorem onTrack_exit : (s.onTrack f).exit = s.exit := rfl
@[simp] theorem onTrack_retire : (s.onTrack f).retire = s.retire := rfl
@[simp] theorem onTrack_jam : (s.onTrack f).jam = s.jam := rfl
@[simp] theorem onTrack_mem : (s.onTrack f).mem = s.mem := rfl
@[simp] theorem onTrack_ctl : (s.onTrack f).ctl = s.ctl := rfl
@[simp] theorem onTrack_config : (s.onTrack f).config = s.config := rfl
@[simp] theorem onTrack_pending : (s.onTrack f).pending = s.pending := rfl
@[simp] theorem onTrack_out : (s.onTrack f).out = s.out := rfl
@[simp] theorem onTrack_freeIndex : (s.onTrack f).freeIndex = s.freeIndex := rfl

end

/-! ## onExit -/

section
variable (f : ExitUnit → ExitUnit) (s : State)

@[simp] theorem onExit_transport : (s.onExit f).transport = s.transport := rfl
@[simp] theorem onExit_clock : (s.onExit f).clock = s.clock := rfl
@[simp] theorem onExit_fetch : (s.onExit f).fetch = s.fetch := rfl
@[simp] theorem onExit_mail : (s.onExit f).mail = s.mail := rfl
@[simp] theorem onExit_launch : (s.onExit f).launch = s.launch := rfl
@[simp] theorem onExit_track : (s.onExit f).track = s.track := rfl
@[simp] theorem onExit_exit : (s.onExit f).exit = f s.exit := rfl
@[simp] theorem onExit_retire : (s.onExit f).retire = s.retire := rfl
@[simp] theorem onExit_jam : (s.onExit f).jam = s.jam := rfl
@[simp] theorem onExit_mem : (s.onExit f).mem = s.mem := rfl
@[simp] theorem onExit_ctl : (s.onExit f).ctl = s.ctl := rfl
@[simp] theorem onExit_config : (s.onExit f).config = s.config := rfl
@[simp] theorem onExit_pending : (s.onExit f).pending = s.pending := rfl
@[simp] theorem onExit_out : (s.onExit f).out = s.out := rfl
@[simp] theorem onExit_freeIndex : (s.onExit f).freeIndex = s.freeIndex := rfl

end

/-! ## onRetire -/

section
variable (f : Retire → Retire) (s : State)

@[simp] theorem onRetire_transport : (s.onRetire f).transport = s.transport := rfl
@[simp] theorem onRetire_clock : (s.onRetire f).clock = s.clock := rfl
@[simp] theorem onRetire_fetch : (s.onRetire f).fetch = s.fetch := rfl
@[simp] theorem onRetire_mail : (s.onRetire f).mail = s.mail := rfl
@[simp] theorem onRetire_launch : (s.onRetire f).launch = s.launch := rfl
@[simp] theorem onRetire_track : (s.onRetire f).track = s.track := rfl
@[simp] theorem onRetire_exit : (s.onRetire f).exit = s.exit := rfl
@[simp] theorem onRetire_retire : (s.onRetire f).retire = f s.retire := rfl
@[simp] theorem onRetire_jam : (s.onRetire f).jam = s.jam := rfl
@[simp] theorem onRetire_mem : (s.onRetire f).mem = s.mem := rfl
@[simp] theorem onRetire_ctl : (s.onRetire f).ctl = s.ctl := rfl
@[simp] theorem onRetire_config : (s.onRetire f).config = s.config := rfl
@[simp] theorem onRetire_pending : (s.onRetire f).pending = s.pending := rfl
@[simp] theorem onRetire_out : (s.onRetire f).out = s.out := rfl
@[simp] theorem onRetire_freeIndex : (s.onRetire f).freeIndex = s.freeIndex := rfl

end

/-! ## onJam -/

section
variable (f : Jam → Jam) (s : State)

@[simp] theorem onJam_transport : (s.onJam f).transport = s.transport := rfl
@[simp] theorem onJam_clock : (s.onJam f).clock = s.clock := rfl
@[simp] theorem onJam_fetch : (s.onJam f).fetch = s.fetch := rfl
@[simp] theorem onJam_mail : (s.onJam f).mail = s.mail := rfl
@[simp] theorem onJam_launch : (s.onJam f).launch = s.launch := rfl
@[simp] theorem onJam_track : (s.onJam f).track = s.track := rfl
@[simp] theorem onJam_exit : (s.onJam f).exit = s.exit := rfl
@[simp] theorem onJam_retire : (s.onJam f).retire = s.retire := rfl
@[simp] theorem onJam_jam : (s.onJam f).jam = f s.jam := rfl
@[simp] theorem onJam_mem : (s.onJam f).mem = s.mem := rfl
@[simp] theorem onJam_ctl : (s.onJam f).ctl = s.ctl := rfl
@[simp] theorem onJam_config : (s.onJam f).config = s.config := rfl
@[simp] theorem onJam_pending : (s.onJam f).pending = s.pending := rfl
@[simp] theorem onJam_out : (s.onJam f).out = s.out := rfl
@[simp] theorem onJam_freeIndex : (s.onJam f).freeIndex = s.freeIndex := rfl

end

/-! ## onMem -/

section
variable (f : Mem → Mem) (s : State)

@[simp] theorem onMem_transport : (s.onMem f).transport = s.transport := rfl
@[simp] theorem onMem_clock : (s.onMem f).clock = s.clock := rfl
@[simp] theorem onMem_fetch : (s.onMem f).fetch = s.fetch := rfl
@[simp] theorem onMem_mail : (s.onMem f).mail = s.mail := rfl
@[simp] theorem onMem_launch : (s.onMem f).launch = s.launch := rfl
@[simp] theorem onMem_track : (s.onMem f).track = s.track := rfl
@[simp] theorem onMem_exit : (s.onMem f).exit = s.exit := rfl
@[simp] theorem onMem_retire : (s.onMem f).retire = s.retire := rfl
@[simp] theorem onMem_jam : (s.onMem f).jam = s.jam := rfl
@[simp] theorem onMem_mem : (s.onMem f).mem = f s.mem := rfl
@[simp] theorem onMem_ctl : (s.onMem f).ctl = s.ctl := rfl
@[simp] theorem onMem_config : (s.onMem f).config = s.config := rfl
@[simp] theorem onMem_pending : (s.onMem f).pending = s.pending := rfl
@[simp] theorem onMem_out : (s.onMem f).out = s.out := rfl
@[simp] theorem onMem_freeIndex : (s.onMem f).freeIndex = s.freeIndex := rfl

end

/-! ## onCtl -/

section
variable (f : Control → Control) (s : State)

@[simp] theorem onCtl_transport : (s.onCtl f).transport = s.transport := rfl
@[simp] theorem onCtl_clock : (s.onCtl f).clock = s.clock := rfl
@[simp] theorem onCtl_fetch : (s.onCtl f).fetch = s.fetch := rfl
@[simp] theorem onCtl_mail : (s.onCtl f).mail = s.mail := rfl
@[simp] theorem onCtl_launch : (s.onCtl f).launch = s.launch := rfl
@[simp] theorem onCtl_track : (s.onCtl f).track = s.track := rfl
@[simp] theorem onCtl_exit : (s.onCtl f).exit = s.exit := rfl
@[simp] theorem onCtl_retire : (s.onCtl f).retire = s.retire := rfl
@[simp] theorem onCtl_jam : (s.onCtl f).jam = s.jam := rfl
@[simp] theorem onCtl_mem : (s.onCtl f).mem = s.mem := rfl
@[simp] theorem onCtl_ctl : (s.onCtl f).ctl = f s.ctl := rfl
@[simp] theorem onCtl_config : (s.onCtl f).config = s.config := rfl
@[simp] theorem onCtl_pending : (s.onCtl f).pending = s.pending := rfl
@[simp] theorem onCtl_out : (s.onCtl f).out = s.out := rfl
@[simp] theorem onCtl_freeIndex : (s.onCtl f).freeIndex = s.freeIndex := rfl

end

/-! ## fresh -/

section
variable (s : State)

@[simp] theorem fresh_transport : s.fresh.transport = s.transport := rfl
@[simp] theorem fresh_clock : s.fresh.clock = s.clock := rfl
@[simp] theorem fresh_fetch : s.fresh.fetch = s.fetch := rfl
@[simp] theorem fresh_mail : s.fresh.mail = s.mail := rfl
@[simp] theorem fresh_launch : s.fresh.launch = s.launch := rfl
@[simp] theorem fresh_track : s.fresh.track = s.track := rfl
@[simp] theorem fresh_exit : s.fresh.exit = s.exit := rfl
@[simp] theorem fresh_retire : s.fresh.retire = s.retire := rfl
@[simp] theorem fresh_jam : s.fresh.jam = s.jam := rfl
@[simp] theorem fresh_mem : s.fresh.mem = s.mem := rfl
@[simp] theorem fresh_ctl : s.fresh.ctl = s.ctl := rfl
@[simp] theorem fresh_config : s.fresh.config = s.config := rfl
@[simp] theorem fresh_pending : s.fresh.pending = s.pending := rfl
@[simp] theorem fresh_out : s.fresh.out = [] := rfl
@[simp] theorem fresh_freeIndex : s.fresh.freeIndex = s.freeIndex := rfl

end

/-! ## emit -/

section
variable (o : Output) (s : State)

@[simp] theorem emit_transport : (s.emit o).transport = s.transport := rfl
@[simp] theorem emit_clock : (s.emit o).clock = s.clock := rfl
@[simp] theorem emit_fetch : (s.emit o).fetch = s.fetch := rfl
@[simp] theorem emit_mail : (s.emit o).mail = s.mail := rfl
@[simp] theorem emit_launch : (s.emit o).launch = s.launch := rfl
@[simp] theorem emit_track : (s.emit o).track = s.track := rfl
@[simp] theorem emit_exit : (s.emit o).exit = s.exit := rfl
@[simp] theorem emit_retire : (s.emit o).retire = s.retire := rfl
@[simp] theorem emit_jam : (s.emit o).jam = s.jam := rfl
@[simp] theorem emit_mem : (s.emit o).mem = s.mem := rfl
@[simp] theorem emit_ctl : (s.emit o).ctl = s.ctl := rfl
@[simp] theorem emit_config : (s.emit o).config = s.config := rfl
@[simp] theorem emit_pending : (s.emit o).pending = s.pending := rfl
@[simp] theorem emit_out : (s.emit o).out = s.out ++ [o] := rfl
@[simp] theorem emit_freeIndex : (s.emit o).freeIndex = s.freeIndex := rfl

end

end Sys2Proof.Machine.State
end

