-- ==== Sys2Proof/Laws/Events.lean ====
section
/-! SUPPORT. What the shared forms of the meanings come to: an event, a command, the completion of a read, an edge at a
TRACKING section, an issued write, and what orders and restarts leave. Provers cite these in place of unfolding. -/

namespace Sys2Proof.Machine

set_option Elab.async false

open State

theorem event_eq (f : State → State) (s : State) : event f s = .next (f s.fresh) := rfl

theorem command_idle {s : State} (h : s.ctl.cmd = none) (code : Word) (take : State → State) :
    command code take s = .next (take s.fresh).finish := by
  simp [command, event, commandBusy, h]

theorem command_busy {s : State} (h : s.ctl.cmd.isSome = true) (code : Word) (take : State → State) :
    command code take s = .next (s.fresh.overrunCommand code) := by
  simp [command, event, commandBusy, h]

namespace State

/-- Two states with equal parts are equal. -/
theorem ext_parts {s t : State} (h1 : s.transport = t.transport) (h2 : s.clock = t.clock) (h3 : s.fetch = t.fetch)
    (h4 : s.mail = t.mail) (h5 : s.launch = t.launch) (h6 : s.track = t.track) (h7 : s.exit = t.exit)
    (h8 : s.retire = t.retire) (h9 : s.jam = t.jam) (h10 : s.mem = t.mem) (h11 : s.ctl = t.ctl)
    (h12 : s.config = t.config) (h13 : s.pending = t.pending) (h14 : s.out = t.out)
    (h15 : s.freeIndex = t.freeIndex) : s = t := by
  cases s; cases t; simp_all

theorem ended_eq (s : State) (code : Word) (o : CommandOutcome) : s.fresh.endCommand code o = s.ended code o := rfl

theorem sensorsClear_iff (s : State) : s.sensorsClear = true ↔ s.allClear := by
  simp only [sensorsClear, allClear, PerCheckpoint.toList, PerTray.toList, PerBin.toList]
  constructor
  · intro h c
    simp at h
    cases c with
    | fd t => cases t <;> simp [PerCheckpoint.get, PerTray.get, h]
    | stk b => cases b <;> simp [PerCheckpoint.get, PerBin.get, h]
    | _ => simp [PerCheckpoint.get, h]
  · intro h
    have h1 := h (.fd .t1)
    have h2 := h (.fd .t2)
    have h3 := h (.fd .t3)
    have h4 := h (.fd .t4)
    have h5 := h (.fd .t5)
    have h6 := h .mrg
    have h7 := h .reg
    have h8 := h .fus
    have h9 := h .inv
    have h10 := h .rtn
    have h11 := h .mrk
    have h12 := h (.stk .b1)
    have h13 := h (.stk .b2)
    have h14 := h (.stk .b3)
    have h15 := h (.stk .b4)
    have h16 := h .prg
    simp [PerCheckpoint.get, PerTray.get, PerBin.get] at *
    simp [*]

/-! ## Completions of reads -/

theorem readInProgress_fresh {s : State} {r : ReadReq} (h : s.mem.bus = some ⟨.read r, false⟩) :
    s.fresh.readInProgress = some r.purpose := by
  simp [readInProgress, fresh, h]

theorem completeRead_of_read {s : State} {r : ReadReq} {p : Purpose} (h : s.mem.bus = some ⟨.read r, false⟩)
    (hp : r.purpose = p) (use : State → State) :
    s.fresh.completeRead p use = (use s.fresh.freeBus).finish := by
  simp [completeRead, readInProgress_fresh h, hp]

theorem completeFetchRead_of_read {s : State} {r : ReadReq} {k : FetchRead} (h : s.mem.bus = some ⟨.read r, false⟩)
    (hp : r.purpose = .fetch k) (use : State → State) (hf : s.fetch.read = some ⟨k, false⟩) :
    s.fresh.completeFetchRead k use = (use s.fresh.freeBus.endRead).finish := by
  rw [completeFetchRead, completeRead_of_read h hp]
  have : s.fresh.freeBus.fetch.read = some ⟨k, false⟩ := hf
  simp only [useFetchRead, this, if_true]

theorem completeRead_without_read {s : State} {p : Purpose} (use : State → State)
    (h : ∀ r cut, s.mem.bus = some ⟨.read r, cut⟩ → r.purpose ≠ p) : s.completeRead p use = s := by
  rcases hb : s.mem.bus with _ | ⟨a, cut⟩
  · simp [completeRead, readInProgress, cutRead, hb]
  · cases a with
    | write w => simp [completeRead, readInProgress, cutRead, hb]
    | read r =>
      have hn := h r cut hb
      cases cut <;> simp [completeRead, readInProgress, cutRead, hb, hn]

/-! ## Edges at TRACKING sections -/

theorem leadingEdge_tracking {s : State} {c : Checkpoint} (h : s.transport.sensors.get c = false)
    (ht : s.track.tracking.get c.sec = true) :
    s.fresh.leadingEdge c = (s.fresh.setSensor c true).matchLeading c s.transport.count := by
  have h1 : s.fresh.transport.sensors.get c = false := h
  have h2 : (s.fresh.setSensor c true).isTracking c = true := ht
  simp only [leadingEdge, h1, h2, if_true, Bool.false_eq_true, if_false]
  rfl

theorem trailingEdge_tracking {s : State} {c : Checkpoint} (h : s.transport.sensors.get c = true)
    (ht : s.track.tracking.get c.sec = true) :
    s.fresh.trailingEdge c = (s.fresh.setSensor c false).matchTrailing c s.transport.count := by
  have h1 : s.fresh.transport.sensors.get c = true := h
  have h2 : (s.fresh.setSensor c false).isTracking c = true := ht
  simp only [trailingEdge, h1, h2, if_true]
  rfl

/-! ## Shared operations -/

theorem issueWrite_room {s : State} (h : s.queueHasRoom = true) (w : Write) (later : HeldSteps) (steps : State → State) :
    s.issueWrite w later steps = steps { s with mem := { s.mem with queue := s.mem.queue ++ [w] } } := by
  simp [issueWrite, h, onMem]

theorem issueWrite_full {s : State} (h : s.queueHasRoom = false) (w : Write) (later : HeldSteps) (steps : State → State) :
    s.issueWrite w later steps = { s with mem := { s.mem with held := s.mem.held ++ [⟨w, later⟩] } } := by
  simp [issueWrite, h, onMem]

/-- A sheet found by its serial number is in the table and has that number. -/
theorem findSheet_mem_id {s : State} {i : Nat} {x : Sheet} (h : s.findSheet i = some x) :
    x ∈ s.track.sheets ∧ x.id = i := by
  unfold findSheet at h
  exact ⟨List.mem_of_find?_eq_some h, by have := List.find?_some h; simpa using this⟩

/-- With one record of a number, an update of that number puts the updated record in its place. -/
theorem updSheet_unique {s : State} {x : Sheet} (h : s.track.sheets.filter (·.id = x.id) = [x]) (f : Sheet → Sheet) :
    (s.updSheet x.id f).track.sheets = s.track.sheets.map fun y => if y.id = x.id then f x else y := by
  simp only [updSheet, onTrack]
  apply List.map_congr_left
  intro y hy
  split
  · rename_i he
    have hm : y ∈ s.track.sheets.filter (·.id = x.id) := by simp [hy, he]
    rw [h] at hm
    simp at hm
    rw [hm]
  · rfl

/-- Following an address changes the fetch position and, through a chain fault, attention, skip reason and writes. -/
theorem follow_fetch (src : FaultSource) (a : Word) (s : State) : (s.follow src a).fetch =
    { s.fetch with pos := if s.orderAddrOk a then .next a else .chainFault src } := by
  simp only [follow]
  split
  · rfl
  · simp only [chainFault, issueWrite]; split <;> rfl

theorem follow_parts (src : FaultSource) (a : Word) (s : State) : s.follow src a =
    { s with
      fetch := (s.follow src a).fetch, ctl := (s.follow src a).ctl, mem := (s.follow src a).mem } := by
  simp only [follow]
  split
  · rfl
  · simp only [chainFault, issueWrite]; split <;> rfl

theorem follow_ctl (src : FaultSource) (a : Word) (s : State) : (s.follow src a).ctl =
    { s.ctl with attn := (s.follow src a).ctl.attn, lastSkip := (s.follow src a).ctl.lastSkip } := by
  simp only [follow]
  split
  · rfl
  · simp only [chainFault, issueWrite]; split <;> rfl

/-- The window check depends on AREA and the window length alone. -/
theorem orderAddrOk_congr {s t : State} (h1 : t.ctl.area = s.ctl.area) (h2 : t.mem.windowLength = s.mem.windowLength)
    (a : Word) : t.orderAddrOk a = s.orderAddrOk a := by
  simp [orderAddrOk, h1, h2]

/-- A run-up order changes the transport, the tracking, the launch counters and the bin wait arming alone. -/
theorem runUpOrder_parts (s : State) : s.runUpOrder =
    { s with
      transport := s.runUpOrder.transport, track := s.runUpOrder.track, launch := s.runUpOrder.launch
      mail := s.runUpOrder.mail } := by
  simp only [runUpOrder]; split <;> rfl

theorem runUpOrder_congr {s t : State} (h1 : t.transport = s.transport) (h2 : t.config = s.config)
    (h3 : t.track = s.track) (h4 : t.launch = s.launch) (h5 : t.mail = s.mail) :
    t.runUpOrder.transport = s.runUpOrder.transport ∧ t.runUpOrder.track = s.runUpOrder.track
      ∧ t.runUpOrder.launch = s.runUpOrder.launch ∧ t.runUpOrder.mail = s.runUpOrder.mail := by
  simp only [runUpOrder, h1]
  split <;> simp [startRunUp, onTransport, onTrack, onLaunch, onMail, *]

/-- What the acceptance of RESUME and RECOVER leaves before the fetch is given its start. -/
theorem restart_parts (s : State) : ∃ r : State, restart s.fresh = r ∧ r.ctl = { s.ctl with state := .running }
    ∧ r.jam = { s.jam with recoveryPending := false } ∧ r.fetch = s.fetch ∧ r.mem = s.mem
    ∧ r.transport = s.runUpOrder.transport ∧ r.track = s.runUpOrder.track ∧ r.launch = s.runUpOrder.launch
    ∧ r.mail = s.runUpOrder.mail ∧ r.clock = s.clock ∧ r.exit = s.exit ∧ r.retire = s.retire
    ∧ r.config = s.config ∧ r.pending = s.pending ∧ r.out = [] ∧ r.freeIndex = s.freeIndex := by
  refine ⟨_, rfl, ?_⟩
  simp only [restart]
  have h := runUpOrder_congr (t := (onJam (fun u => { u with recoveryPending := false }) (setState .running s.fresh)))
    (s := s) rfl rfl rfl rfl rfl
  rw [runUpOrder_parts]
  exact ⟨rfl, rfl, rfl, rfl, h.1, h.2.1, h.2.2.1, h.2.2.2, rfl, rfl, rfl, rfl, rfl, rfl, rfl⟩

end State

/-! ## Words -/

@[simp] theorem wordAddr_zero (a : Word) : wordAddr a 0 = a := by simp [wordAddr]

/-- A bit of a placed field is a bit of its number, from the place on. -/
theorem placed_getLsbD (lo n k : Nat) :
    (placed lo n).getLsbD k = (decide (k < 32) && (decide (lo ≤ k) && n.testBit (k - lo))) := by
  simp only [placed, BitVec.getLsbD_ofNat]
  congr 1
  rw [← Nat.shiftLeft_eq, Nat.testBit_shiftLeft]

end Sys2Proof.Machine
end

