-- ==== Sys2Proof/Laws/FrameBase.lean ====
section
/-! SUPPORT. What a fold of updates and an issued write leave unchanged, field by field. -/

namespace Sys2Proof.Machine.State

set_option Elab.async false

@[simp] theorem foldl_transport {α : Type} (f : State → α → State) (h : ∀ s a, (f s a).transport = s.transport) :
    (l : List α) → (s : State) → (l.foldl f s).transport = s.transport
  | [], _ => rfl
  | a :: l, s => (foldl_transport f h l (f s a)).trans (h s a)
@[simp] theorem issueWrite_transport (w : Write) (l : HeldSteps) (f : State → State) (s : State) (h : ∀ s, (f s).transport = s.transport) :
    (s.issueWrite w l f).transport = s.transport := by
  unfold issueWrite; split <;> simp [h]
@[simp] theorem foldl_transport_count {α : Type} (f : State → α → State) (h : ∀ s a, (f s a).transport.count = s.transport.count) :
    (l : List α) → (s : State) → (l.foldl f s).transport.count = s.transport.count
  | [], _ => rfl
  | a :: l, s => (foldl_transport_count f h l (f s a)).trans (h s a)
@[simp] theorem issueWrite_transport_count (w : Write) (l : HeldSteps) (f : State → State) (s : State) (h : ∀ s, (f s).transport.count = s.transport.count) :
    (s.issueWrite w l f).transport.count = s.transport.count := by
  unfold issueWrite; split <;> simp [h]
@[simp] theorem foldl_transport_run {α : Type} (f : State → α → State) (h : ∀ s a, (f s a).transport.run = s.transport.run) :
    (l : List α) → (s : State) → (l.foldl f s).transport.run = s.transport.run
  | [], _ => rfl
  | a :: l, s => (foldl_transport_run f h l (f s a)).trans (h s a)
@[simp] theorem issueWrite_transport_run (w : Write) (l : HeldSteps) (f : State → State) (s : State) (h : ∀ s, (f s).transport.run = s.transport.run) :
    (s.issueWrite w l f).transport.run = s.transport.run := by
  unfold issueWrite; split <;> simp [h]
@[simp] theorem foldl_transport_state {α : Type} (f : State → α → State) (h : ∀ s a, (f s a).transport.state = s.transport.state) :
    (l : List α) → (s : State) → (l.foldl f s).transport.state = s.transport.state
  | [], _ => rfl
  | a :: l, s => (foldl_transport_state f h l (f s a)).trans (h s a)
@[simp] theorem issueWrite_transport_state (w : Write) (l : HeldSteps) (f : State → State) (s : State) (h : ∀ s, (f s).transport.state = s.transport.state) :
    (s.issueWrite w l f).transport.state = s.transport.state := by
  unfold issueWrite; split <;> simp [h]
@[simp] theorem foldl_transport_heldRunUp {α : Type} (f : State → α → State) (h : ∀ s a, (f s a).transport.heldRunUp = s.transport.heldRunUp) :
    (l : List α) → (s : State) → (l.foldl f s).transport.heldRunUp = s.transport.heldRunUp
  | [], _ => rfl
  | a :: l, s => (foldl_transport_heldRunUp f h l (f s a)).trans (h s a)
@[simp] theorem issueWrite_transport_heldRunUp (w : Write) (l : HeldSteps) (f : State → State) (s : State) (h : ∀ s, (f s).transport.heldRunUp = s.transport.heldRunUp) :
    (s.issueWrite w l f).transport.heldRunUp = s.transport.heldRunUp := by
  unfold issueWrite; split <;> simp [h]
@[simp] theorem foldl_transport_sensors {α : Type} (f : State → α → State) (h : ∀ s a, (f s a).transport.sensors = s.transport.sensors) :
    (l : List α) → (s : State) → (l.foldl f s).transport.sensors = s.transport.sensors
  | [], _ => rfl
  | a :: l, s => (foldl_transport_sensors f h l (f s a)).trans (h s a)
@[simp] theorem issueWrite_transport_sensors (w : Write) (l : HeldSteps) (f : State → State) (s : State) (h : ∀ s, (f s).transport.sensors = s.transport.sensors) :
    (s.issueWrite w l f).transport.sensors = s.transport.sensors := by
  unfold issueWrite; split <;> simp [h]
@[simp] theorem foldl_transport_ref {α : Type} (f : State → α → State) (h : ∀ s a, (f s a).transport.ref = s.transport.ref) :
    (l : List α) → (s : State) → (l.foldl f s).transport.ref = s.transport.ref
  | [], _ => rfl
  | a :: l, s => (foldl_transport_ref f h l (f s a)).trans (h s a)
@[simp] theorem issueWrite_transport_ref (w : Write) (l : HeldSteps) (f : State → State) (s : State) (h : ∀ s, (f s).transport.ref = s.transport.ref) :
    (s.issueWrite w l f).transport.ref = s.transport.ref := by
  unfold issueWrite; split <;> simp [h]
@[simp] theorem foldl_transport_below {α : Type} (f : State → α → State) (h : ∀ s a, (f s a).transport.below = s.transport.below) :
    (l : List α) → (s : State) → (l.foldl f s).transport.below = s.transport.below
  | [], _ => rfl
  | a :: l, s => (foldl_transport_below f h l (f s a)).trans (h s a)
@[simp] theorem issueWrite_transport_below (w : Write) (l : HeldSteps) (f : State → State) (s : State) (h : ∀ s, (f s).transport.below = s.transport.below) :
    (s.issueWrite w l f).transport.below = s.transport.below := by
  unfold issueWrite; split <;> simp [h]
@[simp] theorem foldl_transport_allInBand {α : Type} (f : State → α → State) (h : ∀ s a, (f s a).transport.allInBand = s.transport.allInBand) :
    (l : List α) → (s : State) → (l.foldl f s).transport.allInBand = s.transport.allInBand
  | [], _ => rfl
  | a :: l, s => (foldl_transport_allInBand f h l (f s a)).trans (h s a)
@[simp] theorem issueWrite_transport_allInBand (w : Write) (l : HeldSteps) (f : State → State) (s : State) (h : ∀ s, (f s).transport.allInBand = s.transport.allInBand) :
    (s.issueWrite w l f).transport.allInBand = s.transport.allInBand := by
  unfold issueWrite; split <;> simp [h]
@[simp] theorem foldl_transport_runUpTimer {α : Type} (f : State → α → State) (h : ∀ s a, (f s a).transport.runUpTimer = s.transport.runUpTimer) :
    (l : List α) → (s : State) → (l.foldl f s).transport.runUpTimer = s.transport.runUpTimer
  | [], _ => rfl
  | a :: l, s => (foldl_transport_runUpTimer f h l (f s a)).trans (h s a)
@[simp] theorem issueWrite_transport_runUpTimer (w : Write) (l : HeldSteps) (f : State → State) (s : State) (h : ∀ s, (f s).transport.runUpTimer = s.transport.runUpTimer) :
    (s.issueWrite w l f).transport.runUpTimer = s.transport.runUpTimer := by
  unfold issueWrite; split <;> simp [h]
@[simp] theorem foldl_transport_samplePeriod {α : Type} (f : State → α → State) (h : ∀ s a, (f s a).transport.samplePeriod = s.transport.samplePeriod) :
    (l : List α) → (s : State) → (l.foldl f s).transport.samplePeriod = s.transport.samplePeriod
  | [], _ => rfl
  | a :: l, s => (foldl_transport_samplePeriod f h l (f s a)).trans (h s a)
@[simp] theorem issueWrite_transport_samplePeriod (w : Write) (l : HeldSteps) (f : State → State) (s : State) (h : ∀ s, (f s).transport.samplePeriod = s.transport.samplePeriod) :
    (s.issueWrite w l f).transport.samplePeriod = s.transport.samplePeriod := by
  unfold issueWrite; split <;> simp [h]
@[simp] theorem foldl_transport_compares {α : Type} (f : State → α → State) (h : ∀ s a, (f s a).transport.compares = s.transport.compares) :
    (l : List α) → (s : State) → (l.foldl f s).transport.compares = s.transport.compares
  | [], _ => rfl
  | a :: l, s => (foldl_transport_compares f h l (f s a)).trans (h s a)
@[simp] theorem issueWrite_transport_compares (w : Write) (l : HeldSteps) (f : State → State) (s : State) (h : ∀ s, (f s).transport.compares = s.transport.compares) :
    (s.issueWrite w l f).transport.compares = s.transport.compares := by
  unfold issueWrite; split <;> simp [h]
@[simp] theorem foldl_transport_speedDeviation {α : Type} (f : State → α → State) (h : ∀ s a, (f s a).transport.speedDeviation = s.transport.speedDeviation) :
    (l : List α) → (s : State) → (l.foldl f s).transport.speedDeviation = s.transport.speedDeviation
  | [], _ => rfl
  | a :: l, s => (foldl_transport_speedDeviation f h l (f s a)).trans (h s a)
@[simp] theorem issueWrite_transport_speedDeviation (w : Write) (l : HeldSteps) (f : State → State) (s : State) (h : ∀ s, (f s).transport.speedDeviation = s.transport.speedDeviation) :
    (s.issueWrite w l f).transport.speedDeviation = s.transport.speedDeviation := by
  unfold issueWrite; split <;> simp [h]
@[simp] theorem foldl_clock {α : Type} (f : State → α → State) (h : ∀ s a, (f s a).clock = s.clock) :
    (l : List α) → (s : State) → (l.foldl f s).clock = s.clock
  | [], _ => rfl
  | a :: l, s => (foldl_clock f h l (f s a)).trans (h s a)
@[simp] theorem issueWrite_clock (w : Write) (l : HeldSteps) (f : State → State) (s : State) (h : ∀ s, (f s).clock = s.clock) :
    (s.issueWrite w l f).clock = s.clock := by
  unfold issueWrite; split <;> simp [h]
@[simp] theorem foldl_clock_running {α : Type} (f : State → α → State) (h : ∀ s a, (f s a).clock.running = s.clock.running) :
    (l : List α) → (s : State) → (l.foldl f s).clock.running = s.clock.running
  | [], _ => rfl
  | a :: l, s => (foldl_clock_running f h l (f s a)).trans (h s a)
@[simp] theorem issueWrite_clock_running (w : Write) (l : HeldSteps) (f : State → State) (s : State) (h : ∀ s, (f s).clock.running = s.clock.running) :
    (s.issueWrite w l f).clock.running = s.clock.running := by
  unfold issueWrite; split <;> simp [h]
@[simp] theorem foldl_clock_pitch {α : Type} (f : State → α → State) (h : ∀ s a, (f s a).clock.pitch = s.clock.pitch) :
    (l : List α) → (s : State) → (l.foldl f s).clock.pitch = s.clock.pitch
  | [], _ => rfl
  | a :: l, s => (foldl_clock_pitch f h l (f s a)).trans (h s a)
@[simp] theorem issueWrite_clock_pitch (w : Write) (l : HeldSteps) (f : State → State) (s : State) (h : ∀ s, (f s).clock.pitch = s.clock.pitch) :
    (s.issueWrite w l f).clock.pitch = s.clock.pitch := by
  unfold issueWrite; split <;> simp [h]
@[simp] theorem foldl_clock_boundary {α : Type} (f : State → α → State) (h : ∀ s a, (f s a).clock.boundary = s.clock.boundary) :
    (l : List α) → (s : State) → (l.foldl f s).clock.boundary = s.clock.boundary
  | [], _ => rfl
  | a :: l, s => (foldl_clock_boundary f h l (f s a)).trans (h s a)
@[simp] theorem issueWrite_clock_boundary (w : Write) (l : HeldSteps) (f : State → State) (s : State) (h : ∀ s, (f s).clock.boundary = s.clock.boundary) :
    (s.issueWrite w l f).clock.boundary = s.clock.boundary := by
  unfold issueWrite; split <;> simp [h]
@[simp] theorem foldl_clock_ring {α : Type} (f : State → α → State) (h : ∀ s a, (f s a).clock.ring = s.clock.ring) :
    (l : List α) → (s : State) → (l.foldl f s).clock.ring = s.clock.ring
  | [], _ => rfl
  | a :: l, s => (foldl_clock_ring f h l (f s a)).trans (h s a)
@[simp] theorem issueWrite_clock_ring (w : Write) (l : HeldSteps) (f : State → State) (s : State) (h : ∀ s, (f s).clock.ring = s.clock.ring) :
    (s.issueWrite w l f).clock.ring = s.clock.ring := by
  unfold issueWrite; split <;> simp [h]
@[simp] theorem foldl_clock_lastFinal {α : Type} (f : State → α → State) (h : ∀ s a, (f s a).clock.lastFinal = s.clock.lastFinal) :
    (l : List α) → (s : State) → (l.foldl f s).clock.lastFinal = s.clock.lastFinal
  | [], _ => rfl
  | a :: l, s => (foldl_clock_lastFinal f h l (f s a)).trans (h s a)
@[simp] theorem issueWrite_clock_lastFinal (w : Write) (l : HeldSteps) (f : State → State) (s : State) (h : ∀ s, (f s).clock.lastFinal = s.clock.lastFinal) :
    (s.issueWrite w l f).clock.lastFinal = s.clock.lastFinal := by
  unfold issueWrite; split <;> simp [h]
@[simp] theorem foldl_clock_loopUnusable {α : Type} (f : State → α → State) (h : ∀ s a, (f s a).clock.loopUnusable = s.clock.loopUnusable) :
    (l : List α) → (s : State) → (l.foldl f s).clock.loopUnusable = s.clock.loopUnusable
  | [], _ => rfl
  | a :: l, s => (foldl_clock_loopUnusable f h l (f s a)).trans (h s a)
@[simp] theorem issueWrite_clock_loopUnusable (w : Write) (l : HeldSteps) (f : State → State) (s : State) (h : ∀ s, (f s).clock.loopUnusable = s.clock.loopUnusable) :
    (s.issueWrite w l f).clock.loopUnusable = s.clock.loopUnusable := by
  unfold issueWrite; split <;> simp [h]
@[simp] theorem foldl_fetch {α : Type} (f : State → α → State) (h : ∀ s a, (f s a).fetch = s.fetch) :
    (l : List α) → (s : State) → (l.foldl f s).fetch = s.fetch
  | [], _ => rfl
  | a :: l, s => (foldl_fetch f h l (f s a)).trans (h s a)
@[simp] theorem issueWrite_fetch (w : Write) (l : HeldSteps) (f : State → State) (s : State) (h : ∀ s, (f s).fetch = s.fetch) :
    (s.issueWrite w l f).fetch = s.fetch := by
  unfold issueWrite; split <;> simp [h]
@[simp] theorem foldl_fetch_pos {α : Type} (f : State → α → State) (h : ∀ s a, (f s a).fetch.pos = s.fetch.pos) :
    (l : List α) → (s : State) → (l.foldl f s).fetch.pos = s.fetch.pos
  | [], _ => rfl
  | a :: l, s => (foldl_fetch_pos f h l (f s a)).trans (h s a)
@[simp] theorem issueWrite_fetch_pos (w : Write) (l : HeldSteps) (f : State → State) (s : State) (h : ∀ s, (f s).fetch.pos = s.fetch.pos) :
    (s.issueWrite w l f).fetch.pos = s.fetch.pos := by
  unfold issueWrite; split <;> simp [h]
@[simp] theorem foldl_fetch_window {α : Type} (f : State → α → State) (h : ∀ s a, (f s a).fetch.window = s.fetch.window) :
    (l : List α) → (s : State) → (l.foldl f s).fetch.window = s.fetch.window
  | [], _ => rfl
  | a :: l, s => (foldl_fetch_window f h l (f s a)).trans (h s a)
@[simp] theorem issueWrite_fetch_window (w : Write) (l : HeldSteps) (f : State → State) (s : State) (h : ∀ s, (f s).fetch.window = s.fetch.window) :
    (s.issueWrite w l f).fetch.window = s.fetch.window := by
  unfold issueWrite; split <;> simp [h]
@[simp] theorem foldl_fetch_stack {α : Type} (f : State → α → State) (h : ∀ s a, (f s a).fetch.stack = s.fetch.stack) :
    (l : List α) → (s : State) → (l.foldl f s).fetch.stack = s.fetch.stack
  | [], _ => rfl
  | a :: l, s => (foldl_fetch_stack f h l (f s a)).trans (h s a)
@[simp] theorem issueWrite_fetch_stack (w : Write) (l : HeldSteps) (f : State → State) (s : State) (h : ∀ s, (f s).fetch.stack = s.fetch.stack) :
    (s.issueWrite w l f).fetch.stack = s.fetch.stack := by
  unfold issueWrite; split <;> simp [h]
@[simp] theorem foldl_fetch_outer {α : Type} (f : State → α → State) (h : ∀ s a, (f s a).fetch.outer = s.fetch.outer) :
    (l : List α) → (s : State) → (l.foldl f s).fetch.outer = s.fetch.outer
  | [], _ => rfl
  | a :: l, s => (foldl_fetch_outer f h l (f s a)).trans (h s a)
@[simp] theorem issueWrite_fetch_outer (w : Write) (l : HeldSteps) (f : State → State) (s : State) (h : ∀ s, (f s).fetch.outer = s.fetch.outer) :
    (s.issueWrite w l f).fetch.outer = s.fetch.outer := by
  unfold issueWrite; split <;> simp [h]
@[simp] theorem foldl_fetch_chain {α : Type} (f : State → α → State) (h : ∀ s a, (f s a).fetch.chain = s.fetch.chain) :
    (l : List α) → (s : State) → (l.foldl f s).fetch.chain = s.fetch.chain
  | [], _ => rfl
  | a :: l, s => (foldl_fetch_chain f h l (f s a)).trans (h s a)
@[simp] theorem issueWrite_fetch_chain (w : Write) (l : HeldSteps) (f : State → State) (s : State) (h : ∀ s, (f s).fetch.chain = s.fetch.chain) :
    (s.issueWrite w l f).fetch.chain = s.fetch.chain := by
  unfold issueWrite; split <;> simp [h]
@[simp] theorem foldl_fetch_resync {α : Type} (f : State → α → State) (h : ∀ s a, (f s a).fetch.resync = s.fetch.resync) :
    (l : List α) → (s : State) → (l.foldl f s).fetch.resync = s.fetch.resync
  | [], _ => rfl
  | a :: l, s => (foldl_fetch_resync f h l (f s a)).trans (h s a)
@[simp] theorem issueWrite_fetch_resync (w : Write) (l : HeldSteps) (f : State → State) (s : State) (h : ∀ s, (f s).fetch.resync = s.fetch.resync) :
    (s.issueWrite w l f).fetch.resync = s.fetch.resync := by
  unfold issueWrite; split <;> simp [h]
@[simp] theorem foldl_fetch_read {α : Type} (f : State → α → State) (h : ∀ s a, (f s a).fetch.read = s.fetch.read) :
    (l : List α) → (s : State) → (l.foldl f s).fetch.read = s.fetch.read
  | [], _ => rfl
  | a :: l, s => (foldl_fetch_read f h l (f s a)).trans (h s a)
@[simp] theorem issueWrite_fetch_read (w : Write) (l : HeldSteps) (f : State → State) (s : State) (h : ∀ s, (f s).fetch.read = s.fetch.read) :
    (s.issueWrite w l f).fetch.read = s.fetch.read := by
  unfold issueWrite; split <;> simp [h]
@[simp] theorem foldl_fetch_rereadAsked {α : Type} (f : State → α → State) (h : ∀ s a, (f s a).fetch.rereadAsked = s.fetch.rereadAsked) :
    (l : List α) → (s : State) → (l.foldl f s).fetch.rereadAsked = s.fetch.rereadAsked
  | [], _ => rfl
  | a :: l, s => (foldl_fetch_rereadAsked f h l (f s a)).trans (h s a)
@[simp] theorem issueWrite_fetch_rereadAsked (w : Write) (l : HeldSteps) (f : State → State) (s : State) (h : ∀ s, (f s).fetch.rereadAsked = s.fetch.rereadAsked) :
    (s.issueWrite w l f).fetch.rereadAsked = s.fetch.rereadAsked := by
  unfold issueWrite; split <;> simp [h]
@[simp] theorem foldl_fetch_nextId {α : Type} (f : State → α → State) (h : ∀ s a, (f s a).fetch.nextId = s.fetch.nextId) :
    (l : List α) → (s : State) → (l.foldl f s).fetch.nextId = s.fetch.nextId
  | [], _ => rfl
  | a :: l, s => (foldl_fetch_nextId f h l (f s a)).trans (h s a)
@[simp] theorem issueWrite_fetch_nextId (w : Write) (l : HeldSteps) (f : State → State) (s : State) (h : ∀ s, (f s).fetch.nextId = s.fetch.nextId) :
    (s.issueWrite w l f).fetch.nextId = s.fetch.nextId := by
  unfold issueWrite; split <;> simp [h]
@[simp] theorem foldl_mail {α : Type} (f : State → α → State) (h : ∀ s a, (f s a).mail = s.mail) :
    (l : List α) → (s : State) → (l.foldl f s).mail = s.mail
  | [], _ => rfl
  | a :: l, s => (foldl_mail f h l (f s a)).trans (h s a)
@[simp] theorem issueWrite_mail (w : Write) (l : HeldSteps) (f : State → State) (s : State) (h : ∀ s, (f s).mail = s.mail) :
    (s.issueWrite w l f).mail = s.mail := by
  unfold issueWrite; split <;> simp [h]
@[simp] theorem foldl_mail_table {α : Type} (f : State → α → State) (h : ∀ s a, (f s a).mail.table = s.mail.table) :
    (l : List α) → (s : State) → (l.foldl f s).mail.table = s.mail.table
  | [], _ => rfl
  | a :: l, s => (foldl_mail_table f h l (f s a)).trans (h s a)
@[simp] theorem issueWrite_mail_table (w : Write) (l : HeldSteps) (f : State → State) (s : State) (h : ∀ s, (f s).mail.table = s.mail.table) :
    (s.issueWrite w l f).mail.table = s.mail.table := by
  unfold issueWrite; split <;> simp [h]
@[simp] theorem foldl_mail_bins {α : Type} (f : State → α → State) (h : ∀ s a, (f s a).mail.bins = s.mail.bins) :
    (l : List α) → (s : State) → (l.foldl f s).mail.bins = s.mail.bins
  | [], _ => rfl
  | a :: l, s => (foldl_mail_bins f h l (f s a)).trans (h s a)
@[simp] theorem issueWrite_mail_bins (w : Write) (l : HeldSteps) (f : State → State) (s : State) (h : ∀ s, (f s).mail.bins = s.mail.bins) :
    (s.issueWrite w l f).mail.bins = s.mail.bins := by
  unfold issueWrite; split <;> simp [h]
@[simp] theorem foldl_mail_purgeCount {α : Type} (f : State → α → State) (h : ∀ s a, (f s a).mail.purgeCount = s.mail.purgeCount) :
    (l : List α) → (s : State) → (l.foldl f s).mail.purgeCount = s.mail.purgeCount
  | [], _ => rfl
  | a :: l, s => (foldl_mail_purgeCount f h l (f s a)).trans (h s a)
@[simp] theorem issueWrite_mail_purgeCount (w : Write) (l : HeldSteps) (f : State → State) (s : State) (h : ∀ s, (f s).mail.purgeCount = s.mail.purgeCount) :
    (s.issueWrite w l f).mail.purgeCount = s.mail.purgeCount := by
  unfold issueWrite; split <;> simp [h]
@[simp] theorem foldl_mail_purgeFull {α : Type} (f : State → α → State) (h : ∀ s a, (f s a).mail.purgeFull = s.mail.purgeFull) :
    (l : List α) → (s : State) → (l.foldl f s).mail.purgeFull = s.mail.purgeFull
  | [], _ => rfl
  | a :: l, s => (foldl_mail_purgeFull f h l (f s a)).trans (h s a)
@[simp] theorem issueWrite_mail_purgeFull (w : Write) (l : HeldSteps) (f : State → State) (s : State) (h : ∀ s, (f s).mail.purgeFull = s.mail.purgeFull) :
    (s.issueWrite w l f).mail.purgeFull = s.mail.purgeFull := by
  unfold issueWrite; split <;> simp [h]
@[simp] theorem foldl_mail_binWaitArm {α : Type} (f : State → α → State) (h : ∀ s a, (f s a).mail.binWaitArm = s.mail.binWaitArm) :
    (l : List α) → (s : State) → (l.foldl f s).mail.binWaitArm = s.mail.binWaitArm
  | [], _ => rfl
  | a :: l, s => (foldl_mail_binWaitArm f h l (f s a)).trans (h s a)
@[simp] theorem issueWrite_mail_binWaitArm (w : Write) (l : HeldSteps) (f : State → State) (s : State) (h : ∀ s, (f s).mail.binWaitArm = s.mail.binWaitArm) :
    (s.issueWrite w l f).mail.binWaitArm = s.mail.binWaitArm := by
  unfold issueWrite; split <;> simp [h]
@[simp] theorem foldl_mail_waitingOpen {α : Type} (f : State → α → State) (h : ∀ s a, (f s a).mail.waitingOpen = s.mail.waitingOpen) :
    (l : List α) → (s : State) → (l.foldl f s).mail.waitingOpen = s.mail.waitingOpen
  | [], _ => rfl
  | a :: l, s => (foldl_mail_waitingOpen f h l (f s a)).trans (h s a)
@[simp] theorem issueWrite_mail_waitingOpen (w : Write) (l : HeldSteps) (f : State → State) (s : State) (h : ∀ s, (f s).mail.waitingOpen = s.mail.waitingOpen) :
    (s.issueWrite w l f).mail.waitingOpen = s.mail.waitingOpen := by
  unfold issueWrite; split <;> simp [h]
@[simp] theorem foldl_mail_nextId {α : Type} (f : State → α → State) (h : ∀ s a, (f s a).mail.nextId = s.mail.nextId) :
    (l : List α) → (s : State) → (l.foldl f s).mail.nextId = s.mail.nextId
  | [], _ => rfl
  | a :: l, s => (foldl_mail_nextId f h l (f s a)).trans (h s a)
@[simp] theorem issueWrite_mail_nextId (w : Write) (l : HeldSteps) (f : State → State) (s : State) (h : ∀ s, (f s).mail.nextId = s.mail.nextId) :
    (s.issueWrite w l f).mail.nextId = s.mail.nextId := by
  unfold issueWrite; split <;> simp [h]
@[simp] theorem foldl_launch {α : Type} (f : State → α → State) (h : ∀ s a, (f s a).launch = s.launch) :
    (l : List α) → (s : State) → (l.foldl f s).launch = s.launch
  | [], _ => rfl
  | a :: l, s => (foldl_launch f h l (f s a)).trans (h s a)
@[simp] theorem issueWrite_launch (w : Write) (l : HeldSteps) (f : State → State) (s : State) (h : ∀ s, (f s).launch = s.launch) :
    (s.issueWrite w l f).launch = s.launch := by
  unfold issueWrite; split <;> simp [h]
@[simp] theorem foldl_launch_schedule {α : Type} (f : State → α → State) (h : ∀ s a, (f s a).launch.schedule = s.launch.schedule) :
    (l : List α) → (s : State) → (l.foldl f s).launch.schedule = s.launch.schedule
  | [], _ => rfl
  | a :: l, s => (foldl_launch_schedule f h l (f s a)).trans (h s a)
@[simp] theorem issueWrite_launch_schedule (w : Write) (l : HeldSteps) (f : State → State) (s : State) (h : ∀ s, (f s).launch.schedule = s.launch.schedule) :
    (s.issueWrite w l f).launch.schedule = s.launch.schedule := by
  unfold issueWrite; split <;> simp [h]
@[simp] theorem foldl_launch_candidate {α : Type} (f : State → α → State) (h : ∀ s a, (f s a).launch.candidate = s.launch.candidate) :
    (l : List α) → (s : State) → (l.foldl f s).launch.candidate = s.launch.candidate
  | [], _ => rfl
  | a :: l, s => (foldl_launch_candidate f h l (f s a)).trans (h s a)
@[simp] theorem issueWrite_launch_candidate (w : Write) (l : HeldSteps) (f : State → State) (s : State) (h : ∀ s, (f s).launch.candidate = s.launch.candidate) :
    (s.issueWrite w l f).launch.candidate = s.launch.candidate := by
  unfold issueWrite; split <;> simp [h]
@[simp] theorem foldl_launch_candRead {α : Type} (f : State → α → State) (h : ∀ s a, (f s a).launch.candRead = s.launch.candRead) :
    (l : List α) → (s : State) → (l.foldl f s).launch.candRead = s.launch.candRead
  | [], _ => rfl
  | a :: l, s => (foldl_launch_candRead f h l (f s a)).trans (h s a)
@[simp] theorem issueWrite_launch_candRead (w : Write) (l : HeldSteps) (f : State → State) (s : State) (h : ∀ s, (f s).launch.candRead = s.launch.candRead) :
    (s.issueWrite w l f).launch.candRead = s.launch.candRead := by
  unfold issueWrite; split <;> simp [h]
@[simp] theorem foldl_launch_emptyCount {α : Type} (f : State → α → State) (h : ∀ s a, (f s a).launch.emptyCount = s.launch.emptyCount) :
    (l : List α) → (s : State) → (l.foldl f s).launch.emptyCount = s.launch.emptyCount
  | [], _ => rfl
  | a :: l, s => (foldl_launch_emptyCount f h l (f s a)).trans (h s a)
@[simp] theorem issueWrite_launch_emptyCount (w : Write) (l : HeldSteps) (f : State → State) (s : State) (h : ∀ s, (f s).launch.emptyCount = s.launch.emptyCount) :
    (s.issueWrite w l f).launch.emptyCount = s.launch.emptyCount := by
  unfold issueWrite; split <;> simp [h]
@[simp] theorem foldl_launch_starvedArm {α : Type} (f : State → α → State) (h : ∀ s a, (f s a).launch.starvedArm = s.launch.starvedArm) :
    (l : List α) → (s : State) → (l.foldl f s).launch.starvedArm = s.launch.starvedArm
  | [], _ => rfl
  | a :: l, s => (foldl_launch_starvedArm f h l (f s a)).trans (h s a)
@[simp] theorem issueWrite_launch_starvedArm (w : Write) (l : HeldSteps) (f : State → State) (s : State) (h : ∀ s, (f s).launch.starvedArm = s.launch.starvedArm) :
    (s.issueWrite w l f).launch.starvedArm = s.launch.starvedArm := by
  unfold issueWrite; split <;> simp [h]
@[simp] theorem foldl_launch_trayArm {α : Type} (f : State → α → State) (h : ∀ s a, (f s a).launch.trayArm = s.launch.trayArm) :
    (l : List α) → (s : State) → (l.foldl f s).launch.trayArm = s.launch.trayArm
  | [], _ => rfl
  | a :: l, s => (foldl_launch_trayArm f h l (f s a)).trans (h s a)
@[simp] theorem issueWrite_launch_trayArm (w : Write) (l : HeldSteps) (f : State → State) (s : State) (h : ∀ s, (f s).launch.trayArm = s.launch.trayArm) :
    (s.issueWrite w l f).launch.trayArm = s.launch.trayArm := by
  unfold issueWrite; split <;> simp [h]
@[simp] theorem foldl_launch_trays {α : Type} (f : State → α → State) (h : ∀ s a, (f s a).launch.trays = s.launch.trays) :
    (l : List α) → (s : State) → (l.foldl f s).launch.trays = s.launch.trays
  | [], _ => rfl
  | a :: l, s => (foldl_launch_trays f h l (f s a)).trans (h s a)
@[simp] theorem issueWrite_launch_trays (w : Write) (l : HeldSteps) (f : State → State) (s : State) (h : ∀ s, (f s).launch.trays = s.launch.trays) :
    (s.issueWrite w l f).launch.trays = s.launch.trays := by
  unfold issueWrite; split <;> simp [h]
@[simp] theorem foldl_launch_wakeAsked {α : Type} (f : State → α → State) (h : ∀ s a, (f s a).launch.wakeAsked = s.launch.wakeAsked) :
    (l : List α) → (s : State) → (l.foldl f s).launch.wakeAsked = s.launch.wakeAsked
  | [], _ => rfl
  | a :: l, s => (foldl_launch_wakeAsked f h l (f s a)).trans (h s a)
@[simp] theorem issueWrite_launch_wakeAsked (w : Write) (l : HeldSteps) (f : State → State) (s : State) (h : ∀ s, (f s).launch.wakeAsked = s.launch.wakeAsked) :
    (s.issueWrite w l f).launch.wakeAsked = s.launch.wakeAsked := by
  unfold issueWrite; split <;> simp [h]
@[simp] theorem foldl_track {α : Type} (f : State → α → State) (h : ∀ s a, (f s a).track = s.track) :
    (l : List α) → (s : State) → (l.foldl f s).track = s.track
  | [], _ => rfl
  | a :: l, s => (foldl_track f h l (f s a)).trans (h s a)
@[simp] theorem issueWrite_track (w : Write) (l : HeldSteps) (f : State → State) (s : State) (h : ∀ s, (f s).track = s.track) :
    (s.issueWrite w l f).track = s.track := by
  unfold issueWrite; split <;> simp [h]
@[simp] theorem foldl_track_sheets {α : Type} (f : State → α → State) (h : ∀ s a, (f s a).track.sheets = s.track.sheets) :
    (l : List α) → (s : State) → (l.foldl f s).track.sheets = s.track.sheets
  | [], _ => rfl
  | a :: l, s => (foldl_track_sheets f h l (f s a)).trans (h s a)
@[simp] theorem issueWrite_track_sheets (w : Write) (l : HeldSteps) (f : State → State) (s : State) (h : ∀ s, (f s).track.sheets = s.track.sheets) :
    (s.issueWrite w l f).track.sheets = s.track.sheets := by
  unfold issueWrite; split <;> simp [h]
@[simp] theorem foldl_track_queues {α : Type} (f : State → α → State) (h : ∀ s a, (f s a).track.queues = s.track.queues) :
    (l : List α) → (s : State) → (l.foldl f s).track.queues = s.track.queues
  | [], _ => rfl
  | a :: l, s => (foldl_track_queues f h l (f s a)).trans (h s a)
@[simp] theorem issueWrite_track_queues (w : Write) (l : HeldSteps) (f : State → State) (s : State) (h : ∀ s, (f s).track.queues = s.track.queues) :
    (s.issueWrite w l f).track.queues = s.track.queues := by
  unfold issueWrite; split <;> simp [h]
@[simp] theorem foldl_track_fifo {α : Type} (f : State → α → State) (h : ∀ s a, (f s a).track.fifo = s.track.fifo) :
    (l : List α) → (s : State) → (l.foldl f s).track.fifo = s.track.fifo
  | [], _ => rfl
  | a :: l, s => (foldl_track_fifo f h l (f s a)).trans (h s a)
@[simp] theorem issueWrite_track_fifo (w : Write) (l : HeldSteps) (f : State → State) (s : State) (h : ∀ s, (f s).track.fifo = s.track.fifo) :
    (s.issueWrite w l f).track.fifo = s.track.fifo := by
  unfold issueWrite; split <;> simp [h]
@[simp] theorem foldl_track_tracking {α : Type} (f : State → α → State) (h : ∀ s a, (f s a).track.tracking = s.track.tracking) :
    (l : List α) → (s : State) → (l.foldl f s).track.tracking = s.track.tracking
  | [], _ => rfl
  | a :: l, s => (foldl_track_tracking f h l (f s a)).trans (h s a)
@[simp] theorem issueWrite_track_tracking (w : Write) (l : HeldSteps) (f : State → State) (s : State) (h : ∀ s, (f s).track.tracking = s.track.tracking) :
    (s.issueWrite w l f).track.tracking = s.track.tracking := by
  unfold issueWrite; split <;> simp [h]
@[simp] theorem foldl_track_d1 {α : Type} (f : State → α → State) (h : ∀ s a, (f s a).track.d1 = s.track.d1) :
    (l : List α) → (s : State) → (l.foldl f s).track.d1 = s.track.d1
  | [], _ => rfl
  | a :: l, s => (foldl_track_d1 f h l (f s a)).trans (h s a)
@[simp] theorem issueWrite_track_d1 (w : Write) (l : HeldSteps) (f : State → State) (s : State) (h : ∀ s, (f s).track.d1 = s.track.d1) :
    (s.issueWrite w l f).track.d1 = s.track.d1 := by
  unfold issueWrite; split <;> simp [h]
@[simp] theorem foldl_track_nextId {α : Type} (f : State → α → State) (h : ∀ s a, (f s a).track.nextId = s.track.nextId) :
    (l : List α) → (s : State) → (l.foldl f s).track.nextId = s.track.nextId
  | [], _ => rfl
  | a :: l, s => (foldl_track_nextId f h l (f s a)).trans (h s a)
@[simp] theorem issueWrite_track_nextId (w : Write) (l : HeldSteps) (f : State → State) (s : State) (h : ∀ s, (f s).track.nextId = s.track.nextId) :
    (s.issueWrite w l f).track.nextId = s.track.nextId := by
  unfold issueWrite; split <;> simp [h]
@[simp] theorem foldl_exit {α : Type} (f : State → α → State) (h : ∀ s a, (f s a).exit = s.exit) :
    (l : List α) → (s : State) → (l.foldl f s).exit = s.exit
  | [], _ => rfl
  | a :: l, s => (foldl_exit f h l (f s a)).trans (h s a)
@[simp] theorem issueWrite_exit (w : Write) (l : HeldSteps) (f : State → State) (s : State) (h : ∀ s, (f s).exit = s.exit) :
    (s.issueWrite w l f).exit = s.exit := by
  unfold issueWrite; split <;> simp [h]
@[simp] theorem foldl_retire {α : Type} (f : State → α → State) (h : ∀ s a, (f s a).retire = s.retire) :
    (l : List α) → (s : State) → (l.foldl f s).retire = s.retire
  | [], _ => rfl
  | a :: l, s => (foldl_retire f h l (f s a)).trans (h s a)
@[simp] theorem issueWrite_retire (w : Write) (l : HeldSteps) (f : State → State) (s : State) (h : ∀ s, (f s).retire = s.retire) :
    (s.issueWrite w l f).retire = s.retire := by
  unfold issueWrite; split <;> simp [h]
@[simp] theorem foldl_retire_step {α : Type} (f : State → α → State) (h : ∀ s a, (f s a).retire.step = s.retire.step) :
    (l : List α) → (s : State) → (l.foldl f s).retire.step = s.retire.step
  | [], _ => rfl
  | a :: l, s => (foldl_retire_step f h l (f s a)).trans (h s a)
@[simp] theorem issueWrite_retire_step (w : Write) (l : HeldSteps) (f : State → State) (s : State) (h : ∀ s, (f s).retire.step = s.retire.step) :
    (s.issueWrite w l f).retire.step = s.retire.step := by
  unfold issueWrite; split <;> simp [h]
@[simp] theorem foldl_retire_retired {α : Type} (f : State → α → State) (h : ∀ s a, (f s a).retire.retired = s.retire.retired) :
    (l : List α) → (s : State) → (l.foldl f s).retire.retired = s.retire.retired
  | [], _ => rfl
  | a :: l, s => (foldl_retire_retired f h l (f s a)).trans (h s a)
@[simp] theorem issueWrite_retire_retired (w : Write) (l : HeldSteps) (f : State → State) (s : State) (h : ∀ s, (f s).retire.retired = s.retire.retired) :
    (s.issueWrite w l f).retire.retired = s.retire.retired := by
  unfold issueWrite; split <;> simp [h]
@[simp] theorem foldl_retire_launched {α : Type} (f : State → α → State) (h : ∀ s a, (f s a).retire.launched = s.retire.launched) :
    (l : List α) → (s : State) → (l.foldl f s).retire.launched = s.retire.launched
  | [], _ => rfl
  | a :: l, s => (foldl_retire_launched f h l (f s a)).trans (h s a)
@[simp] theorem issueWrite_retire_launched (w : Write) (l : HeldSteps) (f : State → State) (s : State) (h : ∀ s, (f s).retire.launched = s.retire.launched) :
    (s.issueWrite w l f).retire.launched = s.retire.launched := by
  unfold issueWrite; split <;> simp [h]
@[simp] theorem foldl_retire_stacked {α : Type} (f : State → α → State) (h : ∀ s a, (f s a).retire.stacked = s.retire.stacked) :
    (l : List α) → (s : State) → (l.foldl f s).retire.stacked = s.retire.stacked
  | [], _ => rfl
  | a :: l, s => (foldl_retire_stacked f h l (f s a)).trans (h s a)
@[simp] theorem issueWrite_retire_stacked (w : Write) (l : HeldSteps) (f : State → State) (s : State) (h : ∀ s, (f s).retire.stacked = s.retire.stacked) :
    (s.issueWrite w l f).retire.stacked = s.retire.stacked := by
  unfold issueWrite; split <;> simp [h]
@[simp] theorem foldl_retire_purged {α : Type} (f : State → α → State) (h : ∀ s a, (f s a).retire.purged = s.retire.purged) :
    (l : List α) → (s : State) → (l.foldl f s).retire.purged = s.retire.purged
  | [], _ => rfl
  | a :: l, s => (foldl_retire_purged f h l (f s a)).trans (h s a)
@[simp] theorem issueWrite_retire_purged (w : Write) (l : HeldSteps) (f : State → State) (s : State) (h : ∀ s, (f s).retire.purged = s.retire.purged) :
    (s.issueWrite w l f).retire.purged = s.retire.purged := by
  unfold issueWrite; split <;> simp [h]
@[simp] theorem foldl_retire_lost {α : Type} (f : State → α → State) (h : ∀ s a, (f s a).retire.lost = s.retire.lost) :
    (l : List α) → (s : State) → (l.foldl f s).retire.lost = s.retire.lost
  | [], _ => rfl
  | a :: l, s => (foldl_retire_lost f h l (f s a)).trans (h s a)
@[simp] theorem issueWrite_retire_lost (w : Write) (l : HeldSteps) (f : State → State) (s : State) (h : ∀ s, (f s).retire.lost = s.retire.lost) :
    (s.issueWrite w l f).retire.lost = s.retire.lost := by
  unfold issueWrite; split <;> simp [h]
@[simp] theorem foldl_retire_skipped {α : Type} (f : State → α → State) (h : ∀ s a, (f s a).retire.skipped = s.retire.skipped) :
    (l : List α) → (s : State) → (l.foldl f s).retire.skipped = s.retire.skipped
  | [], _ => rfl
  | a :: l, s => (foldl_retire_skipped f h l (f s a)).trans (h s a)
@[simp] theorem issueWrite_retire_skipped (w : Write) (l : HeldSteps) (f : State → State) (s : State) (h : ∀ s, (f s).retire.skipped = s.retire.skipped) :
    (s.issueWrite w l f).retire.skipped = s.retire.skipped := by
  unfold issueWrite; split <;> simp [h]
@[simp] theorem foldl_retire_batching {α : Type} (f : State → α → State) (h : ∀ s a, (f s a).retire.batching = s.retire.batching) :
    (l : List α) → (s : State) → (l.foldl f s).retire.batching = s.retire.batching
  | [], _ => rfl
  | a :: l, s => (foldl_retire_batching f h l (f s a)).trans (h s a)
@[simp] theorem issueWrite_retire_batching (w : Write) (l : HeldSteps) (f : State → State) (s : State) (h : ∀ s, (f s).retire.batching = s.retire.batching) :
    (s.issueWrite w l f).retire.batching = s.retire.batching := by
  unfold issueWrite; split <;> simp [h]
@[simp] theorem foldl_jam {α : Type} (f : State → α → State) (h : ∀ s a, (f s a).jam = s.jam) :
    (l : List α) → (s : State) → (l.foldl f s).jam = s.jam
  | [], _ => rfl
  | a :: l, s => (foldl_jam f h l (f s a)).trans (h s a)
@[simp] theorem issueWrite_jam (w : Write) (l : HeldSteps) (f : State → State) (s : State) (h : ∀ s, (f s).jam = s.jam) :
    (s.issueWrite w l f).jam = s.jam := by
  unfold issueWrite; split <;> simp [h]
@[simp] theorem foldl_jam_seq {α : Type} (f : State → α → State) (h : ∀ s a, (f s a).jam.seq = s.jam.seq) :
    (l : List α) → (s : State) → (l.foldl f s).jam.seq = s.jam.seq
  | [], _ => rfl
  | a :: l, s => (foldl_jam_seq f h l (f s a)).trans (h s a)
@[simp] theorem issueWrite_jam_seq (w : Write) (l : HeldSteps) (f : State → State) (s : State) (h : ∀ s, (f s).jam.seq = s.jam.seq) :
    (s.issueWrite w l f).jam.seq = s.jam.seq := by
  unfold issueWrite; split <;> simp [h]
@[simp] theorem foldl_jam_primary {α : Type} (f : State → α → State) (h : ∀ s a, (f s a).jam.primary = s.jam.primary) :
    (l : List α) → (s : State) → (l.foldl f s).jam.primary = s.jam.primary
  | [], _ => rfl
  | a :: l, s => (foldl_jam_primary f h l (f s a)).trans (h s a)
@[simp] theorem issueWrite_jam_primary (w : Write) (l : HeldSteps) (f : State → State) (s : State) (h : ∀ s, (f s).jam.primary = s.jam.primary) :
    (s.issueWrite w l f).jam.primary = s.jam.primary := by
  unfold issueWrite; split <;> simp [h]
@[simp] theorem foldl_jam_secondary {α : Type} (f : State → α → State) (h : ∀ s a, (f s a).jam.secondary = s.jam.secondary) :
    (l : List α) → (s : State) → (l.foldl f s).jam.secondary = s.jam.secondary
  | [], _ => rfl
  | a :: l, s => (foldl_jam_secondary f h l (f s a)).trans (h s a)
@[simp] theorem issueWrite_jam_secondary (w : Write) (l : HeldSteps) (f : State → State) (s : State) (h : ∀ s, (f s).jam.secondary = s.jam.secondary) :
    (s.issueWrite w l f).jam.secondary = s.jam.secondary := by
  unfold issueWrite; split <;> simp [h]
@[simp] theorem foldl_jam_lastSecondary {α : Type} (f : State → α → State) (h : ∀ s a, (f s a).jam.lastSecondary = s.jam.lastSecondary) :
    (l : List α) → (s : State) → (l.foldl f s).jam.lastSecondary = s.jam.lastSecondary
  | [], _ => rfl
  | a :: l, s => (foldl_jam_lastSecondary f h l (f s a)).trans (h s a)
@[simp] theorem issueWrite_jam_lastSecondary (w : Write) (l : HeldSteps) (f : State → State) (s : State) (h : ∀ s, (f s).jam.lastSecondary = s.jam.lastSecondary) :
    (s.issueWrite w l f).jam.lastSecondary = s.jam.lastSecondary := by
  unfold issueWrite; split <;> simp [h]
@[simp] theorem foldl_jam_stranded {α : Type} (f : State → α → State) (h : ∀ s a, (f s a).jam.stranded = s.jam.stranded) :
    (l : List α) → (s : State) → (l.foldl f s).jam.stranded = s.jam.stranded
  | [], _ => rfl
  | a :: l, s => (foldl_jam_stranded f h l (f s a)).trans (h s a)
@[simp] theorem issueWrite_jam_stranded (w : Write) (l : HeldSteps) (f : State → State) (s : State) (h : ∀ s, (f s).jam.stranded = s.jam.stranded) :
    (s.issueWrite w l f).jam.stranded = s.jam.stranded := by
  unfold issueWrite; split <;> simp [h]
@[simp] theorem foldl_jam_interrupted {α : Type} (f : State → α → State) (h : ∀ s a, (f s a).jam.interrupted = s.jam.interrupted) :
    (l : List α) → (s : State) → (l.foldl f s).jam.interrupted = s.jam.interrupted
  | [], _ => rfl
  | a :: l, s => (foldl_jam_interrupted f h l (f s a)).trans (h s a)
@[simp] theorem issueWrite_jam_interrupted (w : Write) (l : HeldSteps) (f : State → State) (s : State) (h : ∀ s, (f s).jam.interrupted = s.jam.interrupted) :
    (s.issueWrite w l f).jam.interrupted = s.jam.interrupted := by
  unfold issueWrite; split <;> simp [h]
@[simp] theorem foldl_jam_mainResume {α : Type} (f : State → α → State) (h : ∀ s a, (f s a).jam.mainResume = s.jam.mainResume) :
    (l : List α) → (s : State) → (l.foldl f s).jam.mainResume = s.jam.mainResume
  | [], _ => rfl
  | a :: l, s => (foldl_jam_mainResume f h l (f s a)).trans (h s a)
@[simp] theorem issueWrite_jam_mainResume (w : Write) (l : HeldSteps) (f : State → State) (s : State) (h : ∀ s, (f s).jam.mainResume = s.jam.mainResume) :
    (s.issueWrite w l f).jam.mainResume = s.jam.mainResume := by
  unfold issueWrite; split <;> simp [h]
@[simp] theorem foldl_jam_mainResync {α : Type} (f : State → α → State) (h : ∀ s a, (f s a).jam.mainResync = s.jam.mainResync) :
    (l : List α) → (s : State) → (l.foldl f s).jam.mainResync = s.jam.mainResync
  | [], _ => rfl
  | a :: l, s => (foldl_jam_mainResync f h l (f s a)).trans (h s a)
@[simp] theorem issueWrite_jam_mainResync (w : Write) (l : HeldSteps) (f : State → State) (s : State) (h : ∀ s, (f s).jam.mainResync = s.jam.mainResync) :
    (s.issueWrite w l f).jam.mainResync = s.jam.mainResync := by
  unfold issueWrite; split <;> simp [h]
@[simp] theorem foldl_jam_recoveryResume {α : Type} (f : State → α → State) (h : ∀ s a, (f s a).jam.recoveryResume = s.jam.recoveryResume) :
    (l : List α) → (s : State) → (l.foldl f s).jam.recoveryResume = s.jam.recoveryResume
  | [], _ => rfl
  | a :: l, s => (foldl_jam_recoveryResume f h l (f s a)).trans (h s a)
@[simp] theorem issueWrite_jam_recoveryResume (w : Write) (l : HeldSteps) (f : State → State) (s : State) (h : ∀ s, (f s).jam.recoveryResume = s.jam.recoveryResume) :
    (s.issueWrite w l f).jam.recoveryResume = s.jam.recoveryResume := by
  unfold issueWrite; split <;> simp [h]
@[simp] theorem foldl_jam_recoveryPending {α : Type} (f : State → α → State) (h : ∀ s a, (f s a).jam.recoveryPending = s.jam.recoveryPending) :
    (l : List α) → (s : State) → (l.foldl f s).jam.recoveryPending = s.jam.recoveryPending
  | [], _ => rfl
  | a :: l, s => (foldl_jam_recoveryPending f h l (f s a)).trans (h s a)
@[simp] theorem issueWrite_jam_recoveryPending (w : Write) (l : HeldSteps) (f : State → State) (s : State) (h : ∀ s, (f s).jam.recoveryPending = s.jam.recoveryPending) :
    (s.issueWrite w l f).jam.recoveryPending = s.jam.recoveryPending := by
  unfold issueWrite; split <;> simp [h]
@[simp] theorem foldl_jam_recordDue {α : Type} (f : State → α → State) (h : ∀ s a, (f s a).jam.recordDue = s.jam.recordDue) :
    (l : List α) → (s : State) → (l.foldl f s).jam.recordDue = s.jam.recordDue
  | [], _ => rfl
  | a :: l, s => (foldl_jam_recordDue f h l (f s a)).trans (h s a)
@[simp] theorem issueWrite_jam_recordDue (w : Write) (l : HeldSteps) (f : State → State) (s : State) (h : ∀ s, (f s).jam.recordDue = s.jam.recordDue) :
    (s.issueWrite w l f).jam.recordDue = s.jam.recordDue := by
  unfold issueWrite; split <;> simp [h]
@[simp] theorem foldl_jam_recordIssued {α : Type} (f : State → α → State) (h : ∀ s a, (f s a).jam.recordIssued = s.jam.recordIssued) :
    (l : List α) → (s : State) → (l.foldl f s).jam.recordIssued = s.jam.recordIssued
  | [], _ => rfl
  | a :: l, s => (foldl_jam_recordIssued f h l (f s a)).trans (h s a)
@[simp] theorem issueWrite_jam_recordIssued (w : Write) (l : HeldSteps) (f : State → State) (s : State) (h : ∀ s, (f s).jam.recordIssued = s.jam.recordIssued) :
    (s.issueWrite w l f).jam.recordIssued = s.jam.recordIssued := by
  unfold issueWrite; split <;> simp [h]
@[simp] theorem foldl_mem {α : Type} (f : State → α → State) (h : ∀ s a, (f s a).mem = s.mem) :
    (l : List α) → (s : State) → (l.foldl f s).mem = s.mem
  | [], _ => rfl
  | a :: l, s => (foldl_mem f h l (f s a)).trans (h s a)
@[simp] theorem foldl_mem_windowLength {α : Type} (f : State → α → State) (h : ∀ s a, (f s a).mem.windowLength = s.mem.windowLength) :
    (l : List α) → (s : State) → (l.foldl f s).mem.windowLength = s.mem.windowLength
  | [], _ => rfl
  | a :: l, s => (foldl_mem_windowLength f h l (f s a)).trans (h s a)
@[simp] theorem issueWrite_mem_windowLength (w : Write) (l : HeldSteps) (f : State → State) (s : State) (h : ∀ s, (f s).mem.windowLength = s.mem.windowLength) :
    (s.issueWrite w l f).mem.windowLength = s.mem.windowLength := by
  unfold issueWrite; split <;> simp [h]
@[simp] theorem foldl_mem_queue {α : Type} (f : State → α → State) (h : ∀ s a, (f s a).mem.queue = s.mem.queue) :
    (l : List α) → (s : State) → (l.foldl f s).mem.queue = s.mem.queue
  | [], _ => rfl
  | a :: l, s => (foldl_mem_queue f h l (f s a)).trans (h s a)
@[simp] theorem foldl_mem_held {α : Type} (f : State → α → State) (h : ∀ s a, (f s a).mem.held = s.mem.held) :
    (l : List α) → (s : State) → (l.foldl f s).mem.held = s.mem.held
  | [], _ => rfl
  | a :: l, s => (foldl_mem_held f h l (f s a)).trans (h s a)
@[simp] theorem foldl_mem_waiting {α : Type} (f : State → α → State) (h : ∀ s a, (f s a).mem.waiting = s.mem.waiting) :
    (l : List α) → (s : State) → (l.foldl f s).mem.waiting = s.mem.waiting
  | [], _ => rfl
  | a :: l, s => (foldl_mem_waiting f h l (f s a)).trans (h s a)
@[simp] theorem issueWrite_mem_waiting (w : Write) (l : HeldSteps) (f : State → State) (s : State) (h : ∀ s, (f s).mem.waiting = s.mem.waiting) :
    (s.issueWrite w l f).mem.waiting = s.mem.waiting := by
  unfold issueWrite; split <;> simp [h]
@[simp] theorem foldl_mem_bus {α : Type} (f : State → α → State) (h : ∀ s a, (f s a).mem.bus = s.mem.bus) :
    (l : List α) → (s : State) → (l.foldl f s).mem.bus = s.mem.bus
  | [], _ => rfl
  | a :: l, s => (foldl_mem_bus f h l (f s a)).trans (h s a)
@[simp] theorem issueWrite_mem_bus (w : Write) (l : HeldSteps) (f : State → State) (s : State) (h : ∀ s, (f s).mem.bus = s.mem.bus) :
    (s.issueWrite w l f).mem.bus = s.mem.bus := by
  unfold issueWrite; split <;> simp [h]
@[simp] theorem foldl_ctl {α : Type} (f : State → α → State) (h : ∀ s a, (f s a).ctl = s.ctl) :
    (l : List α) → (s : State) → (l.foldl f s).ctl = s.ctl
  | [], _ => rfl
  | a :: l, s => (foldl_ctl f h l (f s a)).trans (h s a)
@[simp] theorem issueWrite_ctl (w : Write) (l : HeldSteps) (f : State → State) (s : State) (h : ∀ s, (f s).ctl = s.ctl) :
    (s.issueWrite w l f).ctl = s.ctl := by
  unfold issueWrite; split <;> simp [h]
@[simp] theorem foldl_ctl_area {α : Type} (f : State → α → State) (h : ∀ s a, (f s a).ctl.area = s.ctl.area) :
    (l : List α) → (s : State) → (l.foldl f s).ctl.area = s.ctl.area
  | [], _ => rfl
  | a :: l, s => (foldl_ctl_area f h l (f s a)).trans (h s a)
@[simp] theorem issueWrite_ctl_area (w : Write) (l : HeldSteps) (f : State → State) (s : State) (h : ∀ s, (f s).ctl.area = s.ctl.area) :
    (s.issueWrite w l f).ctl.area = s.ctl.area := by
  unfold issueWrite; split <;> simp [h]
@[simp] theorem foldl_ctl_state {α : Type} (f : State → α → State) (h : ∀ s a, (f s a).ctl.state = s.ctl.state) :
    (l : List α) → (s : State) → (l.foldl f s).ctl.state = s.ctl.state
  | [], _ => rfl
  | a :: l, s => (foldl_ctl_state f h l (f s a)).trans (h s a)
@[simp] theorem issueWrite_ctl_state (w : Write) (l : HeldSteps) (f : State → State) (s : State) (h : ∀ s, (f s).ctl.state = s.ctl.state) :
    (s.issueWrite w l f).ctl.state = s.ctl.state := by
  unfold issueWrite; split <;> simp [h]
@[simp] theorem foldl_ctl_cmd {α : Type} (f : State → α → State) (h : ∀ s a, (f s a).ctl.cmd = s.ctl.cmd) :
    (l : List α) → (s : State) → (l.foldl f s).ctl.cmd = s.ctl.cmd
  | [], _ => rfl
  | a :: l, s => (foldl_ctl_cmd f h l (f s a)).trans (h s a)
@[simp] theorem issueWrite_ctl_cmd (w : Write) (l : HeldSteps) (f : State → State) (s : State) (h : ∀ s, (f s).ctl.cmd = s.ctl.cmd) :
    (s.issueWrite w l f).ctl.cmd = s.ctl.cmd := by
  unfold issueWrite; split <;> simp [h]
@[simp] theorem foldl_ctl_lastCommand {α : Type} (f : State → α → State) (h : ∀ s a, (f s a).ctl.lastCommand = s.ctl.lastCommand) :
    (l : List α) → (s : State) → (l.foldl f s).ctl.lastCommand = s.ctl.lastCommand
  | [], _ => rfl
  | a :: l, s => (foldl_ctl_lastCommand f h l (f s a)).trans (h s a)
@[simp] theorem issueWrite_ctl_lastCommand (w : Write) (l : HeldSteps) (f : State → State) (s : State) (h : ∀ s, (f s).ctl.lastCommand = s.ctl.lastCommand) :
    (s.issueWrite w l f).ctl.lastCommand = s.ctl.lastCommand := by
  unfold issueWrite; split <;> simp [h]
@[simp] theorem foldl_ctl_lastOutcome {α : Type} (f : State → α → State) (h : ∀ s a, (f s a).ctl.lastOutcome = s.ctl.lastOutcome) :
    (l : List α) → (s : State) → (l.foldl f s).ctl.lastOutcome = s.ctl.lastOutcome
  | [], _ => rfl
  | a :: l, s => (foldl_ctl_lastOutcome f h l (f s a)).trans (h s a)
@[simp] theorem issueWrite_ctl_lastOutcome (w : Write) (l : HeldSteps) (f : State → State) (s : State) (h : ∀ s, (f s).ctl.lastOutcome = s.ctl.lastOutcome) :
    (s.issueWrite w l f).ctl.lastOutcome = s.ctl.lastOutcome := by
  unfold issueWrite; split <;> simp [h]
@[simp] theorem foldl_ctl_validation {α : Type} (f : State → α → State) (h : ∀ s a, (f s a).ctl.validation = s.ctl.validation) :
    (l : List α) → (s : State) → (l.foldl f s).ctl.validation = s.ctl.validation
  | [], _ => rfl
  | a :: l, s => (foldl_ctl_validation f h l (f s a)).trans (h s a)
@[simp] theorem issueWrite_ctl_validation (w : Write) (l : HeldSteps) (f : State → State) (s : State) (h : ∀ s, (f s).ctl.validation = s.ctl.validation) :
    (s.issueWrite w l f).ctl.validation = s.ctl.validation := by
  unfold issueWrite; split <;> simp [h]
@[simp] theorem foldl_ctl_lastSkip {α : Type} (f : State → α → State) (h : ∀ s a, (f s a).ctl.lastSkip = s.ctl.lastSkip) :
    (l : List α) → (s : State) → (l.foldl f s).ctl.lastSkip = s.ctl.lastSkip
  | [], _ => rfl
  | a :: l, s => (foldl_ctl_lastSkip f h l (f s a)).trans (h s a)
@[simp] theorem issueWrite_ctl_lastSkip (w : Write) (l : HeldSteps) (f : State → State) (s : State) (h : ∀ s, (f s).ctl.lastSkip = s.ctl.lastSkip) :
    (s.issueWrite w l f).ctl.lastSkip = s.ctl.lastSkip := by
  unfold issueWrite; split <;> simp [h]
@[simp] theorem foldl_ctl_attn {α : Type} (f : State → α → State) (h : ∀ s a, (f s a).ctl.attn = s.ctl.attn) :
    (l : List α) → (s : State) → (l.foldl f s).ctl.attn = s.ctl.attn
  | [], _ => rfl
  | a :: l, s => (foldl_ctl_attn f h l (f s a)).trans (h s a)
@[simp] theorem issueWrite_ctl_attn (w : Write) (l : HeldSteps) (f : State → State) (s : State) (h : ∀ s, (f s).ctl.attn = s.ctl.attn) :
    (s.issueWrite w l f).ctl.attn = s.ctl.attn := by
  unfold issueWrite; split <;> simp [h]
@[simp] theorem foldl_ctl_amask {α : Type} (f : State → α → State) (h : ∀ s a, (f s a).ctl.amask = s.ctl.amask) :
    (l : List α) → (s : State) → (l.foldl f s).ctl.amask = s.ctl.amask
  | [], _ => rfl
  | a :: l, s => (foldl_ctl_amask f h l (f s a)).trans (h s a)
@[simp] theorem issueWrite_ctl_amask (w : Write) (l : HeldSteps) (f : State → State) (s : State) (h : ∀ s, (f s).ctl.amask = s.ctl.amask) :
    (s.issueWrite w l f).ctl.amask = s.ctl.amask := by
  unfold issueWrite; split <;> simp [h]
@[simp] theorem foldl_ctl_pauseRec {α : Type} (f : State → α → State) (h : ∀ s a, (f s a).ctl.pauseRec = s.ctl.pauseRec) :
    (l : List α) → (s : State) → (l.foldl f s).ctl.pauseRec = s.ctl.pauseRec
  | [], _ => rfl
  | a :: l, s => (foldl_ctl_pauseRec f h l (f s a)).trans (h s a)
@[simp] theorem issueWrite_ctl_pauseRec (w : Write) (l : HeldSteps) (f : State → State) (s : State) (h : ∀ s, (f s).ctl.pauseRec = s.ctl.pauseRec) :
    (s.issueWrite w l f).ctl.pauseRec = s.ctl.pauseRec := by
  unfold issueWrite; split <;> simp [h]
@[simp] theorem foldl_config {α : Type} (f : State → α → State) (h : ∀ s a, (f s a).config = s.config) :
    (l : List α) → (s : State) → (l.foldl f s).config = s.config
  | [], _ => rfl
  | a :: l, s => (foldl_config f h l (f s a)).trans (h s a)
@[simp] theorem issueWrite_config (w : Write) (l : HeldSteps) (f : State → State) (s : State) (h : ∀ s, (f s).config = s.config) :
    (s.issueWrite w l f).config = s.config := by
  unfold issueWrite; split <;> simp [h]
@[simp] theorem foldl_pending {α : Type} (f : State → α → State) (h : ∀ s a, (f s a).pending = s.pending) :
    (l : List α) → (s : State) → (l.foldl f s).pending = s.pending
  | [], _ => rfl
  | a :: l, s => (foldl_pending f h l (f s a)).trans (h s a)
@[simp] theorem issueWrite_pending (w : Write) (l : HeldSteps) (f : State → State) (s : State) (h : ∀ s, (f s).pending = s.pending) :
    (s.issueWrite w l f).pending = s.pending := by
  unfold issueWrite; split <;> simp [h]
@[simp] theorem foldl_out {α : Type} (f : State → α → State) (h : ∀ s a, (f s a).out = s.out) :
    (l : List α) → (s : State) → (l.foldl f s).out = s.out
  | [], _ => rfl
  | a :: l, s => (foldl_out f h l (f s a)).trans (h s a)
@[simp] theorem issueWrite_out (w : Write) (l : HeldSteps) (f : State → State) (s : State) (h : ∀ s, (f s).out = s.out) :
    (s.issueWrite w l f).out = s.out := by
  unfold issueWrite; split <;> simp [h]
@[simp] theorem foldl_freeIndex {α : Type} (f : State → α → State) (h : ∀ s a, (f s a).freeIndex = s.freeIndex) :
    (l : List α) → (s : State) → (l.foldl f s).freeIndex = s.freeIndex
  | [], _ => rfl
  | a :: l, s => (foldl_freeIndex f h l (f s a)).trans (h s a)
@[simp] theorem issueWrite_freeIndex (w : Write) (l : HeldSteps) (f : State → State) (s : State) (h : ∀ s, (f s).freeIndex = s.freeIndex) :
    (s.issueWrite w l f).freeIndex = s.freeIndex := by
  unfold issueWrite; split <;> simp [h]

/-! The named updates as updates of one block. -/

@[simp] theorem updEntry_def (id : Nat) (f : Entry → Entry) : updEntry id f =
    onFetch fun u => { u with window := u.window.map fun e => if e.id = id then f e else e } := rfl
@[simp] theorem updMp_def (id : Nat) (f : Mailpiece → Mailpiece) : updMp id f =
    onMail fun u => { u with table := u.table.map fun m => if m.id = id then f m else m } := rfl
@[simp] theorem updBin_def (b : Bin) (f : BinCounts → BinCounts) : updBin b f =
    onMail fun u => { u with bins := u.bins.set b (f (u.bins.get b)) } := rfl
@[simp] theorem withdrawOwner_def (p : CompareOwner → Bool) : withdrawOwner p =
    onTransport fun u => { u with compares := u.compares.filter fun k => !p k.owner } := rfl
@[simp] theorem updQueue_def (c : Checkpoint) (f : List Nat → List Nat) : updQueue c f =
    onTrack fun u => { u with queues := u.queues.set c (f (u.queues.get c)) } := rfl
@[simp] theorem setEntry_def (id : Nat) (st : EntryState) (r : Result) (why : Option Reason) : setEntry id st r why =
    updEntry id fun e => { e with state := st, draft := some ⟨r, why⟩ } := rfl
@[simp] theorem registerCompare_def (owner : CompareOwner) (x : Section) (pos : Pos) : registerCompare owner x pos =
    onTransport fun u =>
      { u with
        compares := u.compares ++
          [{ owner := owner, sec := x, pos := pos
             event := if reaches (u.count.get x) pos then some u.count else none
             atOnce := reaches (u.count.get x) pos }] } := rfl
@[simp] theorem requestRead_def (p : Purpose) (addrs : List Word) : requestRead p addrs =
    onMem fun u => { u with waiting := u.waiting ++ [⟨p, addrs⟩] } := rfl
@[simp] theorem freezeWhere_def (p : Sheet → Bool) (s : State) : s.freezeWhere p =
    (s.track.sheets.filter fun x => x.state == .inPath && p x).foldl (fun s x => s.freeze x.id) s := rfl
@[simp] theorem updSheet_sheets (id : Nat) (f : Sheet → Sheet) (s : State) :
    (s.updSheet id f).track.sheets = s.track.sheets.map fun x => if x.id = id then f x else x := rfl
@[simp] theorem updSheet_frame (id : Nat) (f : Sheet → Sheet) (s : State) :
    (s.updSheet id f).transport = s.transport ∧ (s.updSheet id f).clock = s.clock
    ∧ (s.updSheet id f).fetch = s.fetch ∧ (s.updSheet id f).mail = s.mail ∧ (s.updSheet id f).launch = s.launch
    ∧ (s.updSheet id f).track.queues = s.track.queues ∧ (s.updSheet id f).track.fifo = s.track.fifo
    ∧ (s.updSheet id f).track.tracking = s.track.tracking ∧ (s.updSheet id f).track.d1 = s.track.d1
    ∧ (s.updSheet id f).track.nextId = s.track.nextId ∧ (s.updSheet id f).exit = s.exit
    ∧ (s.updSheet id f).retire = s.retire ∧ (s.updSheet id f).jam = s.jam ∧ (s.updSheet id f).mem = s.mem
    ∧ (s.updSheet id f).ctl = s.ctl ∧ (s.updSheet id f).config = s.config
    ∧ (s.updSheet id f).pending = s.pending ∧ (s.updSheet id f).out = s.out
    ∧ (s.updSheet id f).freeIndex = s.freeIndex :=
  ⟨rfl, rfl, rfl, rfl, rfl, rfl, rfl, rfl, rfl, rfl, rfl, rfl, rfl, rfl, rfl, rfl, rfl, rfl, rfl⟩
@[simp] theorem sumIntoCaller_frame (o : Nat) (f : Summary → Summary) (s : State) :
    (s.sumIntoCaller o f).transport = s.transport
    ∧ (s.sumIntoCaller o f).clock = s.clock ∧ (s.sumIntoCaller o f).fetch.pos = s.fetch.pos
    ∧ (s.sumIntoCaller o f).fetch.stack = s.fetch.stack ∧ (s.sumIntoCaller o f).fetch.outer = s.fetch.outer
    ∧ (s.sumIntoCaller o f).fetch.chain = s.fetch.chain ∧ (s.sumIntoCaller o f).fetch.resync = s.fetch.resync
    ∧ (s.sumIntoCaller o f).fetch.read = s.fetch.read ∧ (s.sumIntoCaller o f).fetch.rereadAsked = s.fetch.rereadAsked
    ∧ (s.sumIntoCaller o f).fetch.nextId = s.fetch.nextId ∧ (s.sumIntoCaller o f).mail = s.mail
    ∧ (s.sumIntoCaller o f).launch = s.launch ∧ (s.sumIntoCaller o f).track = s.track
    ∧ (s.sumIntoCaller o f).exit = s.exit ∧ (s.sumIntoCaller o f).retire = s.retire
    ∧ (s.sumIntoCaller o f).jam = s.jam ∧ (s.sumIntoCaller o f).mem = s.mem ∧ (s.sumIntoCaller o f).ctl = s.ctl
    ∧ (s.sumIntoCaller o f).config = s.config ∧ (s.sumIntoCaller o f).pending = s.pending
    ∧ (s.sumIntoCaller o f).out = s.out ∧ (s.sumIntoCaller o f).freeIndex = s.freeIndex := by
  simp only [sumIntoCaller]; split <;> simp

end Sys2Proof.Machine.State
end

