-- ==== Sys2Proof/Laws/FrameOps.lean ====
section
/-! SUPPORT. What each operation of the blocks leaves unchanged. -/

namespace Sys2Proof.Machine.State

set_option Elab.async false

@[simp] theorem setAttn_frame (a0 : AttnFlag) (s : State) : (setAttn a0 s).transport = s.transport
    ∧ (setAttn a0 s).clock = s.clock ∧ (setAttn a0 s).fetch = s.fetch ∧ (setAttn a0 s).mail = s.mail
    ∧ (setAttn a0 s).launch = s.launch ∧ (setAttn a0 s).track = s.track ∧ (setAttn a0 s).exit = s.exit
    ∧ (setAttn a0 s).retire = s.retire ∧ (setAttn a0 s).jam = s.jam ∧ (setAttn a0 s).mem = s.mem
    ∧ (setAttn a0 s).ctl.area = s.ctl.area ∧ (setAttn a0 s).ctl.state = s.ctl.state
    ∧ (setAttn a0 s).ctl.cmd = s.ctl.cmd ∧ (setAttn a0 s).ctl.lastCommand = s.ctl.lastCommand
    ∧ (setAttn a0 s).ctl.lastOutcome = s.ctl.lastOutcome ∧ (setAttn a0 s).ctl.validation = s.ctl.validation
    ∧ (setAttn a0 s).ctl.lastSkip = s.ctl.lastSkip ∧ (setAttn a0 s).ctl.amask = s.ctl.amask
    ∧ (setAttn a0 s).ctl.pauseRec = s.ctl.pauseRec ∧ (setAttn a0 s).config = s.config
    ∧ (setAttn a0 s).pending = s.pending ∧ (setAttn a0 s).out = s.out ∧ (setAttn a0 s).freeIndex = s.freeIndex := by
  simp [setAttn]

@[simp] theorem closeMp_frame (a0 : Nat) (s : State) : (closeMp a0 s).transport = s.transport
    ∧ (closeMp a0 s).clock = s.clock ∧ (closeMp a0 s).fetch = s.fetch ∧ (closeMp a0 s).mail.bins = s.mail.bins
    ∧ (closeMp a0 s).mail.purgeCount = s.mail.purgeCount ∧ (closeMp a0 s).mail.purgeFull = s.mail.purgeFull
    ∧ (closeMp a0 s).mail.binWaitArm = s.mail.binWaitArm ∧ (closeMp a0 s).mail.waitingOpen = s.mail.waitingOpen
    ∧ (closeMp a0 s).mail.nextId = s.mail.nextId ∧ (closeMp a0 s).launch = s.launch ∧ (closeMp a0 s).track = s.track
    ∧ (closeMp a0 s).exit = s.exit ∧ (closeMp a0 s).retire = s.retire ∧ (closeMp a0 s).jam = s.jam
    ∧ (closeMp a0 s).mem = s.mem ∧ (closeMp a0 s).ctl = s.ctl ∧ (closeMp a0 s).config = s.config
    ∧ (closeMp a0 s).pending = s.pending ∧ (closeMp a0 s).out = s.out ∧ (closeMp a0 s).freeIndex = s.freeIndex := by
  simp [closeMp]

@[simp] theorem countTaken_frame (a0 : Nat) (s : State) : (countTaken a0 s).transport = s.transport
    ∧ (countTaken a0 s).clock = s.clock ∧ (countTaken a0 s).fetch = s.fetch
    ∧ (countTaken a0 s).mail.bins = s.mail.bins ∧ (countTaken a0 s).mail.purgeCount = s.mail.purgeCount
    ∧ (countTaken a0 s).mail.purgeFull = s.mail.purgeFull ∧ (countTaken a0 s).mail.binWaitArm = s.mail.binWaitArm
    ∧ (countTaken a0 s).mail.waitingOpen = s.mail.waitingOpen ∧ (countTaken a0 s).mail.nextId = s.mail.nextId
    ∧ (countTaken a0 s).launch = s.launch ∧ (countTaken a0 s).track = s.track ∧ (countTaken a0 s).exit = s.exit
    ∧ (countTaken a0 s).retire = s.retire ∧ (countTaken a0 s).jam = s.jam ∧ (countTaken a0 s).mem = s.mem
    ∧ (countTaken a0 s).ctl = s.ctl ∧ (countTaken a0 s).config = s.config ∧ (countTaken a0 s).pending = s.pending
    ∧ (countTaken a0 s).out = s.out ∧ (countTaken a0 s).freeIndex = s.freeIndex := by
  simp [countTaken]

@[simp] theorem markMailpieceSheets_frame (a0 : Nat) (s : State) : (markMailpieceSheets a0 s).transport = s.transport
    ∧ (markMailpieceSheets a0 s).clock = s.clock ∧ (markMailpieceSheets a0 s).fetch = s.fetch
    ∧ (markMailpieceSheets a0 s).mail = s.mail ∧ (markMailpieceSheets a0 s).launch = s.launch
    ∧ (markMailpieceSheets a0 s).track.queues = s.track.queues ∧ (markMailpieceSheets a0 s).track.fifo = s.track.fifo
    ∧ (markMailpieceSheets a0 s).track.tracking = s.track.tracking ∧ (markMailpieceSheets a0 s).track.d1 = s.track.d1
    ∧ (markMailpieceSheets a0 s).track.nextId = s.track.nextId ∧ (markMailpieceSheets a0 s).exit = s.exit
    ∧ (markMailpieceSheets a0 s).retire = s.retire ∧ (markMailpieceSheets a0 s).jam = s.jam
    ∧ (markMailpieceSheets a0 s).mem = s.mem ∧ (markMailpieceSheets a0 s).ctl = s.ctl
    ∧ (markMailpieceSheets a0 s).config = s.config ∧ (markMailpieceSheets a0 s).pending = s.pending
    ∧ (markMailpieceSheets a0 s).out = s.out ∧ (markMailpieceSheets a0 s).freeIndex = s.freeIndex := by
  simp [markMailpieceSheets]

@[simp] theorem releaseReservation_frame (a0 : Mailpiece) (s : State) :
    (releaseReservation a0 s).transport = s.transport
    ∧ (releaseReservation a0 s).clock = s.clock ∧ (releaseReservation a0 s).fetch = s.fetch
    ∧ (releaseReservation a0 s).mail.table = s.mail.table
    ∧ (releaseReservation a0 s).mail.purgeCount = s.mail.purgeCount
    ∧ (releaseReservation a0 s).mail.purgeFull = s.mail.purgeFull
    ∧ (releaseReservation a0 s).mail.binWaitArm = s.mail.binWaitArm
    ∧ (releaseReservation a0 s).mail.waitingOpen = s.mail.waitingOpen
    ∧ (releaseReservation a0 s).mail.nextId = s.mail.nextId ∧ (releaseReservation a0 s).launch = s.launch
    ∧ (releaseReservation a0 s).track = s.track ∧ (releaseReservation a0 s).exit = s.exit
    ∧ (releaseReservation a0 s).retire = s.retire ∧ (releaseReservation a0 s).jam = s.jam
    ∧ (releaseReservation a0 s).mem = s.mem ∧ (releaseReservation a0 s).ctl = s.ctl
    ∧ (releaseReservation a0 s).config = s.config ∧ (releaseReservation a0 s).pending = s.pending
    ∧ (releaseReservation a0 s).out = s.out ∧ (releaseReservation a0 s).freeIndex = s.freeIndex := by
  simp only [releaseReservation]
  (repeat' split) <;> simp

@[simp] theorem skipCandidate_frame (a0 : Nat) (s : State) : (skipCandidate a0 s).transport = s.transport
    ∧ (skipCandidate a0 s).clock = s.clock ∧ (skipCandidate a0 s).fetch.pos = s.fetch.pos
    ∧ (skipCandidate a0 s).fetch.stack = s.fetch.stack ∧ (skipCandidate a0 s).fetch.outer = s.fetch.outer
    ∧ (skipCandidate a0 s).fetch.chain = s.fetch.chain ∧ (skipCandidate a0 s).fetch.resync = s.fetch.resync
    ∧ (skipCandidate a0 s).fetch.read = s.fetch.read ∧ (skipCandidate a0 s).fetch.rereadAsked = s.fetch.rereadAsked
    ∧ (skipCandidate a0 s).fetch.nextId = s.fetch.nextId ∧ (skipCandidate a0 s).mail.bins = s.mail.bins
    ∧ (skipCandidate a0 s).mail.purgeCount = s.mail.purgeCount
    ∧ (skipCandidate a0 s).mail.purgeFull = s.mail.purgeFull
    ∧ (skipCandidate a0 s).mail.binWaitArm = s.mail.binWaitArm
    ∧ (skipCandidate a0 s).mail.waitingOpen = s.mail.waitingOpen ∧ (skipCandidate a0 s).mail.nextId = s.mail.nextId
    ∧ (skipCandidate a0 s).launch.schedule = s.launch.schedule
    ∧ (skipCandidate a0 s).launch.candRead = s.launch.candRead
    ∧ (skipCandidate a0 s).launch.emptyCount = s.launch.emptyCount
    ∧ (skipCandidate a0 s).launch.starvedArm = s.launch.starvedArm
    ∧ (skipCandidate a0 s).launch.trayArm = s.launch.trayArm ∧ (skipCandidate a0 s).launch.trays = s.launch.trays
    ∧ (skipCandidate a0 s).launch.wakeAsked = s.launch.wakeAsked ∧ (skipCandidate a0 s).track = s.track
    ∧ (skipCandidate a0 s).exit = s.exit ∧ (skipCandidate a0 s).retire = s.retire ∧ (skipCandidate a0 s).jam = s.jam
    ∧ (skipCandidate a0 s).mem = s.mem ∧ (skipCandidate a0 s).ctl = s.ctl ∧ (skipCandidate a0 s).config = s.config
    ∧ (skipCandidate a0 s).pending = s.pending ∧ (skipCandidate a0 s).out = s.out
    ∧ (skipCandidate a0 s).freeIndex = s.freeIndex := by
  simp only [skipCandidate]
  (repeat' split) <;> simp

@[simp] theorem enterPurging_frame (a0 : Nat) (a1 : Reason) (s : State) :
    (enterPurging a0 a1 s).transport = s.transport
    ∧ (enterPurging a0 a1 s).clock = s.clock ∧ (enterPurging a0 a1 s).fetch.pos = s.fetch.pos
    ∧ (enterPurging a0 a1 s).fetch.stack = s.fetch.stack ∧ (enterPurging a0 a1 s).fetch.outer = s.fetch.outer
    ∧ (enterPurging a0 a1 s).fetch.chain = s.fetch.chain ∧ (enterPurging a0 a1 s).fetch.resync = s.fetch.resync
    ∧ (enterPurging a0 a1 s).fetch.read = s.fetch.read
    ∧ (enterPurging a0 a1 s).fetch.rereadAsked = s.fetch.rereadAsked
    ∧ (enterPurging a0 a1 s).fetch.nextId = s.fetch.nextId
    ∧ (enterPurging a0 a1 s).mail.purgeCount = s.mail.purgeCount
    ∧ (enterPurging a0 a1 s).mail.purgeFull = s.mail.purgeFull
    ∧ (enterPurging a0 a1 s).mail.binWaitArm = s.mail.binWaitArm
    ∧ (enterPurging a0 a1 s).mail.waitingOpen = s.mail.waitingOpen
    ∧ (enterPurging a0 a1 s).mail.nextId = s.mail.nextId ∧ (enterPurging a0 a1 s).launch.schedule = s.launch.schedule
    ∧ (enterPurging a0 a1 s).launch.candRead = s.launch.candRead
    ∧ (enterPurging a0 a1 s).launch.emptyCount = s.launch.emptyCount
    ∧ (enterPurging a0 a1 s).launch.starvedArm = s.launch.starvedArm
    ∧ (enterPurging a0 a1 s).launch.trayArm = s.launch.trayArm ∧ (enterPurging a0 a1 s).launch.trays = s.launch.trays
    ∧ (enterPurging a0 a1 s).launch.wakeAsked = s.launch.wakeAsked
    ∧ (enterPurging a0 a1 s).track.queues = s.track.queues ∧ (enterPurging a0 a1 s).track.fifo = s.track.fifo
    ∧ (enterPurging a0 a1 s).track.tracking = s.track.tracking ∧ (enterPurging a0 a1 s).track.d1 = s.track.d1
    ∧ (enterPurging a0 a1 s).track.nextId = s.track.nextId ∧ (enterPurging a0 a1 s).exit = s.exit
    ∧ (enterPurging a0 a1 s).retire = s.retire ∧ (enterPurging a0 a1 s).jam = s.jam
    ∧ (enterPurging a0 a1 s).mem = s.mem ∧ (enterPurging a0 a1 s).ctl = s.ctl
    ∧ (enterPurging a0 a1 s).config = s.config ∧ (enterPurging a0 a1 s).pending = s.pending
    ∧ (enterPurging a0 a1 s).out = s.out ∧ (enterPurging a0 a1 s).freeIndex = s.freeIndex := by
  simp only [enterPurging]
  (repeat' split) <;> simp

@[simp] theorem closeShort_frame (a0 : Mailpiece) (s : State) : (closeShort a0 s).transport = s.transport
    ∧ (closeShort a0 s).clock = s.clock ∧ (closeShort a0 s).fetch.pos = s.fetch.pos
    ∧ (closeShort a0 s).fetch.stack = s.fetch.stack ∧ (closeShort a0 s).fetch.outer = s.fetch.outer
    ∧ (closeShort a0 s).fetch.chain = s.fetch.chain ∧ (closeShort a0 s).fetch.resync = s.fetch.resync
    ∧ (closeShort a0 s).fetch.read = s.fetch.read ∧ (closeShort a0 s).fetch.rereadAsked = s.fetch.rereadAsked
    ∧ (closeShort a0 s).fetch.nextId = s.fetch.nextId ∧ (closeShort a0 s).mail.purgeCount = s.mail.purgeCount
    ∧ (closeShort a0 s).mail.purgeFull = s.mail.purgeFull ∧ (closeShort a0 s).mail.binWaitArm = s.mail.binWaitArm
    ∧ (closeShort a0 s).mail.waitingOpen = s.mail.waitingOpen ∧ (closeShort a0 s).mail.nextId = s.mail.nextId
    ∧ (closeShort a0 s).launch.schedule = s.launch.schedule ∧ (closeShort a0 s).launch.candRead = s.launch.candRead
    ∧ (closeShort a0 s).launch.emptyCount = s.launch.emptyCount
    ∧ (closeShort a0 s).launch.starvedArm = s.launch.starvedArm ∧ (closeShort a0 s).launch.trayArm = s.launch.trayArm
    ∧ (closeShort a0 s).launch.trays = s.launch.trays ∧ (closeShort a0 s).launch.wakeAsked = s.launch.wakeAsked
    ∧ (closeShort a0 s).track.queues = s.track.queues ∧ (closeShort a0 s).track.fifo = s.track.fifo
    ∧ (closeShort a0 s).track.tracking = s.track.tracking ∧ (closeShort a0 s).track.d1 = s.track.d1
    ∧ (closeShort a0 s).track.nextId = s.track.nextId ∧ (closeShort a0 s).exit = s.exit
    ∧ (closeShort a0 s).retire = s.retire ∧ (closeShort a0 s).jam = s.jam ∧ (closeShort a0 s).mem = s.mem
    ∧ (closeShort a0 s).ctl = s.ctl ∧ (closeShort a0 s).config = s.config ∧ (closeShort a0 s).pending = s.pending
    ∧ (closeShort a0 s).out = s.out ∧ (closeShort a0 s).freeIndex = s.freeIndex := by
  simp only [closeShort]
  (repeat' split) <;> simp

@[simp] theorem acceptOpen_frame (a0 : Entry) (s : State) : (acceptOpen a0 s).transport = s.transport
    ∧ (acceptOpen a0 s).clock = s.clock ∧ (acceptOpen a0 s).fetch.pos = s.fetch.pos
    ∧ (acceptOpen a0 s).fetch.stack = s.fetch.stack ∧ (acceptOpen a0 s).fetch.outer = s.fetch.outer
    ∧ (acceptOpen a0 s).fetch.chain = s.fetch.chain ∧ (acceptOpen a0 s).fetch.resync = s.fetch.resync
    ∧ (acceptOpen a0 s).fetch.read = s.fetch.read ∧ (acceptOpen a0 s).fetch.rereadAsked = s.fetch.rereadAsked
    ∧ (acceptOpen a0 s).fetch.nextId = s.fetch.nextId ∧ (acceptOpen a0 s).mail.bins = s.mail.bins
    ∧ (acceptOpen a0 s).mail.purgeCount = s.mail.purgeCount ∧ (acceptOpen a0 s).mail.purgeFull = s.mail.purgeFull
    ∧ (acceptOpen a0 s).mail.binWaitArm = s.mail.binWaitArm ∧ (acceptOpen a0 s).launch = s.launch
    ∧ (acceptOpen a0 s).track = s.track ∧ (acceptOpen a0 s).exit = s.exit ∧ (acceptOpen a0 s).retire = s.retire
    ∧ (acceptOpen a0 s).jam = s.jam ∧ (acceptOpen a0 s).mem = s.mem ∧ (acceptOpen a0 s).ctl = s.ctl
    ∧ (acceptOpen a0 s).config = s.config ∧ (acceptOpen a0 s).pending = s.pending ∧ (acceptOpen a0 s).out = s.out
    ∧ (acceptOpen a0 s).freeIndex = s.freeIndex := by
  simp [acceptOpen]

@[simp] theorem takeOpen_frame (a0 : Entry) (s : State) : (takeOpen a0 s).transport = s.transport
    ∧ (takeOpen a0 s).clock = s.clock ∧ (takeOpen a0 s).fetch.pos = s.fetch.pos
    ∧ (takeOpen a0 s).fetch.stack = s.fetch.stack ∧ (takeOpen a0 s).fetch.outer = s.fetch.outer
    ∧ (takeOpen a0 s).fetch.chain = s.fetch.chain ∧ (takeOpen a0 s).fetch.resync = s.fetch.resync
    ∧ (takeOpen a0 s).fetch.read = s.fetch.read ∧ (takeOpen a0 s).fetch.rereadAsked = s.fetch.rereadAsked
    ∧ (takeOpen a0 s).fetch.nextId = s.fetch.nextId ∧ (takeOpen a0 s).mail.purgeCount = s.mail.purgeCount
    ∧ (takeOpen a0 s).mail.purgeFull = s.mail.purgeFull ∧ (takeOpen a0 s).mail.binWaitArm = s.mail.binWaitArm
    ∧ (takeOpen a0 s).launch.schedule = s.launch.schedule ∧ (takeOpen a0 s).launch.candRead = s.launch.candRead
    ∧ (takeOpen a0 s).launch.emptyCount = s.launch.emptyCount
    ∧ (takeOpen a0 s).launch.starvedArm = s.launch.starvedArm ∧ (takeOpen a0 s).launch.trayArm = s.launch.trayArm
    ∧ (takeOpen a0 s).launch.trays = s.launch.trays ∧ (takeOpen a0 s).launch.wakeAsked = s.launch.wakeAsked
    ∧ (takeOpen a0 s).track.queues = s.track.queues ∧ (takeOpen a0 s).track.fifo = s.track.fifo
    ∧ (takeOpen a0 s).track.tracking = s.track.tracking ∧ (takeOpen a0 s).track.d1 = s.track.d1
    ∧ (takeOpen a0 s).track.nextId = s.track.nextId ∧ (takeOpen a0 s).exit = s.exit
    ∧ (takeOpen a0 s).retire = s.retire ∧ (takeOpen a0 s).jam = s.jam ∧ (takeOpen a0 s).mem = s.mem
    ∧ (takeOpen a0 s).ctl = s.ctl ∧ (takeOpen a0 s).config = s.config ∧ (takeOpen a0 s).pending = s.pending
    ∧ (takeOpen a0 s).out = s.out ∧ (takeOpen a0 s).freeIndex = s.freeIndex := by
  simp only [takeOpen]
  (repeat' split) <;> simp

@[simp] theorem skipSheet_frame (a0 : Entry) (a1 : Nat) (s : State) : (skipSheet a0 a1 s).transport = s.transport
    ∧ (skipSheet a0 a1 s).clock = s.clock ∧ (skipSheet a0 a1 s).fetch.pos = s.fetch.pos
    ∧ (skipSheet a0 a1 s).fetch.stack = s.fetch.stack ∧ (skipSheet a0 a1 s).fetch.outer = s.fetch.outer
    ∧ (skipSheet a0 a1 s).fetch.chain = s.fetch.chain ∧ (skipSheet a0 a1 s).fetch.resync = s.fetch.resync
    ∧ (skipSheet a0 a1 s).fetch.read = s.fetch.read ∧ (skipSheet a0 a1 s).fetch.rereadAsked = s.fetch.rereadAsked
    ∧ (skipSheet a0 a1 s).fetch.nextId = s.fetch.nextId ∧ (skipSheet a0 a1 s).mail.bins = s.mail.bins
    ∧ (skipSheet a0 a1 s).mail.purgeCount = s.mail.purgeCount ∧ (skipSheet a0 a1 s).mail.purgeFull = s.mail.purgeFull
    ∧ (skipSheet a0 a1 s).mail.binWaitArm = s.mail.binWaitArm
    ∧ (skipSheet a0 a1 s).mail.waitingOpen = s.mail.waitingOpen ∧ (skipSheet a0 a1 s).mail.nextId = s.mail.nextId
    ∧ (skipSheet a0 a1 s).launch = s.launch ∧ (skipSheet a0 a1 s).track = s.track ∧ (skipSheet a0 a1 s).exit = s.exit
    ∧ (skipSheet a0 a1 s).retire = s.retire ∧ (skipSheet a0 a1 s).jam = s.jam ∧ (skipSheet a0 a1 s).mem = s.mem
    ∧ (skipSheet a0 a1 s).ctl = s.ctl ∧ (skipSheet a0 a1 s).config = s.config
    ∧ (skipSheet a0 a1 s).pending = s.pending ∧ (skipSheet a0 a1 s).out = s.out
    ∧ (skipSheet a0 a1 s).freeIndex = s.freeIndex := by
  simp [skipSheet]

@[simp] theorem assignSheet_frame (a0 : Entry) (s : State) : (assignSheet a0 s).transport = s.transport
    ∧ (assignSheet a0 s).clock = s.clock ∧ (assignSheet a0 s).fetch.pos = s.fetch.pos
    ∧ (assignSheet a0 s).fetch.stack = s.fetch.stack ∧ (assignSheet a0 s).fetch.outer = s.fetch.outer
    ∧ (assignSheet a0 s).fetch.chain = s.fetch.chain ∧ (assignSheet a0 s).fetch.resync = s.fetch.resync
    ∧ (assignSheet a0 s).fetch.read = s.fetch.read ∧ (assignSheet a0 s).fetch.rereadAsked = s.fetch.rereadAsked
    ∧ (assignSheet a0 s).fetch.nextId = s.fetch.nextId ∧ (assignSheet a0 s).mail.purgeCount = s.mail.purgeCount
    ∧ (assignSheet a0 s).mail.purgeFull = s.mail.purgeFull ∧ (assignSheet a0 s).mail.binWaitArm = s.mail.binWaitArm
    ∧ (assignSheet a0 s).mail.waitingOpen = s.mail.waitingOpen ∧ (assignSheet a0 s).mail.nextId = s.mail.nextId
    ∧ (assignSheet a0 s).launch.schedule = s.launch.schedule ∧ (assignSheet a0 s).launch.candRead = s.launch.candRead
    ∧ (assignSheet a0 s).launch.emptyCount = s.launch.emptyCount
    ∧ (assignSheet a0 s).launch.starvedArm = s.launch.starvedArm
    ∧ (assignSheet a0 s).launch.trayArm = s.launch.trayArm ∧ (assignSheet a0 s).launch.trays = s.launch.trays
    ∧ (assignSheet a0 s).launch.wakeAsked = s.launch.wakeAsked ∧ (assignSheet a0 s).track.queues = s.track.queues
    ∧ (assignSheet a0 s).track.fifo = s.track.fifo ∧ (assignSheet a0 s).track.tracking = s.track.tracking
    ∧ (assignSheet a0 s).track.d1 = s.track.d1 ∧ (assignSheet a0 s).track.nextId = s.track.nextId
    ∧ (assignSheet a0 s).exit = s.exit ∧ (assignSheet a0 s).retire = s.retire ∧ (assignSheet a0 s).jam = s.jam
    ∧ (assignSheet a0 s).mem = s.mem ∧ (assignSheet a0 s).ctl = s.ctl ∧ (assignSheet a0 s).config = s.config
    ∧ (assignSheet a0 s).pending = s.pending ∧ (assignSheet a0 s).out = s.out
    ∧ (assignSheet a0 s).freeIndex = s.freeIndex := by
  simp only [assignSheet]
  (repeat' split) <;> simp

@[simp] theorem reserveBin_frame (a0 : Mailpiece) (a1 : Bin) (s : State) :
    (reserveBin a0 a1 s).transport = s.transport
    ∧ (reserveBin a0 a1 s).clock = s.clock ∧ (reserveBin a0 a1 s).fetch = s.fetch
    ∧ (reserveBin a0 a1 s).mail.purgeCount = s.mail.purgeCount
    ∧ (reserveBin a0 a1 s).mail.purgeFull = s.mail.purgeFull
    ∧ (reserveBin a0 a1 s).mail.binWaitArm = s.mail.binWaitArm
    ∧ (reserveBin a0 a1 s).mail.waitingOpen = s.mail.waitingOpen ∧ (reserveBin a0 a1 s).mail.nextId = s.mail.nextId
    ∧ (reserveBin a0 a1 s).launch = s.launch ∧ (reserveBin a0 a1 s).track = s.track
    ∧ (reserveBin a0 a1 s).exit = s.exit ∧ (reserveBin a0 a1 s).retire = s.retire ∧ (reserveBin a0 a1 s).jam = s.jam
    ∧ (reserveBin a0 a1 s).mem = s.mem ∧ (reserveBin a0 a1 s).ctl = s.ctl ∧ (reserveBin a0 a1 s).config = s.config
    ∧ (reserveBin a0 a1 s).pending = s.pending ∧ (reserveBin a0 a1 s).out = s.out
    ∧ (reserveBin a0 a1 s).freeIndex = s.freeIndex := by
  simp [reserveBin]

@[simp] theorem countPurge_frame (s : State) : (countPurge s).transport = s.transport ∧ (countPurge s).clock = s.clock
    ∧ (countPurge s).fetch = s.fetch ∧ (countPurge s).mail.table = s.mail.table
    ∧ (countPurge s).mail.bins = s.mail.bins ∧ (countPurge s).mail.purgeFull = s.mail.purgeFull
    ∧ (countPurge s).mail.binWaitArm = s.mail.binWaitArm ∧ (countPurge s).mail.waitingOpen = s.mail.waitingOpen
    ∧ (countPurge s).mail.nextId = s.mail.nextId ∧ (countPurge s).launch = s.launch ∧ (countPurge s).track = s.track
    ∧ (countPurge s).exit = s.exit ∧ (countPurge s).retire = s.retire ∧ (countPurge s).jam = s.jam
    ∧ (countPurge s).mem = s.mem ∧ (countPurge s).ctl = s.ctl ∧ (countPurge s).config = s.config
    ∧ (countPurge s).pending = s.pending ∧ (countPurge s).out = s.out := by
  simp only [countPurge]
  (repeat' split) <;> simp

@[simp] theorem notePurgeFull_frame (s : State) : (notePurgeFull s).transport = s.transport
    ∧ (notePurgeFull s).clock = s.clock ∧ (notePurgeFull s).fetch = s.fetch
    ∧ (notePurgeFull s).mail.table = s.mail.table ∧ (notePurgeFull s).mail.bins = s.mail.bins
    ∧ (notePurgeFull s).mail.purgeCount = s.mail.purgeCount ∧ (notePurgeFull s).mail.binWaitArm = s.mail.binWaitArm
    ∧ (notePurgeFull s).mail.waitingOpen = s.mail.waitingOpen ∧ (notePurgeFull s).mail.nextId = s.mail.nextId
    ∧ (notePurgeFull s).launch = s.launch ∧ (notePurgeFull s).track = s.track ∧ (notePurgeFull s).exit = s.exit
    ∧ (notePurgeFull s).retire = s.retire ∧ (notePurgeFull s).jam = s.jam ∧ (notePurgeFull s).mem = s.mem
    ∧ (notePurgeFull s).ctl.area = s.ctl.area ∧ (notePurgeFull s).ctl.state = s.ctl.state
    ∧ (notePurgeFull s).ctl.cmd = s.ctl.cmd ∧ (notePurgeFull s).ctl.lastCommand = s.ctl.lastCommand
    ∧ (notePurgeFull s).ctl.lastOutcome = s.ctl.lastOutcome ∧ (notePurgeFull s).ctl.validation = s.ctl.validation
    ∧ (notePurgeFull s).ctl.lastSkip = s.ctl.lastSkip ∧ (notePurgeFull s).ctl.amask = s.ctl.amask
    ∧ (notePurgeFull s).ctl.pauseRec = s.ctl.pauseRec ∧ (notePurgeFull s).config = s.config
    ∧ (notePurgeFull s).pending = s.pending ∧ (notePurgeFull s).out = s.out
    ∧ (notePurgeFull s).freeIndex = s.freeIndex := by
  simp only [notePurgeFull]
  (repeat' split) <;> simp

@[simp] theorem reevaluatePurgeFull_frame (s : State) : (reevaluatePurgeFull s).transport = s.transport
    ∧ (reevaluatePurgeFull s).clock = s.clock ∧ (reevaluatePurgeFull s).fetch = s.fetch
    ∧ (reevaluatePurgeFull s).mail.table = s.mail.table ∧ (reevaluatePurgeFull s).mail.bins = s.mail.bins
    ∧ (reevaluatePurgeFull s).mail.purgeCount = s.mail.purgeCount
    ∧ (reevaluatePurgeFull s).mail.binWaitArm = s.mail.binWaitArm
    ∧ (reevaluatePurgeFull s).mail.waitingOpen = s.mail.waitingOpen
    ∧ (reevaluatePurgeFull s).mail.nextId = s.mail.nextId ∧ (reevaluatePurgeFull s).launch = s.launch
    ∧ (reevaluatePurgeFull s).track = s.track ∧ (reevaluatePurgeFull s).exit = s.exit
    ∧ (reevaluatePurgeFull s).retire = s.retire ∧ (reevaluatePurgeFull s).jam = s.jam
    ∧ (reevaluatePurgeFull s).mem = s.mem ∧ (reevaluatePurgeFull s).ctl.area = s.ctl.area
    ∧ (reevaluatePurgeFull s).ctl.state = s.ctl.state ∧ (reevaluatePurgeFull s).ctl.cmd = s.ctl.cmd
    ∧ (reevaluatePurgeFull s).ctl.lastCommand = s.ctl.lastCommand
    ∧ (reevaluatePurgeFull s).ctl.lastOutcome = s.ctl.lastOutcome
    ∧ (reevaluatePurgeFull s).ctl.validation = s.ctl.validation
    ∧ (reevaluatePurgeFull s).ctl.lastSkip = s.ctl.lastSkip ∧ (reevaluatePurgeFull s).ctl.amask = s.ctl.amask
    ∧ (reevaluatePurgeFull s).ctl.pauseRec = s.ctl.pauseRec ∧ (reevaluatePurgeFull s).config = s.config
    ∧ (reevaluatePurgeFull s).pending = s.pending ∧ (reevaluatePurgeFull s).out = s.out
    ∧ (reevaluatePurgeFull s).freeIndex = s.freeIndex := by
  simp only [reevaluatePurgeFull]
  (repeat' split) <;> simp

@[simp] theorem reportStacked_frame (a0 : Nat) (a1 : Bin) (s : State) :
    (reportStacked a0 a1 s).transport = s.transport
    ∧ (reportStacked a0 a1 s).clock = s.clock ∧ (reportStacked a0 a1 s).fetch = s.fetch
    ∧ (reportStacked a0 a1 s).mail.purgeCount = s.mail.purgeCount
    ∧ (reportStacked a0 a1 s).mail.purgeFull = s.mail.purgeFull
    ∧ (reportStacked a0 a1 s).mail.binWaitArm = s.mail.binWaitArm
    ∧ (reportStacked a0 a1 s).mail.waitingOpen = s.mail.waitingOpen
    ∧ (reportStacked a0 a1 s).mail.nextId = s.mail.nextId ∧ (reportStacked a0 a1 s).launch = s.launch
    ∧ (reportStacked a0 a1 s).track = s.track ∧ (reportStacked a0 a1 s).exit = s.exit
    ∧ (reportStacked a0 a1 s).retire = s.retire ∧ (reportStacked a0 a1 s).jam = s.jam
    ∧ (reportStacked a0 a1 s).mem = s.mem ∧ (reportStacked a0 a1 s).ctl = s.ctl
    ∧ (reportStacked a0 a1 s).config = s.config ∧ (reportStacked a0 a1 s).pending = s.pending
    ∧ (reportStacked a0 a1 s).out = s.out ∧ (reportStacked a0 a1 s).freeIndex = s.freeIndex := by
  simp [reportStacked]

@[simp] theorem reportPurged_frame (a0 : Nat) (s : State) : (reportPurged a0 s).transport = s.transport
    ∧ (reportPurged a0 s).clock = s.clock ∧ (reportPurged a0 s).fetch = s.fetch
    ∧ (reportPurged a0 s).mail.bins = s.mail.bins ∧ (reportPurged a0 s).mail.binWaitArm = s.mail.binWaitArm
    ∧ (reportPurged a0 s).mail.waitingOpen = s.mail.waitingOpen ∧ (reportPurged a0 s).mail.nextId = s.mail.nextId
    ∧ (reportPurged a0 s).launch = s.launch ∧ (reportPurged a0 s).track = s.track ∧ (reportPurged a0 s).exit = s.exit
    ∧ (reportPurged a0 s).retire = s.retire ∧ (reportPurged a0 s).jam = s.jam ∧ (reportPurged a0 s).mem = s.mem
    ∧ (reportPurged a0 s).ctl.area = s.ctl.area ∧ (reportPurged a0 s).ctl.state = s.ctl.state
    ∧ (reportPurged a0 s).ctl.cmd = s.ctl.cmd ∧ (reportPurged a0 s).ctl.lastCommand = s.ctl.lastCommand
    ∧ (reportPurged a0 s).ctl.lastOutcome = s.ctl.lastOutcome ∧ (reportPurged a0 s).ctl.validation = s.ctl.validation
    ∧ (reportPurged a0 s).ctl.lastSkip = s.ctl.lastSkip ∧ (reportPurged a0 s).ctl.amask = s.ctl.amask
    ∧ (reportPurged a0 s).ctl.pauseRec = s.ctl.pauseRec ∧ (reportPurged a0 s).config = s.config
    ∧ (reportPurged a0 s).pending = s.pending ∧ (reportPurged a0 s).out = s.out := by
  simp [reportPurged]

@[simp] theorem reportLost_frame (a0 : Sheet) (s : State) : (reportLost a0 s).transport = s.transport
    ∧ (reportLost a0 s).clock = s.clock ∧ (reportLost a0 s).fetch = s.fetch
    ∧ (reportLost a0 s).mail.purgeCount = s.mail.purgeCount ∧ (reportLost a0 s).mail.purgeFull = s.mail.purgeFull
    ∧ (reportLost a0 s).mail.binWaitArm = s.mail.binWaitArm ∧ (reportLost a0 s).mail.waitingOpen = s.mail.waitingOpen
    ∧ (reportLost a0 s).mail.nextId = s.mail.nextId ∧ (reportLost a0 s).launch = s.launch
    ∧ (reportLost a0 s).track = s.track ∧ (reportLost a0 s).exit = s.exit ∧ (reportLost a0 s).retire = s.retire
    ∧ (reportLost a0 s).jam = s.jam ∧ (reportLost a0 s).mem = s.mem ∧ (reportLost a0 s).ctl = s.ctl
    ∧ (reportLost a0 s).config = s.config ∧ (reportLost a0 s).pending = s.pending ∧ (reportLost a0 s).out = s.out
    ∧ (reportLost a0 s).freeIndex = s.freeIndex := by
  simp only [reportLost]
  (repeat' split) <;> simp

@[simp] theorem unload_frame (a0 : Dest) (s : State) : (unload a0 s).transport = s.transport
    ∧ (unload a0 s).clock = s.clock ∧ (unload a0 s).fetch = s.fetch ∧ (unload a0 s).mail.table = s.mail.table
    ∧ (unload a0 s).mail.binWaitArm = s.mail.binWaitArm ∧ (unload a0 s).mail.waitingOpen = s.mail.waitingOpen
    ∧ (unload a0 s).mail.nextId = s.mail.nextId ∧ (unload a0 s).launch = s.launch ∧ (unload a0 s).track = s.track
    ∧ (unload a0 s).exit = s.exit ∧ (unload a0 s).retire = s.retire ∧ (unload a0 s).jam = s.jam
    ∧ (unload a0 s).mem = s.mem ∧ (unload a0 s).ctl = s.ctl ∧ (unload a0 s).config = s.config
    ∧ (unload a0 s).pending = s.pending ∧ (unload a0 s).out = s.out ∧ (unload a0 s).freeIndex = s.freeIndex := by
  simp only [unload]
  (repeat' split) <;> simp

@[simp] theorem settleMp_frame (a0 : Bool) (s : State) (a2 : Mailpiece) : (settleMp a0 s a2).transport = s.transport
    ∧ (settleMp a0 s a2).clock = s.clock ∧ (settleMp a0 s a2).fetch.pos = s.fetch.pos
    ∧ (settleMp a0 s a2).fetch.stack = s.fetch.stack ∧ (settleMp a0 s a2).fetch.outer = s.fetch.outer
    ∧ (settleMp a0 s a2).fetch.chain = s.fetch.chain ∧ (settleMp a0 s a2).fetch.resync = s.fetch.resync
    ∧ (settleMp a0 s a2).fetch.read = s.fetch.read ∧ (settleMp a0 s a2).fetch.rereadAsked = s.fetch.rereadAsked
    ∧ (settleMp a0 s a2).fetch.nextId = s.fetch.nextId ∧ (settleMp a0 s a2).mail.bins = s.mail.bins
    ∧ (settleMp a0 s a2).mail.purgeCount = s.mail.purgeCount ∧ (settleMp a0 s a2).mail.purgeFull = s.mail.purgeFull
    ∧ (settleMp a0 s a2).mail.binWaitArm = s.mail.binWaitArm
    ∧ (settleMp a0 s a2).mail.waitingOpen = s.mail.waitingOpen ∧ (settleMp a0 s a2).mail.nextId = s.mail.nextId
    ∧ (settleMp a0 s a2).launch = s.launch ∧ (settleMp a0 s a2).track = s.track ∧ (settleMp a0 s a2).exit = s.exit
    ∧ (settleMp a0 s a2).retire = s.retire ∧ (settleMp a0 s a2).jam = s.jam ∧ (settleMp a0 s a2).mem = s.mem
    ∧ (settleMp a0 s a2).ctl = s.ctl ∧ (settleMp a0 s a2).config = s.config ∧ (settleMp a0 s a2).pending = s.pending
    ∧ (settleMp a0 s a2).out = s.out ∧ (settleMp a0 s a2).freeIndex = s.freeIndex := by
  simp only [settleMp]
  (repeat' split) <;> simp

@[simp] theorem settleMailpieces_frame (a0 : Bool) (s : State) : (settleMailpieces a0 s).transport = s.transport
    ∧ (settleMailpieces a0 s).clock = s.clock ∧ (settleMailpieces a0 s).fetch.pos = s.fetch.pos
    ∧ (settleMailpieces a0 s).fetch.stack = s.fetch.stack ∧ (settleMailpieces a0 s).fetch.outer = s.fetch.outer
    ∧ (settleMailpieces a0 s).fetch.chain = s.fetch.chain ∧ (settleMailpieces a0 s).fetch.resync = s.fetch.resync
    ∧ (settleMailpieces a0 s).fetch.read = s.fetch.read
    ∧ (settleMailpieces a0 s).fetch.rereadAsked = s.fetch.rereadAsked
    ∧ (settleMailpieces a0 s).fetch.nextId = s.fetch.nextId ∧ (settleMailpieces a0 s).mail.bins = s.mail.bins
    ∧ (settleMailpieces a0 s).mail.purgeCount = s.mail.purgeCount
    ∧ (settleMailpieces a0 s).mail.purgeFull = s.mail.purgeFull
    ∧ (settleMailpieces a0 s).mail.binWaitArm = s.mail.binWaitArm
    ∧ (settleMailpieces a0 s).mail.waitingOpen = s.mail.waitingOpen
    ∧ (settleMailpieces a0 s).mail.nextId = s.mail.nextId ∧ (settleMailpieces a0 s).launch = s.launch
    ∧ (settleMailpieces a0 s).track = s.track ∧ (settleMailpieces a0 s).exit = s.exit
    ∧ (settleMailpieces a0 s).retire = s.retire ∧ (settleMailpieces a0 s).jam = s.jam
    ∧ (settleMailpieces a0 s).mem = s.mem ∧ (settleMailpieces a0 s).ctl = s.ctl
    ∧ (settleMailpieces a0 s).config = s.config ∧ (settleMailpieces a0 s).pending = s.pending
    ∧ (settleMailpieces a0 s).out = s.out ∧ (settleMailpieces a0 s).freeIndex = s.freeIndex := by
  simp [settleMailpieces]

@[simp] theorem haltSections_frame (a0 : PerSection Bool) (s : State) :
    (haltSections a0 s).transport.count = s.transport.count
    ∧ (haltSections a0 s).transport.run = s.transport.run ∧ (haltSections a0 s).transport.state = s.transport.state
    ∧ (haltSections a0 s).transport.heldRunUp = s.transport.heldRunUp
    ∧ (haltSections a0 s).transport.sensors = s.transport.sensors
    ∧ (haltSections a0 s).transport.ref = s.transport.ref ∧ (haltSections a0 s).transport.below = s.transport.below
    ∧ (haltSections a0 s).transport.allInBand = s.transport.allInBand
    ∧ (haltSections a0 s).transport.runUpTimer = s.transport.runUpTimer
    ∧ (haltSections a0 s).transport.samplePeriod = s.transport.samplePeriod
    ∧ (haltSections a0 s).transport.speedDeviation = s.transport.speedDeviation ∧ (haltSections a0 s).clock = s.clock
    ∧ (haltSections a0 s).fetch = s.fetch ∧ (haltSections a0 s).mail = s.mail ∧ (haltSections a0 s).launch = s.launch
    ∧ (haltSections a0 s).track.sheets = s.track.sheets ∧ (haltSections a0 s).track.queues = s.track.queues
    ∧ (haltSections a0 s).track.fifo = s.track.fifo ∧ (haltSections a0 s).track.d1 = s.track.d1
    ∧ (haltSections a0 s).track.nextId = s.track.nextId ∧ (haltSections a0 s).exit = s.exit
    ∧ (haltSections a0 s).retire = s.retire ∧ (haltSections a0 s).jam = s.jam ∧ (haltSections a0 s).mem = s.mem
    ∧ (haltSections a0 s).ctl = s.ctl ∧ (haltSections a0 s).config = s.config
    ∧ (haltSections a0 s).pending = s.pending ∧ (haltSections a0 s).out = s.out
    ∧ (haltSections a0 s).freeIndex = s.freeIndex := by
  simp [haltSections]

@[simp] theorem giveMark_frame (a0 : Nat) (a1 : Reason) (s : State) : (giveMark a0 a1 s).transport = s.transport
    ∧ (giveMark a0 a1 s).clock = s.clock ∧ (giveMark a0 a1 s).fetch.pos = s.fetch.pos
    ∧ (giveMark a0 a1 s).fetch.stack = s.fetch.stack ∧ (giveMark a0 a1 s).fetch.outer = s.fetch.outer
    ∧ (giveMark a0 a1 s).fetch.chain = s.fetch.chain ∧ (giveMark a0 a1 s).fetch.resync = s.fetch.resync
    ∧ (giveMark a0 a1 s).fetch.read = s.fetch.read ∧ (giveMark a0 a1 s).fetch.rereadAsked = s.fetch.rereadAsked
    ∧ (giveMark a0 a1 s).fetch.nextId = s.fetch.nextId ∧ (giveMark a0 a1 s).mail.purgeCount = s.mail.purgeCount
    ∧ (giveMark a0 a1 s).mail.purgeFull = s.mail.purgeFull ∧ (giveMark a0 a1 s).mail.binWaitArm = s.mail.binWaitArm
    ∧ (giveMark a0 a1 s).mail.waitingOpen = s.mail.waitingOpen ∧ (giveMark a0 a1 s).mail.nextId = s.mail.nextId
    ∧ (giveMark a0 a1 s).launch.schedule = s.launch.schedule ∧ (giveMark a0 a1 s).launch.candRead = s.launch.candRead
    ∧ (giveMark a0 a1 s).launch.emptyCount = s.launch.emptyCount
    ∧ (giveMark a0 a1 s).launch.starvedArm = s.launch.starvedArm
    ∧ (giveMark a0 a1 s).launch.trayArm = s.launch.trayArm ∧ (giveMark a0 a1 s).launch.trays = s.launch.trays
    ∧ (giveMark a0 a1 s).launch.wakeAsked = s.launch.wakeAsked ∧ (giveMark a0 a1 s).track.queues = s.track.queues
    ∧ (giveMark a0 a1 s).track.fifo = s.track.fifo ∧ (giveMark a0 a1 s).track.tracking = s.track.tracking
    ∧ (giveMark a0 a1 s).track.d1 = s.track.d1 ∧ (giveMark a0 a1 s).track.nextId = s.track.nextId
    ∧ (giveMark a0 a1 s).exit = s.exit ∧ (giveMark a0 a1 s).retire = s.retire ∧ (giveMark a0 a1 s).jam = s.jam
    ∧ (giveMark a0 a1 s).mem = s.mem ∧ (giveMark a0 a1 s).ctl = s.ctl ∧ (giveMark a0 a1 s).config = s.config
    ∧ (giveMark a0 a1 s).pending = s.pending ∧ (giveMark a0 a1 s).out = s.out
    ∧ (giveMark a0 a1 s).freeIndex = s.freeIndex := by
  simp only [giveMark]
  (repeat' split) <;> simp

@[simp] theorem leaveQueue_frame (a0 : Nat) (a1 : Checkpoint) (s : State) :
    (leaveQueue a0 a1 s).transport.count = s.transport.count
    ∧ (leaveQueue a0 a1 s).transport.run = s.transport.run ∧ (leaveQueue a0 a1 s).transport.state = s.transport.state
    ∧ (leaveQueue a0 a1 s).transport.heldRunUp = s.transport.heldRunUp
    ∧ (leaveQueue a0 a1 s).transport.sensors = s.transport.sensors
    ∧ (leaveQueue a0 a1 s).transport.ref = s.transport.ref ∧ (leaveQueue a0 a1 s).transport.below = s.transport.below
    ∧ (leaveQueue a0 a1 s).transport.allInBand = s.transport.allInBand
    ∧ (leaveQueue a0 a1 s).transport.runUpTimer = s.transport.runUpTimer
    ∧ (leaveQueue a0 a1 s).transport.samplePeriod = s.transport.samplePeriod
    ∧ (leaveQueue a0 a1 s).transport.speedDeviation = s.transport.speedDeviation
    ∧ (leaveQueue a0 a1 s).clock = s.clock ∧ (leaveQueue a0 a1 s).fetch = s.fetch ∧ (leaveQueue a0 a1 s).mail = s.mail
    ∧ (leaveQueue a0 a1 s).launch = s.launch ∧ (leaveQueue a0 a1 s).track.sheets = s.track.sheets
    ∧ (leaveQueue a0 a1 s).track.fifo = s.track.fifo ∧ (leaveQueue a0 a1 s).track.tracking = s.track.tracking
    ∧ (leaveQueue a0 a1 s).track.d1 = s.track.d1 ∧ (leaveQueue a0 a1 s).track.nextId = s.track.nextId
    ∧ (leaveQueue a0 a1 s).exit = s.exit ∧ (leaveQueue a0 a1 s).retire = s.retire ∧ (leaveQueue a0 a1 s).jam = s.jam
    ∧ (leaveQueue a0 a1 s).mem = s.mem ∧ (leaveQueue a0 a1 s).ctl = s.ctl ∧ (leaveQueue a0 a1 s).config = s.config
    ∧ (leaveQueue a0 a1 s).pending = s.pending ∧ (leaveQueue a0 a1 s).out = s.out
    ∧ (leaveQueue a0 a1 s).freeIndex = s.freeIndex := by
  simp [leaveQueue]

@[simp] theorem enterQueue_frame (a0 : Installed) (a1 : Nat) (a2 : Checkpoint) (a3 : Pos) (a4 : Nat) (s : State) :
    (enterQueue a0 a1 a2 a3 a4 s).transport.count = s.transport.count
    ∧ (enterQueue a0 a1 a2 a3 a4 s).transport.run = s.transport.run
    ∧ (enterQueue a0 a1 a2 a3 a4 s).transport.state = s.transport.state
    ∧ (enterQueue a0 a1 a2 a3 a4 s).transport.heldRunUp = s.transport.heldRunUp
    ∧ (enterQueue a0 a1 a2 a3 a4 s).transport.sensors = s.transport.sensors
    ∧ (enterQueue a0 a1 a2 a3 a4 s).transport.ref = s.transport.ref
    ∧ (enterQueue a0 a1 a2 a3 a4 s).transport.below = s.transport.below
    ∧ (enterQueue a0 a1 a2 a3 a4 s).transport.allInBand = s.transport.allInBand
    ∧ (enterQueue a0 a1 a2 a3 a4 s).transport.runUpTimer = s.transport.runUpTimer
    ∧ (enterQueue a0 a1 a2 a3 a4 s).transport.samplePeriod = s.transport.samplePeriod
    ∧ (enterQueue a0 a1 a2 a3 a4 s).transport.speedDeviation = s.transport.speedDeviation
    ∧ (enterQueue a0 a1 a2 a3 a4 s).clock = s.clock ∧ (enterQueue a0 a1 a2 a3 a4 s).fetch = s.fetch
    ∧ (enterQueue a0 a1 a2 a3 a4 s).mail = s.mail ∧ (enterQueue a0 a1 a2 a3 a4 s).launch = s.launch
    ∧ (enterQueue a0 a1 a2 a3 a4 s).track.fifo = s.track.fifo
    ∧ (enterQueue a0 a1 a2 a3 a4 s).track.tracking = s.track.tracking
    ∧ (enterQueue a0 a1 a2 a3 a4 s).track.d1 = s.track.d1
    ∧ (enterQueue a0 a1 a2 a3 a4 s).track.nextId = s.track.nextId ∧ (enterQueue a0 a1 a2 a3 a4 s).exit = s.exit
    ∧ (enterQueue a0 a1 a2 a3 a4 s).retire = s.retire ∧ (enterQueue a0 a1 a2 a3 a4 s).jam = s.jam
    ∧ (enterQueue a0 a1 a2 a3 a4 s).mem = s.mem ∧ (enterQueue a0 a1 a2 a3 a4 s).ctl = s.ctl
    ∧ (enterQueue a0 a1 a2 a3 a4 s).config = s.config ∧ (enterQueue a0 a1 a2 a3 a4 s).pending = s.pending
    ∧ (enterQueue a0 a1 a2 a3 a4 s).out = s.out ∧ (enterQueue a0 a1 a2 a3 a4 s).freeIndex = s.freeIndex := by
  simp [enterQueue]

@[simp] theorem freeSheet_frame (a0 : Nat) (s : State) : (freeSheet a0 s).transport.count = s.transport.count
    ∧ (freeSheet a0 s).transport.run = s.transport.run ∧ (freeSheet a0 s).transport.state = s.transport.state
    ∧ (freeSheet a0 s).transport.heldRunUp = s.transport.heldRunUp
    ∧ (freeSheet a0 s).transport.sensors = s.transport.sensors ∧ (freeSheet a0 s).transport.ref = s.transport.ref
    ∧ (freeSheet a0 s).transport.below = s.transport.below
    ∧ (freeSheet a0 s).transport.allInBand = s.transport.allInBand
    ∧ (freeSheet a0 s).transport.runUpTimer = s.transport.runUpTimer
    ∧ (freeSheet a0 s).transport.samplePeriod = s.transport.samplePeriod
    ∧ (freeSheet a0 s).transport.speedDeviation = s.transport.speedDeviation ∧ (freeSheet a0 s).clock = s.clock
    ∧ (freeSheet a0 s).fetch = s.fetch ∧ (freeSheet a0 s).mail = s.mail ∧ (freeSheet a0 s).launch = s.launch
    ∧ (freeSheet a0 s).track.tracking = s.track.tracking ∧ (freeSheet a0 s).track.d1 = s.track.d1
    ∧ (freeSheet a0 s).track.nextId = s.track.nextId ∧ (freeSheet a0 s).exit = s.exit
    ∧ (freeSheet a0 s).retire = s.retire ∧ (freeSheet a0 s).jam = s.jam ∧ (freeSheet a0 s).mem = s.mem
    ∧ (freeSheet a0 s).ctl = s.ctl ∧ (freeSheet a0 s).config = s.config ∧ (freeSheet a0 s).pending = s.pending
    ∧ (freeSheet a0 s).out = s.out ∧ (freeSheet a0 s).freeIndex = s.freeIndex := by
  simp [freeSheet]

@[simp] theorem registerBoundary_frame (s : State) : (registerBoundary s).transport.count = s.transport.count
    ∧ (registerBoundary s).transport.run = s.transport.run ∧ (registerBoundary s).transport.state = s.transport.state
    ∧ (registerBoundary s).transport.heldRunUp = s.transport.heldRunUp
    ∧ (registerBoundary s).transport.sensors = s.transport.sensors
    ∧ (registerBoundary s).transport.ref = s.transport.ref ∧ (registerBoundary s).transport.below = s.transport.below
    ∧ (registerBoundary s).transport.allInBand = s.transport.allInBand
    ∧ (registerBoundary s).transport.runUpTimer = s.transport.runUpTimer
    ∧ (registerBoundary s).transport.samplePeriod = s.transport.samplePeriod
    ∧ (registerBoundary s).transport.speedDeviation = s.transport.speedDeviation
    ∧ (registerBoundary s).clock = s.clock ∧ (registerBoundary s).fetch = s.fetch ∧ (registerBoundary s).mail = s.mail
    ∧ (registerBoundary s).launch = s.launch ∧ (registerBoundary s).track = s.track
    ∧ (registerBoundary s).exit = s.exit ∧ (registerBoundary s).retire = s.retire ∧ (registerBoundary s).jam = s.jam
    ∧ (registerBoundary s).mem = s.mem ∧ (registerBoundary s).ctl = s.ctl ∧ (registerBoundary s).config = s.config
    ∧ (registerBoundary s).pending = s.pending ∧ (registerBoundary s).out = s.out
    ∧ (registerBoundary s).freeIndex = s.freeIndex := by
  simp [registerBoundary]

@[simp] theorem stopClock_frame (s : State) : (stopClock s).transport.count = s.transport.count
    ∧ (stopClock s).transport.run = s.transport.run ∧ (stopClock s).transport.state = s.transport.state
    ∧ (stopClock s).transport.heldRunUp = s.transport.heldRunUp
    ∧ (stopClock s).transport.sensors = s.transport.sensors ∧ (stopClock s).transport.ref = s.transport.ref
    ∧ (stopClock s).transport.below = s.transport.below ∧ (stopClock s).transport.allInBand = s.transport.allInBand
    ∧ (stopClock s).transport.runUpTimer = s.transport.runUpTimer
    ∧ (stopClock s).transport.samplePeriod = s.transport.samplePeriod
    ∧ (stopClock s).transport.speedDeviation = s.transport.speedDeviation ∧ (stopClock s).clock.pitch = s.clock.pitch
    ∧ (stopClock s).clock.boundary = s.clock.boundary ∧ (stopClock s).clock.ring = s.clock.ring
    ∧ (stopClock s).clock.lastFinal = s.clock.lastFinal ∧ (stopClock s).clock.loopUnusable = s.clock.loopUnusable
    ∧ (stopClock s).fetch = s.fetch ∧ (stopClock s).mail = s.mail ∧ (stopClock s).launch = s.launch
    ∧ (stopClock s).track = s.track ∧ (stopClock s).exit = s.exit ∧ (stopClock s).retire = s.retire
    ∧ (stopClock s).jam = s.jam ∧ (stopClock s).mem = s.mem ∧ (stopClock s).ctl = s.ctl
    ∧ (stopClock s).config = s.config ∧ (stopClock s).pending = s.pending ∧ (stopClock s).out = s.out
    ∧ (stopClock s).freeIndex = s.freeIndex := by
  simp [stopClock]

@[simp] theorem startClock_frame (s : State) : (startClock s).transport.count = s.transport.count
    ∧ (startClock s).transport.run = s.transport.run ∧ (startClock s).transport.state = s.transport.state
    ∧ (startClock s).transport.heldRunUp = s.transport.heldRunUp
    ∧ (startClock s).transport.sensors = s.transport.sensors ∧ (startClock s).transport.ref = s.transport.ref
    ∧ (startClock s).transport.below = s.transport.below ∧ (startClock s).transport.allInBand = s.transport.allInBand
    ∧ (startClock s).transport.runUpTimer = s.transport.runUpTimer
    ∧ (startClock s).transport.samplePeriod = s.transport.samplePeriod
    ∧ (startClock s).transport.speedDeviation = s.transport.speedDeviation ∧ (startClock s).clock.ring = s.clock.ring
    ∧ (startClock s).clock.loopUnusable = s.clock.loopUnusable ∧ (startClock s).fetch = s.fetch
    ∧ (startClock s).mail = s.mail ∧ (startClock s).launch = s.launch ∧ (startClock s).track = s.track
    ∧ (startClock s).exit = s.exit ∧ (startClock s).retire = s.retire ∧ (startClock s).jam = s.jam
    ∧ (startClock s).mem = s.mem ∧ (startClock s).ctl = s.ctl ∧ (startClock s).config = s.config
    ∧ (startClock s).pending = s.pending ∧ (startClock s).out = s.out ∧ (startClock s).freeIndex = s.freeIndex := by
  simp [startClock]

@[simp] theorem advancePitch_frame (s : State) : (advancePitch s).transport.count = s.transport.count
    ∧ (advancePitch s).transport.run = s.transport.run ∧ (advancePitch s).transport.state = s.transport.state
    ∧ (advancePitch s).transport.heldRunUp = s.transport.heldRunUp
    ∧ (advancePitch s).transport.sensors = s.transport.sensors ∧ (advancePitch s).transport.ref = s.transport.ref
    ∧ (advancePitch s).transport.below = s.transport.below
    ∧ (advancePitch s).transport.allInBand = s.transport.allInBand
    ∧ (advancePitch s).transport.runUpTimer = s.transport.runUpTimer
    ∧ (advancePitch s).transport.samplePeriod = s.transport.samplePeriod
    ∧ (advancePitch s).transport.speedDeviation = s.transport.speedDeviation
    ∧ (advancePitch s).clock.running = s.clock.running ∧ (advancePitch s).clock.ring = s.clock.ring
    ∧ (advancePitch s).clock.lastFinal = s.clock.lastFinal
    ∧ (advancePitch s).clock.loopUnusable = s.clock.loopUnusable ∧ (advancePitch s).fetch = s.fetch
    ∧ (advancePitch s).mail = s.mail ∧ (advancePitch s).launch = s.launch ∧ (advancePitch s).track = s.track
    ∧ (advancePitch s).exit = s.exit ∧ (advancePitch s).retire = s.retire ∧ (advancePitch s).jam = s.jam
    ∧ (advancePitch s).mem = s.mem ∧ (advancePitch s).ctl = s.ctl ∧ (advancePitch s).config = s.config
    ∧ (advancePitch s).pending = s.pending ∧ (advancePitch s).out = s.out
    ∧ (advancePitch s).freeIndex = s.freeIndex := by
  simp [advancePitch]

@[simp] theorem reserveReturn_frame (a0 : Nat) (a1 : Word) (s : State) :
    (reserveReturn a0 a1 s).transport = s.transport
    ∧ (reserveReturn a0 a1 s).clock.running = s.clock.running ∧ (reserveReturn a0 a1 s).clock.pitch = s.clock.pitch
    ∧ (reserveReturn a0 a1 s).clock.boundary = s.clock.boundary
    ∧ (reserveReturn a0 a1 s).clock.lastFinal = s.clock.lastFinal
    ∧ (reserveReturn a0 a1 s).clock.loopUnusable = s.clock.loopUnusable ∧ (reserveReturn a0 a1 s).fetch = s.fetch
    ∧ (reserveReturn a0 a1 s).mail = s.mail ∧ (reserveReturn a0 a1 s).launch = s.launch
    ∧ (reserveReturn a0 a1 s).track = s.track ∧ (reserveReturn a0 a1 s).exit = s.exit
    ∧ (reserveReturn a0 a1 s).retire = s.retire ∧ (reserveReturn a0 a1 s).jam = s.jam
    ∧ (reserveReturn a0 a1 s).mem = s.mem ∧ (reserveReturn a0 a1 s).ctl = s.ctl
    ∧ (reserveReturn a0 a1 s).config = s.config ∧ (reserveReturn a0 a1 s).pending = s.pending
    ∧ (reserveReturn a0 a1 s).out = s.out ∧ (reserveReturn a0 a1 s).freeIndex = s.freeIndex := by
  simp [reserveReturn]

@[simp] theorem releaseReturn_frame (a0 : Nat) (s : State) : (releaseReturn a0 s).transport = s.transport
    ∧ (releaseReturn a0 s).clock.running = s.clock.running ∧ (releaseReturn a0 s).clock.pitch = s.clock.pitch
    ∧ (releaseReturn a0 s).clock.boundary = s.clock.boundary
    ∧ (releaseReturn a0 s).clock.lastFinal = s.clock.lastFinal
    ∧ (releaseReturn a0 s).clock.loopUnusable = s.clock.loopUnusable ∧ (releaseReturn a0 s).fetch = s.fetch
    ∧ (releaseReturn a0 s).mail = s.mail ∧ (releaseReturn a0 s).launch = s.launch
    ∧ (releaseReturn a0 s).track = s.track ∧ (releaseReturn a0 s).exit = s.exit
    ∧ (releaseReturn a0 s).retire = s.retire ∧ (releaseReturn a0 s).jam = s.jam ∧ (releaseReturn a0 s).mem = s.mem
    ∧ (releaseReturn a0 s).ctl = s.ctl ∧ (releaseReturn a0 s).config = s.config
    ∧ (releaseReturn a0 s).pending = s.pending ∧ (releaseReturn a0 s).out = s.out
    ∧ (releaseReturn a0 s).freeIndex = s.freeIndex := by
  simp [releaseReturn]

@[simp] theorem enterRunOut_frame (s : State) : (enterRunOut s).transport.count = s.transport.count
    ∧ (enterRunOut s).transport.heldRunUp = s.transport.heldRunUp
    ∧ (enterRunOut s).transport.sensors = s.transport.sensors ∧ (enterRunOut s).transport.ref = s.transport.ref
    ∧ (enterRunOut s).transport.below = s.transport.below
    ∧ (enterRunOut s).transport.allInBand = s.transport.allInBand
    ∧ (enterRunOut s).transport.samplePeriod = s.transport.samplePeriod ∧ (enterRunOut s).clock.pitch = s.clock.pitch
    ∧ (enterRunOut s).clock.boundary = s.clock.boundary ∧ (enterRunOut s).clock.ring = s.clock.ring
    ∧ (enterRunOut s).clock.lastFinal = s.clock.lastFinal ∧ (enterRunOut s).clock.loopUnusable = s.clock.loopUnusable
    ∧ (enterRunOut s).fetch = s.fetch ∧ (enterRunOut s).mail = s.mail ∧ (enterRunOut s).launch = s.launch
    ∧ (enterRunOut s).track = s.track ∧ (enterRunOut s).exit = s.exit ∧ (enterRunOut s).retire = s.retire
    ∧ (enterRunOut s).jam = s.jam ∧ (enterRunOut s).mem = s.mem ∧ (enterRunOut s).ctl = s.ctl
    ∧ (enterRunOut s).config = s.config ∧ (enterRunOut s).pending = s.pending ∧ (enterRunOut s).out = s.out
    ∧ (enterRunOut s).freeIndex = s.freeIndex := by
  simp only [enterRunOut]
  (repeat' split) <;> simp

@[simp] theorem runOutOrder_frame (s : State) : (runOutOrder s).transport.count = s.transport.count
    ∧ (runOutOrder s).transport.sensors = s.transport.sensors ∧ (runOutOrder s).transport.ref = s.transport.ref
    ∧ (runOutOrder s).transport.below = s.transport.below
    ∧ (runOutOrder s).transport.allInBand = s.transport.allInBand
    ∧ (runOutOrder s).transport.samplePeriod = s.transport.samplePeriod ∧ (runOutOrder s).clock.pitch = s.clock.pitch
    ∧ (runOutOrder s).clock.boundary = s.clock.boundary ∧ (runOutOrder s).clock.ring = s.clock.ring
    ∧ (runOutOrder s).clock.lastFinal = s.clock.lastFinal ∧ (runOutOrder s).clock.loopUnusable = s.clock.loopUnusable
    ∧ (runOutOrder s).fetch = s.fetch ∧ (runOutOrder s).mail = s.mail ∧ (runOutOrder s).launch = s.launch
    ∧ (runOutOrder s).track = s.track ∧ (runOutOrder s).exit = s.exit ∧ (runOutOrder s).retire = s.retire
    ∧ (runOutOrder s).jam = s.jam ∧ (runOutOrder s).mem = s.mem ∧ (runOutOrder s).ctl = s.ctl
    ∧ (runOutOrder s).config = s.config ∧ (runOutOrder s).pending = s.pending ∧ (runOutOrder s).out = s.out
    ∧ (runOutOrder s).freeIndex = s.freeIndex := by
  simp only [runOutOrder]
  (repeat' split) <;> simp

@[simp] theorem stopOrder_frame (a0 : PerSection Bool) (s : State) :
    (stopOrder a0 s).transport.count = s.transport.count
    ∧ (stopOrder a0 s).transport.sensors = s.transport.sensors ∧ (stopOrder a0 s).transport.ref = s.transport.ref
    ∧ (stopOrder a0 s).transport.below = s.transport.below
    ∧ (stopOrder a0 s).transport.allInBand = s.transport.allInBand
    ∧ (stopOrder a0 s).transport.samplePeriod = s.transport.samplePeriod
    ∧ (stopOrder a0 s).clock.pitch = s.clock.pitch ∧ (stopOrder a0 s).clock.boundary = s.clock.boundary
    ∧ (stopOrder a0 s).clock.ring = s.clock.ring ∧ (stopOrder a0 s).clock.lastFinal = s.clock.lastFinal
    ∧ (stopOrder a0 s).clock.loopUnusable = s.clock.loopUnusable ∧ (stopOrder a0 s).fetch = s.fetch
    ∧ (stopOrder a0 s).mail = s.mail ∧ (stopOrder a0 s).launch = s.launch ∧ (stopOrder a0 s).track = s.track
    ∧ (stopOrder a0 s).exit = s.exit ∧ (stopOrder a0 s).retire = s.retire ∧ (stopOrder a0 s).jam = s.jam
    ∧ (stopOrder a0 s).mem = s.mem ∧ (stopOrder a0 s).ctl = s.ctl ∧ (stopOrder a0 s).config = s.config
    ∧ (stopOrder a0 s).pending = s.pending ∧ (stopOrder a0 s).out = s.out
    ∧ (stopOrder a0 s).freeIndex = s.freeIndex := by
  simp only [stopOrder]
  (repeat' split) <;> simp

@[simp] theorem startRunUp_frame (s : State) : (startRunUp s).transport.count = s.transport.count
    ∧ (startRunUp s).transport.sensors = s.transport.sensors
    ∧ (startRunUp s).transport.compares = s.transport.compares
    ∧ (startRunUp s).transport.speedDeviation = s.transport.speedDeviation ∧ (startRunUp s).clock = s.clock
    ∧ (startRunUp s).fetch = s.fetch ∧ (startRunUp s).mail.table = s.mail.table
    ∧ (startRunUp s).mail.bins = s.mail.bins ∧ (startRunUp s).mail.purgeCount = s.mail.purgeCount
    ∧ (startRunUp s).mail.purgeFull = s.mail.purgeFull ∧ (startRunUp s).mail.waitingOpen = s.mail.waitingOpen
    ∧ (startRunUp s).mail.nextId = s.mail.nextId ∧ (startRunUp s).launch.schedule = s.launch.schedule
    ∧ (startRunUp s).launch.candidate = s.launch.candidate ∧ (startRunUp s).launch.candRead = s.launch.candRead
    ∧ (startRunUp s).launch.trays = s.launch.trays ∧ (startRunUp s).launch.wakeAsked = s.launch.wakeAsked
    ∧ (startRunUp s).track.sheets = s.track.sheets ∧ (startRunUp s).track.queues = s.track.queues
    ∧ (startRunUp s).track.fifo = s.track.fifo ∧ (startRunUp s).track.d1 = s.track.d1
    ∧ (startRunUp s).track.nextId = s.track.nextId ∧ (startRunUp s).exit = s.exit ∧ (startRunUp s).retire = s.retire
    ∧ (startRunUp s).jam = s.jam ∧ (startRunUp s).mem = s.mem ∧ (startRunUp s).ctl = s.ctl
    ∧ (startRunUp s).config = s.config ∧ (startRunUp s).pending = s.pending ∧ (startRunUp s).out = s.out
    ∧ (startRunUp s).freeIndex = s.freeIndex := by
  simp [startRunUp]

@[simp] theorem runUpOrder_frame (s : State) : (runUpOrder s).transport.count = s.transport.count
    ∧ (runUpOrder s).transport.sensors = s.transport.sensors
    ∧ (runUpOrder s).transport.compares = s.transport.compares
    ∧ (runUpOrder s).transport.speedDeviation = s.transport.speedDeviation ∧ (runUpOrder s).clock = s.clock
    ∧ (runUpOrder s).fetch = s.fetch ∧ (runUpOrder s).mail.table = s.mail.table
    ∧ (runUpOrder s).mail.bins = s.mail.bins ∧ (runUpOrder s).mail.purgeCount = s.mail.purgeCount
    ∧ (runUpOrder s).mail.purgeFull = s.mail.purgeFull ∧ (runUpOrder s).mail.waitingOpen = s.mail.waitingOpen
    ∧ (runUpOrder s).mail.nextId = s.mail.nextId ∧ (runUpOrder s).launch.schedule = s.launch.schedule
    ∧ (runUpOrder s).launch.candidate = s.launch.candidate ∧ (runUpOrder s).launch.candRead = s.launch.candRead
    ∧ (runUpOrder s).launch.trays = s.launch.trays ∧ (runUpOrder s).launch.wakeAsked = s.launch.wakeAsked
    ∧ (runUpOrder s).track.sheets = s.track.sheets ∧ (runUpOrder s).track.queues = s.track.queues
    ∧ (runUpOrder s).track.fifo = s.track.fifo ∧ (runUpOrder s).track.d1 = s.track.d1
    ∧ (runUpOrder s).track.nextId = s.track.nextId ∧ (runUpOrder s).exit = s.exit ∧ (runUpOrder s).retire = s.retire
    ∧ (runUpOrder s).jam = s.jam ∧ (runUpOrder s).mem = s.mem ∧ (runUpOrder s).ctl = s.ctl
    ∧ (runUpOrder s).config = s.config ∧ (runUpOrder s).pending = s.pending ∧ (runUpOrder s).out = s.out
    ∧ (runUpOrder s).freeIndex = s.freeIndex := by
  simp only [runUpOrder]
  (repeat' split) <;> simp

@[simp] theorem takeSample_frame (a0 : ConfigBlock) (s : State) :
    (takeSample a0 s).transport.count = s.transport.count
    ∧ (takeSample a0 s).transport.run = s.transport.run ∧ (takeSample a0 s).transport.state = s.transport.state
    ∧ (takeSample a0 s).transport.heldRunUp = s.transport.heldRunUp
    ∧ (takeSample a0 s).transport.sensors = s.transport.sensors
    ∧ (takeSample a0 s).transport.allInBand = s.transport.allInBand
    ∧ (takeSample a0 s).transport.runUpTimer = s.transport.runUpTimer
    ∧ (takeSample a0 s).transport.compares = s.transport.compares
    ∧ (takeSample a0 s).transport.speedDeviation = s.transport.speedDeviation ∧ (takeSample a0 s).clock = s.clock
    ∧ (takeSample a0 s).fetch = s.fetch ∧ (takeSample a0 s).mail = s.mail ∧ (takeSample a0 s).launch = s.launch
    ∧ (takeSample a0 s).track = s.track ∧ (takeSample a0 s).exit = s.exit ∧ (takeSample a0 s).retire = s.retire
    ∧ (takeSample a0 s).jam = s.jam ∧ (takeSample a0 s).mem = s.mem ∧ (takeSample a0 s).ctl = s.ctl
    ∧ (takeSample a0 s).config = s.config ∧ (takeSample a0 s).pending = s.pending ∧ (takeSample a0 s).out = s.out
    ∧ (takeSample a0 s).freeIndex = s.freeIndex := by
  simp [takeSample]

@[simp] theorem judgeDeviation_frame (a0 : ConfigBlock) (s : State) :
    (judgeDeviation a0 s).transport.count = s.transport.count
    ∧ (judgeDeviation a0 s).transport.run = s.transport.run
    ∧ (judgeDeviation a0 s).transport.state = s.transport.state
    ∧ (judgeDeviation a0 s).transport.heldRunUp = s.transport.heldRunUp
    ∧ (judgeDeviation a0 s).transport.sensors = s.transport.sensors
    ∧ (judgeDeviation a0 s).transport.ref = s.transport.ref
    ∧ (judgeDeviation a0 s).transport.below = s.transport.below
    ∧ (judgeDeviation a0 s).transport.allInBand = s.transport.allInBand
    ∧ (judgeDeviation a0 s).transport.runUpTimer = s.transport.runUpTimer
    ∧ (judgeDeviation a0 s).transport.samplePeriod = s.transport.samplePeriod
    ∧ (judgeDeviation a0 s).transport.compares = s.transport.compares ∧ (judgeDeviation a0 s).clock = s.clock
    ∧ (judgeDeviation a0 s).fetch = s.fetch ∧ (judgeDeviation a0 s).mail = s.mail
    ∧ (judgeDeviation a0 s).launch = s.launch ∧ (judgeDeviation a0 s).track = s.track
    ∧ (judgeDeviation a0 s).exit = s.exit ∧ (judgeDeviation a0 s).retire = s.retire
    ∧ (judgeDeviation a0 s).jam = s.jam ∧ (judgeDeviation a0 s).mem = s.mem
    ∧ (judgeDeviation a0 s).ctl.area = s.ctl.area ∧ (judgeDeviation a0 s).ctl.state = s.ctl.state
    ∧ (judgeDeviation a0 s).ctl.cmd = s.ctl.cmd ∧ (judgeDeviation a0 s).ctl.lastCommand = s.ctl.lastCommand
    ∧ (judgeDeviation a0 s).ctl.lastOutcome = s.ctl.lastOutcome
    ∧ (judgeDeviation a0 s).ctl.validation = s.ctl.validation ∧ (judgeDeviation a0 s).ctl.lastSkip = s.ctl.lastSkip
    ∧ (judgeDeviation a0 s).ctl.amask = s.ctl.amask ∧ (judgeDeviation a0 s).ctl.pauseRec = s.ctl.pauseRec
    ∧ (judgeDeviation a0 s).config = s.config ∧ (judgeDeviation a0 s).pending = s.pending
    ∧ (judgeDeviation a0 s).out = s.out ∧ (judgeDeviation a0 s).freeIndex = s.freeIndex := by
  simp only [judgeDeviation]
  (repeat' split) <;> simp

@[simp] theorem enterStopped_frame (s : State) : (enterStopped s).transport.count = s.transport.count
    ∧ (enterStopped s).transport.sensors = s.transport.sensors
    ∧ (enterStopped s).transport.compares = s.transport.compares
    ∧ (enterStopped s).transport.speedDeviation = s.transport.speedDeviation ∧ (enterStopped s).clock = s.clock
    ∧ (enterStopped s).fetch = s.fetch ∧ (enterStopped s).mail.table = s.mail.table
    ∧ (enterStopped s).mail.bins = s.mail.bins ∧ (enterStopped s).mail.purgeCount = s.mail.purgeCount
    ∧ (enterStopped s).mail.purgeFull = s.mail.purgeFull ∧ (enterStopped s).mail.waitingOpen = s.mail.waitingOpen
    ∧ (enterStopped s).mail.nextId = s.mail.nextId ∧ (enterStopped s).launch.schedule = s.launch.schedule
    ∧ (enterStopped s).launch.candidate = s.launch.candidate ∧ (enterStopped s).launch.candRead = s.launch.candRead
    ∧ (enterStopped s).launch.trays = s.launch.trays ∧ (enterStopped s).launch.wakeAsked = s.launch.wakeAsked
    ∧ (enterStopped s).track.sheets = s.track.sheets ∧ (enterStopped s).track.queues = s.track.queues
    ∧ (enterStopped s).track.fifo = s.track.fifo ∧ (enterStopped s).track.d1 = s.track.d1
    ∧ (enterStopped s).track.nextId = s.track.nextId ∧ (enterStopped s).exit = s.exit
    ∧ (enterStopped s).retire = s.retire ∧ (enterStopped s).jam = s.jam ∧ (enterStopped s).mem = s.mem
    ∧ (enterStopped s).ctl = s.ctl ∧ (enterStopped s).config = s.config ∧ (enterStopped s).pending = s.pending
    ∧ (enterStopped s).out = s.out ∧ (enterStopped s).freeIndex = s.freeIndex := by
  simp only [enterStopped]
  (repeat' split) <;> simp

@[simp] theorem setState_frame (a0 : ControllerState) (s : State) : (setState a0 s).transport = s.transport
    ∧ (setState a0 s).clock = s.clock ∧ (setState a0 s).fetch = s.fetch ∧ (setState a0 s).mail = s.mail
    ∧ (setState a0 s).launch = s.launch ∧ (setState a0 s).track = s.track ∧ (setState a0 s).exit = s.exit
    ∧ (setState a0 s).retire = s.retire ∧ (setState a0 s).jam = s.jam ∧ (setState a0 s).mem = s.mem
    ∧ (setState a0 s).ctl.area = s.ctl.area ∧ (setState a0 s).ctl.cmd = s.ctl.cmd
    ∧ (setState a0 s).ctl.lastCommand = s.ctl.lastCommand ∧ (setState a0 s).ctl.lastOutcome = s.ctl.lastOutcome
    ∧ (setState a0 s).ctl.validation = s.ctl.validation ∧ (setState a0 s).ctl.lastSkip = s.ctl.lastSkip
    ∧ (setState a0 s).ctl.attn = s.ctl.attn ∧ (setState a0 s).ctl.amask = s.ctl.amask
    ∧ (setState a0 s).ctl.pauseRec = s.ctl.pauseRec ∧ (setState a0 s).config = s.config
    ∧ (setState a0 s).pending = s.pending ∧ (setState a0 s).out = s.out
    ∧ (setState a0 s).freeIndex = s.freeIndex := by
  simp [setState]

@[simp] theorem endCommand_frame (a0 : Word) (a1 : CommandOutcome) (s : State) :
    (endCommand a0 a1 s).transport = s.transport
    ∧ (endCommand a0 a1 s).clock = s.clock ∧ (endCommand a0 a1 s).fetch = s.fetch ∧ (endCommand a0 a1 s).mail = s.mail
    ∧ (endCommand a0 a1 s).launch = s.launch ∧ (endCommand a0 a1 s).track = s.track
    ∧ (endCommand a0 a1 s).exit = s.exit ∧ (endCommand a0 a1 s).retire = s.retire ∧ (endCommand a0 a1 s).jam = s.jam
    ∧ (endCommand a0 a1 s).mem = s.mem ∧ (endCommand a0 a1 s).ctl.area = s.ctl.area
    ∧ (endCommand a0 a1 s).ctl.state = s.ctl.state ∧ (endCommand a0 a1 s).ctl.validation = s.ctl.validation
    ∧ (endCommand a0 a1 s).ctl.lastSkip = s.ctl.lastSkip ∧ (endCommand a0 a1 s).ctl.amask = s.ctl.amask
    ∧ (endCommand a0 a1 s).ctl.pauseRec = s.ctl.pauseRec ∧ (endCommand a0 a1 s).config = s.config
    ∧ (endCommand a0 a1 s).pending = s.pending ∧ (endCommand a0 a1 s).out = s.out
    ∧ (endCommand a0 a1 s).freeIndex = s.freeIndex := by
  simp [endCommand]

@[simp] theorem overrunCommand_frame (a0 : Word) (s : State) : (overrunCommand a0 s).transport = s.transport
    ∧ (overrunCommand a0 s).clock = s.clock ∧ (overrunCommand a0 s).fetch = s.fetch
    ∧ (overrunCommand a0 s).mail = s.mail ∧ (overrunCommand a0 s).launch = s.launch
    ∧ (overrunCommand a0 s).track = s.track ∧ (overrunCommand a0 s).exit = s.exit
    ∧ (overrunCommand a0 s).retire = s.retire ∧ (overrunCommand a0 s).jam = s.jam ∧ (overrunCommand a0 s).mem = s.mem
    ∧ (overrunCommand a0 s).ctl.area = s.ctl.area ∧ (overrunCommand a0 s).ctl.state = s.ctl.state
    ∧ (overrunCommand a0 s).ctl.cmd = s.ctl.cmd ∧ (overrunCommand a0 s).ctl.validation = s.ctl.validation
    ∧ (overrunCommand a0 s).ctl.lastSkip = s.ctl.lastSkip ∧ (overrunCommand a0 s).ctl.amask = s.ctl.amask
    ∧ (overrunCommand a0 s).ctl.pauseRec = s.ctl.pauseRec ∧ (overrunCommand a0 s).config = s.config
    ∧ (overrunCommand a0 s).pending = s.pending ∧ (overrunCommand a0 s).out = s.out
    ∧ (overrunCommand a0 s).freeIndex = s.freeIndex := by
  simp [overrunCommand]

@[simp] theorem beginCommand_frame (a0 : Word) (a1 : CommandPhase) (s : State) :
    (beginCommand a0 a1 s).transport = s.transport
    ∧ (beginCommand a0 a1 s).clock = s.clock ∧ (beginCommand a0 a1 s).fetch = s.fetch
    ∧ (beginCommand a0 a1 s).mail = s.mail ∧ (beginCommand a0 a1 s).launch = s.launch
    ∧ (beginCommand a0 a1 s).track = s.track ∧ (beginCommand a0 a1 s).exit = s.exit
    ∧ (beginCommand a0 a1 s).retire = s.retire ∧ (beginCommand a0 a1 s).jam = s.jam
    ∧ (beginCommand a0 a1 s).mem = s.mem ∧ (beginCommand a0 a1 s).ctl.area = s.ctl.area
    ∧ (beginCommand a0 a1 s).ctl.state = s.ctl.state ∧ (beginCommand a0 a1 s).ctl.lastCommand = s.ctl.lastCommand
    ∧ (beginCommand a0 a1 s).ctl.lastOutcome = s.ctl.lastOutcome
    ∧ (beginCommand a0 a1 s).ctl.validation = s.ctl.validation ∧ (beginCommand a0 a1 s).ctl.lastSkip = s.ctl.lastSkip
    ∧ (beginCommand a0 a1 s).ctl.attn = s.ctl.attn ∧ (beginCommand a0 a1 s).ctl.amask = s.ctl.amask
    ∧ (beginCommand a0 a1 s).ctl.pauseRec = s.ctl.pauseRec ∧ (beginCommand a0 a1 s).config = s.config
    ∧ (beginCommand a0 a1 s).pending = s.pending ∧ (beginCommand a0 a1 s).out = s.out
    ∧ (beginCommand a0 a1 s).freeIndex = s.freeIndex := by
  simp [beginCommand]

@[simp] theorem setPhase_frame (a0 : CommandPhase) (s : State) : (setPhase a0 s).transport = s.transport
    ∧ (setPhase a0 s).clock = s.clock ∧ (setPhase a0 s).fetch = s.fetch ∧ (setPhase a0 s).mail = s.mail
    ∧ (setPhase a0 s).launch = s.launch ∧ (setPhase a0 s).track = s.track ∧ (setPhase a0 s).exit = s.exit
    ∧ (setPhase a0 s).retire = s.retire ∧ (setPhase a0 s).jam = s.jam ∧ (setPhase a0 s).mem = s.mem
    ∧ (setPhase a0 s).ctl.area = s.ctl.area ∧ (setPhase a0 s).ctl.state = s.ctl.state
    ∧ (setPhase a0 s).ctl.lastCommand = s.ctl.lastCommand ∧ (setPhase a0 s).ctl.lastOutcome = s.ctl.lastOutcome
    ∧ (setPhase a0 s).ctl.validation = s.ctl.validation ∧ (setPhase a0 s).ctl.lastSkip = s.ctl.lastSkip
    ∧ (setPhase a0 s).ctl.attn = s.ctl.attn ∧ (setPhase a0 s).ctl.amask = s.ctl.amask
    ∧ (setPhase a0 s).ctl.pauseRec = s.ctl.pauseRec ∧ (setPhase a0 s).config = s.config
    ∧ (setPhase a0 s).pending = s.pending ∧ (setPhase a0 s).out = s.out
    ∧ (setPhase a0 s).freeIndex = s.freeIndex := by
  simp [setPhase]

@[simp] theorem settlePause_frame (s : State) : (settlePause s).transport = s.transport
    ∧ (settlePause s).clock = s.clock ∧ (settlePause s).fetch.pos = s.fetch.pos
    ∧ (settlePause s).fetch.stack = s.fetch.stack ∧ (settlePause s).fetch.outer = s.fetch.outer
    ∧ (settlePause s).fetch.chain = s.fetch.chain ∧ (settlePause s).fetch.resync = s.fetch.resync
    ∧ (settlePause s).fetch.read = s.fetch.read ∧ (settlePause s).fetch.rereadAsked = s.fetch.rereadAsked
    ∧ (settlePause s).fetch.nextId = s.fetch.nextId ∧ (settlePause s).mail = s.mail
    ∧ (settlePause s).launch = s.launch ∧ (settlePause s).track = s.track ∧ (settlePause s).exit = s.exit
    ∧ (settlePause s).retire = s.retire ∧ (settlePause s).jam = s.jam ∧ (settlePause s).mem = s.mem
    ∧ (settlePause s).ctl.area = s.ctl.area ∧ (settlePause s).ctl.state = s.ctl.state
    ∧ (settlePause s).ctl.cmd = s.ctl.cmd ∧ (settlePause s).ctl.lastCommand = s.ctl.lastCommand
    ∧ (settlePause s).ctl.lastOutcome = s.ctl.lastOutcome ∧ (settlePause s).ctl.validation = s.ctl.validation
    ∧ (settlePause s).ctl.lastSkip = s.ctl.lastSkip ∧ (settlePause s).ctl.attn = s.ctl.attn
    ∧ (settlePause s).ctl.amask = s.ctl.amask ∧ (settlePause s).config = s.config
    ∧ (settlePause s).pending = s.pending ∧ (settlePause s).out = s.out
    ∧ (settlePause s).freeIndex = s.freeIndex := by
  simp only [settlePause]
  (repeat' split) <;> simp

@[simp] theorem enterHalted_frame (s : State) : (enterHalted s).transport.count = s.transport.count
    ∧ (enterHalted s).transport.sensors = s.transport.sensors ∧ (enterHalted s).transport.ref = s.transport.ref
    ∧ (enterHalted s).transport.below = s.transport.below
    ∧ (enterHalted s).transport.allInBand = s.transport.allInBand
    ∧ (enterHalted s).transport.samplePeriod = s.transport.samplePeriod ∧ (enterHalted s).clock.pitch = s.clock.pitch
    ∧ (enterHalted s).clock.boundary = s.clock.boundary ∧ (enterHalted s).clock.ring = s.clock.ring
    ∧ (enterHalted s).clock.lastFinal = s.clock.lastFinal ∧ (enterHalted s).clock.loopUnusable = s.clock.loopUnusable
    ∧ (enterHalted s).fetch.pos = s.fetch.pos ∧ (enterHalted s).fetch.stack = s.fetch.stack
    ∧ (enterHalted s).fetch.outer = s.fetch.outer ∧ (enterHalted s).fetch.chain = s.fetch.chain
    ∧ (enterHalted s).fetch.resync = s.fetch.resync ∧ (enterHalted s).fetch.read = s.fetch.read
    ∧ (enterHalted s).fetch.rereadAsked = s.fetch.rereadAsked ∧ (enterHalted s).fetch.nextId = s.fetch.nextId
    ∧ (enterHalted s).mail = s.mail ∧ (enterHalted s).launch = s.launch
    ∧ (enterHalted s).track.sheets = s.track.sheets ∧ (enterHalted s).track.queues = s.track.queues
    ∧ (enterHalted s).track.fifo = s.track.fifo ∧ (enterHalted s).track.d1 = s.track.d1
    ∧ (enterHalted s).track.nextId = s.track.nextId ∧ (enterHalted s).exit = s.exit
    ∧ (enterHalted s).retire = s.retire ∧ (enterHalted s).jam = s.jam ∧ (enterHalted s).mem = s.mem
    ∧ (enterHalted s).ctl.area = s.ctl.area ∧ (enterHalted s).ctl.cmd = s.ctl.cmd
    ∧ (enterHalted s).ctl.lastCommand = s.ctl.lastCommand ∧ (enterHalted s).ctl.lastOutcome = s.ctl.lastOutcome
    ∧ (enterHalted s).ctl.validation = s.ctl.validation ∧ (enterHalted s).ctl.lastSkip = s.ctl.lastSkip
    ∧ (enterHalted s).ctl.amask = s.ctl.amask ∧ (enterHalted s).config = s.config
    ∧ (enterHalted s).pending = s.pending ∧ (enterHalted s).out = s.out
    ∧ (enterHalted s).freeIndex = s.freeIndex := by
  simp [enterHalted]

@[simp] theorem enterDraining_frame (s : State) : (enterDraining s).transport.count = s.transport.count
    ∧ (enterDraining s).transport.sensors = s.transport.sensors ∧ (enterDraining s).transport.ref = s.transport.ref
    ∧ (enterDraining s).transport.below = s.transport.below
    ∧ (enterDraining s).transport.allInBand = s.transport.allInBand
    ∧ (enterDraining s).transport.samplePeriod = s.transport.samplePeriod
    ∧ (enterDraining s).clock.pitch = s.clock.pitch ∧ (enterDraining s).clock.boundary = s.clock.boundary
    ∧ (enterDraining s).clock.ring = s.clock.ring ∧ (enterDraining s).clock.lastFinal = s.clock.lastFinal
    ∧ (enterDraining s).clock.loopUnusable = s.clock.loopUnusable ∧ (enterDraining s).fetch.pos = s.fetch.pos
    ∧ (enterDraining s).fetch.stack = s.fetch.stack ∧ (enterDraining s).fetch.outer = s.fetch.outer
    ∧ (enterDraining s).fetch.chain = s.fetch.chain ∧ (enterDraining s).fetch.resync = s.fetch.resync
    ∧ (enterDraining s).fetch.read = s.fetch.read ∧ (enterDraining s).fetch.rereadAsked = s.fetch.rereadAsked
    ∧ (enterDraining s).fetch.nextId = s.fetch.nextId ∧ (enterDraining s).mail = s.mail
    ∧ (enterDraining s).launch = s.launch ∧ (enterDraining s).track.sheets = s.track.sheets
    ∧ (enterDraining s).track.queues = s.track.queues ∧ (enterDraining s).track.fifo = s.track.fifo
    ∧ (enterDraining s).track.d1 = s.track.d1 ∧ (enterDraining s).track.nextId = s.track.nextId
    ∧ (enterDraining s).exit = s.exit ∧ (enterDraining s).retire = s.retire ∧ (enterDraining s).jam = s.jam
    ∧ (enterDraining s).mem = s.mem ∧ (enterDraining s).ctl.area = s.ctl.area ∧ (enterDraining s).ctl.cmd = s.ctl.cmd
    ∧ (enterDraining s).ctl.lastCommand = s.ctl.lastCommand ∧ (enterDraining s).ctl.lastOutcome = s.ctl.lastOutcome
    ∧ (enterDraining s).ctl.validation = s.ctl.validation ∧ (enterDraining s).ctl.lastSkip = s.ctl.lastSkip
    ∧ (enterDraining s).ctl.amask = s.ctl.amask ∧ (enterDraining s).config = s.config
    ∧ (enterDraining s).pending = s.pending ∧ (enterDraining s).out = s.out
    ∧ (enterDraining s).freeIndex = s.freeIndex := by
  simp only [enterDraining]
  (repeat' split) <;> simp

@[simp] theorem enterStandby_frame (s : State) : (enterStandby s).transport.count = s.transport.count
    ∧ (enterStandby s).transport.sensors = s.transport.sensors ∧ (enterStandby s).transport.ref = s.transport.ref
    ∧ (enterStandby s).transport.below = s.transport.below
    ∧ (enterStandby s).transport.allInBand = s.transport.allInBand
    ∧ (enterStandby s).transport.samplePeriod = s.transport.samplePeriod
    ∧ (enterStandby s).clock.pitch = s.clock.pitch ∧ (enterStandby s).clock.boundary = s.clock.boundary
    ∧ (enterStandby s).clock.ring = s.clock.ring ∧ (enterStandby s).clock.lastFinal = s.clock.lastFinal
    ∧ (enterStandby s).clock.loopUnusable = s.clock.loopUnusable ∧ (enterStandby s).fetch = s.fetch
    ∧ (enterStandby s).mail = s.mail ∧ (enterStandby s).launch = s.launch ∧ (enterStandby s).track.sheets = s.track.sheets
    ∧ (enterStandby s).track.nextId = s.track.nextId ∧ (enterStandby s).track.queues = s.track.queues
    ∧ (enterStandby s).track.fifo = s.track.fifo ∧ (enterStandby s).track.d1 = s.track.d1
    ∧ (enterStandby s).exit = s.exit ∧ (enterStandby s).retire = s.retire ∧ (enterStandby s).jam = s.jam
    ∧ (enterStandby s).mem = s.mem ∧ (enterStandby s).ctl.area = s.ctl.area ∧ (enterStandby s).ctl.cmd = s.ctl.cmd
    ∧ (enterStandby s).ctl.lastCommand = s.ctl.lastCommand ∧ (enterStandby s).ctl.lastOutcome = s.ctl.lastOutcome
    ∧ (enterStandby s).ctl.validation = s.ctl.validation ∧ (enterStandby s).ctl.lastSkip = s.ctl.lastSkip
    ∧ (enterStandby s).ctl.amask = s.ctl.amask ∧ (enterStandby s).ctl.pauseRec = s.ctl.pauseRec
    ∧ (enterStandby s).config = s.config ∧ (enterStandby s).pending = s.pending ∧ (enterStandby s).out = s.out
    ∧ (enterStandby s).freeIndex = s.freeIndex := by
  simp [enterStandby]

@[simp] theorem considerStandby_frame (s : State) : (considerStandby s).transport.count = s.transport.count
    ∧ (considerStandby s).transport.sensors = s.transport.sensors
    ∧ (considerStandby s).transport.ref = s.transport.ref ∧ (considerStandby s).transport.below = s.transport.below
    ∧ (considerStandby s).transport.allInBand = s.transport.allInBand
    ∧ (considerStandby s).transport.samplePeriod = s.transport.samplePeriod
    ∧ (considerStandby s).clock.pitch = s.clock.pitch ∧ (considerStandby s).clock.boundary = s.clock.boundary
    ∧ (considerStandby s).clock.ring = s.clock.ring ∧ (considerStandby s).clock.lastFinal = s.clock.lastFinal
    ∧ (considerStandby s).clock.loopUnusable = s.clock.loopUnusable ∧ (considerStandby s).fetch = s.fetch
    ∧ (considerStandby s).mail = s.mail ∧ (considerStandby s).launch = s.launch ∧ (considerStandby s).track.sheets = s.track.sheets
    ∧ (considerStandby s).track.nextId = s.track.nextId ∧ (considerStandby s).track.queues = s.track.queues
    ∧ (considerStandby s).track.fifo = s.track.fifo ∧ (considerStandby s).track.d1 = s.track.d1
    ∧ (considerStandby s).exit = s.exit ∧ (considerStandby s).retire = s.retire ∧ (considerStandby s).jam = s.jam
    ∧ (considerStandby s).mem = s.mem ∧ (considerStandby s).ctl.area = s.ctl.area
    ∧ (considerStandby s).ctl.cmd = s.ctl.cmd ∧ (considerStandby s).ctl.lastCommand = s.ctl.lastCommand
    ∧ (considerStandby s).ctl.lastOutcome = s.ctl.lastOutcome ∧ (considerStandby s).ctl.validation = s.ctl.validation
    ∧ (considerStandby s).ctl.lastSkip = s.ctl.lastSkip ∧ (considerStandby s).ctl.amask = s.ctl.amask
    ∧ (considerStandby s).ctl.pauseRec = s.ctl.pauseRec ∧ (considerStandby s).config = s.config
    ∧ (considerStandby s).pending = s.pending ∧ (considerStandby s).out = s.out
    ∧ (considerStandby s).freeIndex = s.freeIndex := by
  simp only [considerStandby]
  (repeat' split) <;> simp

@[simp] theorem askWake_frame (s : State) : (askWake s).transport = s.transport ∧ (askWake s).clock = s.clock
    ∧ (askWake s).fetch = s.fetch ∧ (askWake s).mail = s.mail ∧ (askWake s).launch.schedule = s.launch.schedule
    ∧ (askWake s).launch.candidate = s.launch.candidate ∧ (askWake s).launch.candRead = s.launch.candRead
    ∧ (askWake s).launch.emptyCount = s.launch.emptyCount ∧ (askWake s).launch.starvedArm = s.launch.starvedArm
    ∧ (askWake s).launch.trayArm = s.launch.trayArm ∧ (askWake s).launch.trays = s.launch.trays
    ∧ (askWake s).track = s.track ∧ (askWake s).exit = s.exit ∧ (askWake s).retire = s.retire
    ∧ (askWake s).jam = s.jam ∧ (askWake s).mem = s.mem ∧ (askWake s).ctl = s.ctl ∧ (askWake s).config = s.config
    ∧ (askWake s).pending = s.pending ∧ (askWake s).out = s.out ∧ (askWake s).freeIndex = s.freeIndex := by
  simp only [askWake]
  (repeat' split) <;> simp

@[simp] theorem retireAdvance_frame (a0 : RetireStep) (a1 : Nat) (s : State) :
    (retireAdvance a0 a1 s).transport = s.transport
    ∧ (retireAdvance a0 a1 s).clock = s.clock ∧ (retireAdvance a0 a1 s).fetch = s.fetch
    ∧ (retireAdvance a0 a1 s).mail = s.mail ∧ (retireAdvance a0 a1 s).launch = s.launch
    ∧ (retireAdvance a0 a1 s).track = s.track ∧ (retireAdvance a0 a1 s).exit = s.exit
    ∧ (retireAdvance a0 a1 s).retire.launched = s.retire.launched
    ∧ (retireAdvance a0 a1 s).retire.stacked = s.retire.stacked
    ∧ (retireAdvance a0 a1 s).retire.purged = s.retire.purged ∧ (retireAdvance a0 a1 s).retire.lost = s.retire.lost
    ∧ (retireAdvance a0 a1 s).retire.skipped = s.retire.skipped ∧ (retireAdvance a0 a1 s).jam = s.jam
    ∧ (retireAdvance a0 a1 s).mem = s.mem ∧ (retireAdvance a0 a1 s).ctl = s.ctl
    ∧ (retireAdvance a0 a1 s).config = s.config ∧ (retireAdvance a0 a1 s).pending = s.pending
    ∧ (retireAdvance a0 a1 s).out = s.out ∧ (retireAdvance a0 a1 s).freeIndex = s.freeIndex := by
  simp only [retireAdvance]
  (repeat' split) <;> simp

@[simp] theorem removeHead_frame (a0 : Entry) (a1 : List Entry) (s : State) :
    (removeHead a0 a1 s).transport = s.transport
    ∧ (removeHead a0 a1 s).clock = s.clock ∧ (removeHead a0 a1 s).fetch.pos = s.fetch.pos
    ∧ (removeHead a0 a1 s).fetch.stack = s.fetch.stack ∧ (removeHead a0 a1 s).fetch.outer = s.fetch.outer
    ∧ (removeHead a0 a1 s).fetch.chain = s.fetch.chain ∧ (removeHead a0 a1 s).fetch.resync = s.fetch.resync
    ∧ (removeHead a0 a1 s).fetch.read = s.fetch.read ∧ (removeHead a0 a1 s).fetch.rereadAsked = s.fetch.rereadAsked
    ∧ (removeHead a0 a1 s).fetch.nextId = s.fetch.nextId ∧ (removeHead a0 a1 s).mail.bins = s.mail.bins
    ∧ (removeHead a0 a1 s).mail.purgeCount = s.mail.purgeCount
    ∧ (removeHead a0 a1 s).mail.purgeFull = s.mail.purgeFull
    ∧ (removeHead a0 a1 s).mail.binWaitArm = s.mail.binWaitArm
    ∧ (removeHead a0 a1 s).mail.waitingOpen = s.mail.waitingOpen ∧ (removeHead a0 a1 s).mail.nextId = s.mail.nextId
    ∧ (removeHead a0 a1 s).launch.schedule = s.launch.schedule
    ∧ (removeHead a0 a1 s).launch.candidate = s.launch.candidate
    ∧ (removeHead a0 a1 s).launch.candRead = s.launch.candRead
    ∧ (removeHead a0 a1 s).launch.emptyCount = s.launch.emptyCount
    ∧ (removeHead a0 a1 s).launch.starvedArm = s.launch.starvedArm
    ∧ (removeHead a0 a1 s).launch.trayArm = s.launch.trayArm ∧ (removeHead a0 a1 s).launch.trays = s.launch.trays
    ∧ (removeHead a0 a1 s).track = s.track ∧ (removeHead a0 a1 s).exit = s.exit
    ∧ (removeHead a0 a1 s).retire.retired = s.retire.retired
    ∧ (removeHead a0 a1 s).retire.launched = s.retire.launched
    ∧ (removeHead a0 a1 s).retire.stacked = s.retire.stacked ∧ (removeHead a0 a1 s).retire.purged = s.retire.purged
    ∧ (removeHead a0 a1 s).retire.lost = s.retire.lost ∧ (removeHead a0 a1 s).retire.skipped = s.retire.skipped
    ∧ (removeHead a0 a1 s).retire.batching = s.retire.batching ∧ (removeHead a0 a1 s).jam = s.jam
    ∧ (removeHead a0 a1 s).mem = s.mem ∧ (removeHead a0 a1 s).ctl = s.ctl ∧ (removeHead a0 a1 s).config = s.config
    ∧ (removeHead a0 a1 s).pending = s.pending ∧ (removeHead a0 a1 s).out = s.out
    ∧ (removeHead a0 a1 s).freeIndex = s.freeIndex := by
  simp only [removeHead]
  (repeat' split) <;> simp

@[simp] theorem settleCalls_frame (s : State) : (settleCalls s).transport = s.transport
    ∧ (settleCalls s).clock = s.clock ∧ (settleCalls s).fetch.pos = s.fetch.pos
    ∧ (settleCalls s).fetch.stack = s.fetch.stack ∧ (settleCalls s).fetch.outer = s.fetch.outer
    ∧ (settleCalls s).fetch.chain = s.fetch.chain ∧ (settleCalls s).fetch.resync = s.fetch.resync
    ∧ (settleCalls s).fetch.read = s.fetch.read ∧ (settleCalls s).fetch.rereadAsked = s.fetch.rereadAsked
    ∧ (settleCalls s).fetch.nextId = s.fetch.nextId ∧ (settleCalls s).mail = s.mail
    ∧ (settleCalls s).launch = s.launch ∧ (settleCalls s).track = s.track ∧ (settleCalls s).exit = s.exit
    ∧ (settleCalls s).retire = s.retire ∧ (settleCalls s).jam = s.jam ∧ (settleCalls s).mem = s.mem
    ∧ (settleCalls s).ctl = s.ctl ∧ (settleCalls s).config = s.config ∧ (settleCalls s).pending = s.pending
    ∧ (settleCalls s).out = s.out ∧ (settleCalls s).freeIndex = s.freeIndex := by
  simp [settleCalls]

@[simp] theorem setPos_frame (a0 : FetchPos) (s : State) : (setPos a0 s).transport = s.transport
    ∧ (setPos a0 s).clock = s.clock ∧ (setPos a0 s).fetch.window = s.fetch.window
    ∧ (setPos a0 s).fetch.stack = s.fetch.stack ∧ (setPos a0 s).fetch.outer = s.fetch.outer
    ∧ (setPos a0 s).fetch.chain = s.fetch.chain ∧ (setPos a0 s).fetch.resync = s.fetch.resync
    ∧ (setPos a0 s).fetch.read = s.fetch.read ∧ (setPos a0 s).fetch.rereadAsked = s.fetch.rereadAsked
    ∧ (setPos a0 s).fetch.nextId = s.fetch.nextId ∧ (setPos a0 s).mail = s.mail ∧ (setPos a0 s).launch = s.launch
    ∧ (setPos a0 s).track = s.track ∧ (setPos a0 s).exit = s.exit ∧ (setPos a0 s).retire = s.retire
    ∧ (setPos a0 s).jam = s.jam ∧ (setPos a0 s).mem = s.mem ∧ (setPos a0 s).ctl = s.ctl
    ∧ (setPos a0 s).config = s.config ∧ (setPos a0 s).pending = s.pending ∧ (setPos a0 s).out = s.out
    ∧ (setPos a0 s).freeIndex = s.freeIndex := by
  simp [setPos]

@[simp] theorem tellChainFault_frame (s : State) : (tellChainFault s).transport = s.transport
    ∧ (tellChainFault s).clock = s.clock ∧ (tellChainFault s).fetch = s.fetch ∧ (tellChainFault s).mail = s.mail
    ∧ (tellChainFault s).launch = s.launch ∧ (tellChainFault s).track = s.track ∧ (tellChainFault s).exit = s.exit
    ∧ (tellChainFault s).retire = s.retire ∧ (tellChainFault s).jam = s.jam ∧ (tellChainFault s).mem = s.mem
    ∧ (tellChainFault s).ctl.area = s.ctl.area ∧ (tellChainFault s).ctl.state = s.ctl.state
    ∧ (tellChainFault s).ctl.cmd = s.ctl.cmd ∧ (tellChainFault s).ctl.lastCommand = s.ctl.lastCommand
    ∧ (tellChainFault s).ctl.lastOutcome = s.ctl.lastOutcome ∧ (tellChainFault s).ctl.validation = s.ctl.validation
    ∧ (tellChainFault s).ctl.amask = s.ctl.amask ∧ (tellChainFault s).ctl.pauseRec = s.ctl.pauseRec
    ∧ (tellChainFault s).config = s.config ∧ (tellChainFault s).pending = s.pending ∧ (tellChainFault s).out = s.out
    ∧ (tellChainFault s).freeIndex = s.freeIndex := by
  simp [tellChainFault]

@[simp] theorem chainFault_frame (a0 : FaultSource) (a1 : Word) (s : State) :
    (chainFault a0 a1 s).transport = s.transport
    ∧ (chainFault a0 a1 s).clock = s.clock ∧ (chainFault a0 a1 s).fetch.window = s.fetch.window
    ∧ (chainFault a0 a1 s).fetch.stack = s.fetch.stack ∧ (chainFault a0 a1 s).fetch.outer = s.fetch.outer
    ∧ (chainFault a0 a1 s).fetch.chain = s.fetch.chain ∧ (chainFault a0 a1 s).fetch.resync = s.fetch.resync
    ∧ (chainFault a0 a1 s).fetch.read = s.fetch.read ∧ (chainFault a0 a1 s).fetch.rereadAsked = s.fetch.rereadAsked
    ∧ (chainFault a0 a1 s).fetch.nextId = s.fetch.nextId ∧ (chainFault a0 a1 s).mail = s.mail
    ∧ (chainFault a0 a1 s).launch = s.launch ∧ (chainFault a0 a1 s).track = s.track
    ∧ (chainFault a0 a1 s).exit = s.exit ∧ (chainFault a0 a1 s).retire = s.retire ∧ (chainFault a0 a1 s).jam = s.jam
    ∧ (chainFault a0 a1 s).mem.windowLength = s.mem.windowLength ∧ (chainFault a0 a1 s).mem.waiting = s.mem.waiting
    ∧ (chainFault a0 a1 s).mem.bus = s.mem.bus ∧ (chainFault a0 a1 s).ctl.area = s.ctl.area
    ∧ (chainFault a0 a1 s).ctl.state = s.ctl.state ∧ (chainFault a0 a1 s).ctl.cmd = s.ctl.cmd
    ∧ (chainFault a0 a1 s).ctl.lastCommand = s.ctl.lastCommand
    ∧ (chainFault a0 a1 s).ctl.lastOutcome = s.ctl.lastOutcome
    ∧ (chainFault a0 a1 s).ctl.validation = s.ctl.validation ∧ (chainFault a0 a1 s).ctl.amask = s.ctl.amask
    ∧ (chainFault a0 a1 s).ctl.pauseRec = s.ctl.pauseRec ∧ (chainFault a0 a1 s).config = s.config
    ∧ (chainFault a0 a1 s).pending = s.pending ∧ (chainFault a0 a1 s).out = s.out
    ∧ (chainFault a0 a1 s).freeIndex = s.freeIndex := by
  simp [chainFault]

@[simp] theorem follow_frame (a0 : FaultSource) (a1 : Word) (s : State) : (follow a0 a1 s).transport = s.transport
    ∧ (follow a0 a1 s).clock = s.clock ∧ (follow a0 a1 s).fetch.window = s.fetch.window
    ∧ (follow a0 a1 s).fetch.stack = s.fetch.stack ∧ (follow a0 a1 s).fetch.outer = s.fetch.outer
    ∧ (follow a0 a1 s).fetch.chain = s.fetch.chain ∧ (follow a0 a1 s).fetch.resync = s.fetch.resync
    ∧ (follow a0 a1 s).fetch.read = s.fetch.read ∧ (follow a0 a1 s).fetch.rereadAsked = s.fetch.rereadAsked
    ∧ (follow a0 a1 s).fetch.nextId = s.fetch.nextId ∧ (follow a0 a1 s).mail = s.mail
    ∧ (follow a0 a1 s).launch = s.launch ∧ (follow a0 a1 s).track = s.track ∧ (follow a0 a1 s).exit = s.exit
    ∧ (follow a0 a1 s).retire = s.retire ∧ (follow a0 a1 s).jam = s.jam
    ∧ (follow a0 a1 s).mem.windowLength = s.mem.windowLength ∧ (follow a0 a1 s).mem.waiting = s.mem.waiting
    ∧ (follow a0 a1 s).mem.bus = s.mem.bus ∧ (follow a0 a1 s).ctl.area = s.ctl.area
    ∧ (follow a0 a1 s).ctl.state = s.ctl.state ∧ (follow a0 a1 s).ctl.cmd = s.ctl.cmd
    ∧ (follow a0 a1 s).ctl.lastCommand = s.ctl.lastCommand ∧ (follow a0 a1 s).ctl.lastOutcome = s.ctl.lastOutcome
    ∧ (follow a0 a1 s).ctl.validation = s.ctl.validation ∧ (follow a0 a1 s).ctl.amask = s.ctl.amask
    ∧ (follow a0 a1 s).ctl.pauseRec = s.ctl.pauseRec ∧ (follow a0 a1 s).config = s.config
    ∧ (follow a0 a1 s).pending = s.pending ∧ (follow a0 a1 s).out = s.out
    ∧ (follow a0 a1 s).freeIndex = s.freeIndex := by
  simp only [follow]
  (repeat' split) <;> simp

@[simp] theorem startMainResume_frame (s : State) : (startMainResume s).transport = s.transport
    ∧ (startMainResume s).clock = s.clock ∧ (startMainResume s).fetch.window = s.fetch.window
    ∧ (startMainResume s).fetch.stack = s.fetch.stack ∧ (startMainResume s).fetch.outer = s.fetch.outer
    ∧ (startMainResume s).fetch.chain = s.fetch.chain ∧ (startMainResume s).fetch.resync = s.fetch.resync
    ∧ (startMainResume s).fetch.read = s.fetch.read ∧ (startMainResume s).fetch.rereadAsked = s.fetch.rereadAsked
    ∧ (startMainResume s).fetch.nextId = s.fetch.nextId ∧ (startMainResume s).mail = s.mail
    ∧ (startMainResume s).launch = s.launch ∧ (startMainResume s).track = s.track ∧ (startMainResume s).exit = s.exit
    ∧ (startMainResume s).retire = s.retire ∧ (startMainResume s).jam = s.jam
    ∧ (startMainResume s).mem.windowLength = s.mem.windowLength ∧ (startMainResume s).mem.waiting = s.mem.waiting
    ∧ (startMainResume s).mem.bus = s.mem.bus ∧ (startMainResume s).ctl.area = s.ctl.area
    ∧ (startMainResume s).ctl.state = s.ctl.state ∧ (startMainResume s).ctl.cmd = s.ctl.cmd
    ∧ (startMainResume s).ctl.lastCommand = s.ctl.lastCommand
    ∧ (startMainResume s).ctl.lastOutcome = s.ctl.lastOutcome ∧ (startMainResume s).ctl.validation = s.ctl.validation
    ∧ (startMainResume s).ctl.amask = s.ctl.amask ∧ (startMainResume s).ctl.pauseRec = s.ctl.pauseRec
    ∧ (startMainResume s).config = s.config ∧ (startMainResume s).pending = s.pending
    ∧ (startMainResume s).out = s.out ∧ (startMainResume s).freeIndex = s.freeIndex := by
  simp only [startMainResume]
  (repeat' split) <;> simp

@[simp] theorem switchToMain_frame (s : State) : (switchToMain s).transport = s.transport
    ∧ (switchToMain s).clock = s.clock ∧ (switchToMain s).fetch.window = s.fetch.window
    ∧ (switchToMain s).fetch.stack = s.fetch.stack ∧ (switchToMain s).fetch.outer = s.fetch.outer
    ∧ (switchToMain s).fetch.read = s.fetch.read ∧ (switchToMain s).fetch.rereadAsked = s.fetch.rereadAsked
    ∧ (switchToMain s).fetch.nextId = s.fetch.nextId ∧ (switchToMain s).mail = s.mail
    ∧ (switchToMain s).launch = s.launch ∧ (switchToMain s).track = s.track ∧ (switchToMain s).exit = s.exit
    ∧ (switchToMain s).retire = s.retire ∧ (switchToMain s).jam = s.jam
    ∧ (switchToMain s).mem.windowLength = s.mem.windowLength ∧ (switchToMain s).mem.waiting = s.mem.waiting
    ∧ (switchToMain s).mem.bus = s.mem.bus ∧ (switchToMain s).ctl.area = s.ctl.area
    ∧ (switchToMain s).ctl.state = s.ctl.state ∧ (switchToMain s).ctl.cmd = s.ctl.cmd
    ∧ (switchToMain s).ctl.lastCommand = s.ctl.lastCommand ∧ (switchToMain s).ctl.lastOutcome = s.ctl.lastOutcome
    ∧ (switchToMain s).ctl.validation = s.ctl.validation ∧ (switchToMain s).ctl.amask = s.ctl.amask
    ∧ (switchToMain s).ctl.pauseRec = s.ctl.pauseRec ∧ (switchToMain s).config = s.config
    ∧ (switchToMain s).pending = s.pending ∧ (switchToMain s).out = s.out
    ∧ (switchToMain s).freeIndex = s.freeIndex := by
  simp [switchToMain]

@[simp] theorem followLink_frame (a0 : Word) (a1 : Word) (s : State) : (followLink a0 a1 s).transport = s.transport
    ∧ (followLink a0 a1 s).clock = s.clock ∧ (followLink a0 a1 s).fetch.window = s.fetch.window
    ∧ (followLink a0 a1 s).fetch.stack = s.fetch.stack ∧ (followLink a0 a1 s).fetch.outer = s.fetch.outer
    ∧ (followLink a0 a1 s).fetch.read = s.fetch.read ∧ (followLink a0 a1 s).fetch.rereadAsked = s.fetch.rereadAsked
    ∧ (followLink a0 a1 s).fetch.nextId = s.fetch.nextId ∧ (followLink a0 a1 s).mail = s.mail
    ∧ (followLink a0 a1 s).launch = s.launch ∧ (followLink a0 a1 s).track = s.track
    ∧ (followLink a0 a1 s).exit = s.exit ∧ (followLink a0 a1 s).retire = s.retire ∧ (followLink a0 a1 s).jam = s.jam
    ∧ (followLink a0 a1 s).mem.windowLength = s.mem.windowLength ∧ (followLink a0 a1 s).mem.waiting = s.mem.waiting
    ∧ (followLink a0 a1 s).mem.bus = s.mem.bus ∧ (followLink a0 a1 s).ctl.area = s.ctl.area
    ∧ (followLink a0 a1 s).ctl.state = s.ctl.state ∧ (followLink a0 a1 s).ctl.cmd = s.ctl.cmd
    ∧ (followLink a0 a1 s).ctl.lastCommand = s.ctl.lastCommand
    ∧ (followLink a0 a1 s).ctl.lastOutcome = s.ctl.lastOutcome
    ∧ (followLink a0 a1 s).ctl.validation = s.ctl.validation ∧ (followLink a0 a1 s).ctl.amask = s.ctl.amask
    ∧ (followLink a0 a1 s).ctl.pauseRec = s.ctl.pauseRec ∧ (followLink a0 a1 s).config = s.config
    ∧ (followLink a0 a1 s).pending = s.pending ∧ (followLink a0 a1 s).out = s.out
    ∧ (followLink a0 a1 s).freeIndex = s.freeIndex := by
  simp only [followLink]
  (repeat' split) <;> simp

@[simp] theorem addEntry_frame (a0 : Entry) (s : State) : (addEntry a0 s).transport = s.transport
    ∧ (addEntry a0 s).clock = s.clock ∧ (addEntry a0 s).mail = s.mail ∧ (addEntry a0 s).launch = s.launch
    ∧ (addEntry a0 s).track = s.track ∧ (addEntry a0 s).exit = s.exit ∧ (addEntry a0 s).retire = s.retire
    ∧ (addEntry a0 s).jam = s.jam ∧ (addEntry a0 s).mem = s.mem ∧ (addEntry a0 s).ctl = s.ctl
    ∧ (addEntry a0 s).config = s.config ∧ (addEntry a0 s).pending = s.pending ∧ (addEntry a0 s).out = s.out
    ∧ (addEntry a0 s).freeIndex = s.freeIndex := by
  simp [addEntry]

@[simp] theorem sequenceFault_frame (s : State) : (sequenceFault s).transport = s.transport
    ∧ (sequenceFault s).clock = s.clock ∧ (sequenceFault s).fetch.pos = s.fetch.pos
    ∧ (sequenceFault s).fetch.stack = s.fetch.stack ∧ (sequenceFault s).fetch.outer = s.fetch.outer
    ∧ (sequenceFault s).fetch.chain = s.fetch.chain ∧ (sequenceFault s).fetch.resync = s.fetch.resync
    ∧ (sequenceFault s).fetch.read = s.fetch.read ∧ (sequenceFault s).fetch.rereadAsked = s.fetch.rereadAsked
    ∧ (sequenceFault s).fetch.nextId = s.fetch.nextId ∧ (sequenceFault s).mail = s.mail
    ∧ (sequenceFault s).launch = s.launch ∧ (sequenceFault s).track = s.track ∧ (sequenceFault s).exit = s.exit
    ∧ (sequenceFault s).retire = s.retire ∧ (sequenceFault s).jam = s.jam ∧ (sequenceFault s).mem = s.mem
    ∧ (sequenceFault s).ctl.area = s.ctl.area ∧ (sequenceFault s).ctl.state = s.ctl.state
    ∧ (sequenceFault s).ctl.cmd = s.ctl.cmd ∧ (sequenceFault s).ctl.lastCommand = s.ctl.lastCommand
    ∧ (sequenceFault s).ctl.lastOutcome = s.ctl.lastOutcome ∧ (sequenceFault s).ctl.validation = s.ctl.validation
    ∧ (sequenceFault s).ctl.lastSkip = s.ctl.lastSkip ∧ (sequenceFault s).ctl.amask = s.ctl.amask
    ∧ (sequenceFault s).ctl.pauseRec = s.ctl.pauseRec ∧ (sequenceFault s).config = s.config
    ∧ (sequenceFault s).pending = s.pending ∧ (sequenceFault s).out = s.out
    ∧ (sequenceFault s).freeIndex = s.freeIndex := by
  simp only [sequenceFault]
  (repeat' split) <;> simp

@[simp] theorem refuseCall_frame (a0 : Nat) (a1 : Word) (a2 : Word) (a3 : Reason) (s : State) :
    (refuseCall a0 a1 a2 a3 s).transport = s.transport
    ∧ (refuseCall a0 a1 a2 a3 s).clock = s.clock ∧ (refuseCall a0 a1 a2 a3 s).fetch.stack = s.fetch.stack
    ∧ (refuseCall a0 a1 a2 a3 s).fetch.outer = s.fetch.outer ∧ (refuseCall a0 a1 a2 a3 s).fetch.read = s.fetch.read
    ∧ (refuseCall a0 a1 a2 a3 s).fetch.rereadAsked = s.fetch.rereadAsked
    ∧ (refuseCall a0 a1 a2 a3 s).fetch.nextId = s.fetch.nextId ∧ (refuseCall a0 a1 a2 a3 s).mail = s.mail
    ∧ (refuseCall a0 a1 a2 a3 s).launch = s.launch ∧ (refuseCall a0 a1 a2 a3 s).track = s.track
    ∧ (refuseCall a0 a1 a2 a3 s).exit = s.exit ∧ (refuseCall a0 a1 a2 a3 s).retire = s.retire
    ∧ (refuseCall a0 a1 a2 a3 s).jam = s.jam ∧ (refuseCall a0 a1 a2 a3 s).mem.windowLength = s.mem.windowLength
    ∧ (refuseCall a0 a1 a2 a3 s).mem.waiting = s.mem.waiting ∧ (refuseCall a0 a1 a2 a3 s).mem.bus = s.mem.bus
    ∧ (refuseCall a0 a1 a2 a3 s).ctl.area = s.ctl.area ∧ (refuseCall a0 a1 a2 a3 s).ctl.state = s.ctl.state
    ∧ (refuseCall a0 a1 a2 a3 s).ctl.cmd = s.ctl.cmd ∧ (refuseCall a0 a1 a2 a3 s).ctl.lastCommand = s.ctl.lastCommand
    ∧ (refuseCall a0 a1 a2 a3 s).ctl.lastOutcome = s.ctl.lastOutcome
    ∧ (refuseCall a0 a1 a2 a3 s).ctl.validation = s.ctl.validation
    ∧ (refuseCall a0 a1 a2 a3 s).ctl.amask = s.ctl.amask ∧ (refuseCall a0 a1 a2 a3 s).ctl.pauseRec = s.ctl.pauseRec
    ∧ (refuseCall a0 a1 a2 a3 s).config = s.config ∧ (refuseCall a0 a1 a2 a3 s).pending = s.pending
    ∧ (refuseCall a0 a1 a2 a3 s).out = s.out ∧ (refuseCall a0 a1 a2 a3 s).freeIndex = s.freeIndex := by
  simp only [refuseCall]
  (repeat' split) <;> simp

@[simp] theorem enterSequence_frame (a0 : Nat) (a1 : Word) (a2 : OrderWords) (s : State) :
    (enterSequence a0 a1 a2 s).transport = s.transport
    ∧ (enterSequence a0 a1 a2 s).clock = s.clock ∧ (enterSequence a0 a1 a2 s).mail = s.mail
    ∧ (enterSequence a0 a1 a2 s).launch = s.launch ∧ (enterSequence a0 a1 a2 s).track = s.track
    ∧ (enterSequence a0 a1 a2 s).exit = s.exit ∧ (enterSequence a0 a1 a2 s).retire = s.retire
    ∧ (enterSequence a0 a1 a2 s).jam = s.jam ∧ (enterSequence a0 a1 a2 s).mem.windowLength = s.mem.windowLength
    ∧ (enterSequence a0 a1 a2 s).mem.waiting = s.mem.waiting ∧ (enterSequence a0 a1 a2 s).mem.bus = s.mem.bus
    ∧ (enterSequence a0 a1 a2 s).ctl.area = s.ctl.area ∧ (enterSequence a0 a1 a2 s).ctl.state = s.ctl.state
    ∧ (enterSequence a0 a1 a2 s).ctl.cmd = s.ctl.cmd ∧ (enterSequence a0 a1 a2 s).ctl.lastCommand = s.ctl.lastCommand
    ∧ (enterSequence a0 a1 a2 s).ctl.lastOutcome = s.ctl.lastOutcome
    ∧ (enterSequence a0 a1 a2 s).ctl.validation = s.ctl.validation
    ∧ (enterSequence a0 a1 a2 s).ctl.amask = s.ctl.amask ∧ (enterSequence a0 a1 a2 s).ctl.pauseRec = s.ctl.pauseRec
    ∧ (enterSequence a0 a1 a2 s).config = s.config ∧ (enterSequence a0 a1 a2 s).pending = s.pending
    ∧ (enterSequence a0 a1 a2 s).out = s.out ∧ (enterSequence a0 a1 a2 s).freeIndex = s.freeIndex := by
  simp [enterSequence]

@[simp] theorem takeHead_frame (a0 : Nat) (a1 : Word) (a2 : OrderWords) (s : State) :
    (takeHead a0 a1 a2 s).transport = s.transport
    ∧ (takeHead a0 a1 a2 s).clock = s.clock ∧ (takeHead a0 a1 a2 s).mail = s.mail
    ∧ (takeHead a0 a1 a2 s).launch = s.launch ∧ (takeHead a0 a1 a2 s).track = s.track
    ∧ (takeHead a0 a1 a2 s).exit = s.exit ∧ (takeHead a0 a1 a2 s).retire = s.retire
    ∧ (takeHead a0 a1 a2 s).jam = s.jam ∧ (takeHead a0 a1 a2 s).mem.windowLength = s.mem.windowLength
    ∧ (takeHead a0 a1 a2 s).mem.waiting = s.mem.waiting ∧ (takeHead a0 a1 a2 s).mem.bus = s.mem.bus
    ∧ (takeHead a0 a1 a2 s).ctl.area = s.ctl.area ∧ (takeHead a0 a1 a2 s).ctl.state = s.ctl.state
    ∧ (takeHead a0 a1 a2 s).ctl.cmd = s.ctl.cmd ∧ (takeHead a0 a1 a2 s).ctl.lastCommand = s.ctl.lastCommand
    ∧ (takeHead a0 a1 a2 s).ctl.lastOutcome = s.ctl.lastOutcome
    ∧ (takeHead a0 a1 a2 s).ctl.validation = s.ctl.validation ∧ (takeHead a0 a1 a2 s).ctl.amask = s.ctl.amask
    ∧ (takeHead a0 a1 a2 s).ctl.pauseRec = s.ctl.pauseRec ∧ (takeHead a0 a1 a2 s).config = s.config
    ∧ (takeHead a0 a1 a2 s).pending = s.pending ∧ (takeHead a0 a1 a2 s).out = s.out
    ∧ (takeHead a0 a1 a2 s).freeIndex = s.freeIndex := by
  simp only [takeHead]
  (repeat' split) <;> simp

@[simp] theorem takeCall_frame (a0 : Entry) (s : State) : (takeCall a0 s).transport = s.transport
    ∧ (takeCall a0 s).clock = s.clock ∧ (takeCall a0 s).mail = s.mail ∧ (takeCall a0 s).launch = s.launch
    ∧ (takeCall a0 s).track = s.track ∧ (takeCall a0 s).exit = s.exit ∧ (takeCall a0 s).retire = s.retire
    ∧ (takeCall a0 s).jam = s.jam ∧ (takeCall a0 s).mem.windowLength = s.mem.windowLength
    ∧ (takeCall a0 s).mem.waiting = s.mem.waiting ∧ (takeCall a0 s).mem.bus = s.mem.bus
    ∧ (takeCall a0 s).ctl.area = s.ctl.area ∧ (takeCall a0 s).ctl.state = s.ctl.state
    ∧ (takeCall a0 s).ctl.cmd = s.ctl.cmd ∧ (takeCall a0 s).ctl.lastCommand = s.ctl.lastCommand
    ∧ (takeCall a0 s).ctl.lastOutcome = s.ctl.lastOutcome ∧ (takeCall a0 s).ctl.validation = s.ctl.validation
    ∧ (takeCall a0 s).ctl.amask = s.ctl.amask ∧ (takeCall a0 s).ctl.pauseRec = s.ctl.pauseRec
    ∧ (takeCall a0 s).config = s.config ∧ (takeCall a0 s).pending = s.pending ∧ (takeCall a0 s).out = s.out
    ∧ (takeCall a0 s).freeIndex = s.freeIndex := by
  simp only [takeCall]
  (repeat' split) <;> simp

@[simp] theorem beginReturn_frame (s : State) : (beginReturn s).transport = s.transport
    ∧ (beginReturn s).clock = s.clock ∧ (beginReturn s).fetch.window = s.fetch.window
    ∧ (beginReturn s).fetch.stack = s.fetch.stack ∧ (beginReturn s).fetch.outer = s.fetch.outer
    ∧ (beginReturn s).fetch.chain = s.fetch.chain ∧ (beginReturn s).fetch.resync = s.fetch.resync
    ∧ (beginReturn s).fetch.read = s.fetch.read ∧ (beginReturn s).fetch.rereadAsked = s.fetch.rereadAsked
    ∧ (beginReturn s).fetch.nextId = s.fetch.nextId ∧ (beginReturn s).mail = s.mail
    ∧ (beginReturn s).launch = s.launch ∧ (beginReturn s).track = s.track ∧ (beginReturn s).exit = s.exit
    ∧ (beginReturn s).retire = s.retire ∧ (beginReturn s).jam = s.jam ∧ (beginReturn s).mem = s.mem
    ∧ (beginReturn s).ctl = s.ctl ∧ (beginReturn s).config = s.config ∧ (beginReturn s).pending = s.pending
    ∧ (beginReturn s).out = s.out ∧ (beginReturn s).freeIndex = s.freeIndex := by
  simp only [beginReturn]
  (repeat' split) <;> simp

@[simp] theorem takeBlock_frame (a0 : Word) (a1 : OrderWords) (s : State) :
    (takeBlock a0 a1 s).transport = s.transport
    ∧ (takeBlock a0 a1 s).clock = s.clock ∧ (takeBlock a0 a1 s).mail = s.mail ∧ (takeBlock a0 a1 s).launch = s.launch
    ∧ (takeBlock a0 a1 s).track = s.track ∧ (takeBlock a0 a1 s).exit = s.exit ∧ (takeBlock a0 a1 s).retire = s.retire
    ∧ (takeBlock a0 a1 s).jam = s.jam ∧ (takeBlock a0 a1 s).mem.windowLength = s.mem.windowLength
    ∧ (takeBlock a0 a1 s).mem.waiting = s.mem.waiting ∧ (takeBlock a0 a1 s).mem.bus = s.mem.bus
    ∧ (takeBlock a0 a1 s).ctl.area = s.ctl.area ∧ (takeBlock a0 a1 s).ctl.state = s.ctl.state
    ∧ (takeBlock a0 a1 s).ctl.cmd = s.ctl.cmd ∧ (takeBlock a0 a1 s).ctl.lastCommand = s.ctl.lastCommand
    ∧ (takeBlock a0 a1 s).ctl.lastOutcome = s.ctl.lastOutcome ∧ (takeBlock a0 a1 s).ctl.validation = s.ctl.validation
    ∧ (takeBlock a0 a1 s).ctl.amask = s.ctl.amask ∧ (takeBlock a0 a1 s).ctl.pauseRec = s.ctl.pauseRec
    ∧ (takeBlock a0 a1 s).config = s.config ∧ (takeBlock a0 a1 s).pending = s.pending
    ∧ (takeBlock a0 a1 s).out = s.out ∧ (takeBlock a0 a1 s).freeIndex = s.freeIndex := by
  simp only [takeBlock]
  (repeat' split) <;> simp

@[simp] theorem takeFetched_frame (a0 : OrderWords) (s : State) : (takeFetched a0 s).transport = s.transport
    ∧ (takeFetched a0 s).clock = s.clock ∧ (takeFetched a0 s).mail = s.mail ∧ (takeFetched a0 s).launch = s.launch
    ∧ (takeFetched a0 s).track = s.track ∧ (takeFetched a0 s).exit = s.exit ∧ (takeFetched a0 s).retire = s.retire
    ∧ (takeFetched a0 s).jam = s.jam ∧ (takeFetched a0 s).mem.windowLength = s.mem.windowLength
    ∧ (takeFetched a0 s).mem.waiting = s.mem.waiting ∧ (takeFetched a0 s).mem.bus = s.mem.bus
    ∧ (takeFetched a0 s).ctl.area = s.ctl.area ∧ (takeFetched a0 s).ctl.state = s.ctl.state
    ∧ (takeFetched a0 s).ctl.cmd = s.ctl.cmd ∧ (takeFetched a0 s).ctl.lastCommand = s.ctl.lastCommand
    ∧ (takeFetched a0 s).ctl.lastOutcome = s.ctl.lastOutcome ∧ (takeFetched a0 s).ctl.validation = s.ctl.validation
    ∧ (takeFetched a0 s).ctl.amask = s.ctl.amask ∧ (takeFetched a0 s).ctl.pauseRec = s.ctl.pauseRec
    ∧ (takeFetched a0 s).config = s.config ∧ (takeFetched a0 s).pending = s.pending ∧ (takeFetched a0 s).out = s.out
    ∧ (takeFetched a0 s).freeIndex = s.freeIndex := by
  simp only [takeFetched]
  (repeat' split) <;> simp

@[simp] theorem leaveSequence_frame (a0 : Word) (s : State) : (leaveSequence a0 s).transport = s.transport
    ∧ (leaveSequence a0 s).clock = s.clock ∧ (leaveSequence a0 s).fetch.window = s.fetch.window
    ∧ (leaveSequence a0 s).fetch.chain = s.fetch.chain ∧ (leaveSequence a0 s).fetch.resync = s.fetch.resync
    ∧ (leaveSequence a0 s).fetch.read = s.fetch.read ∧ (leaveSequence a0 s).fetch.rereadAsked = s.fetch.rereadAsked
    ∧ (leaveSequence a0 s).fetch.nextId = s.fetch.nextId ∧ (leaveSequence a0 s).mail = s.mail
    ∧ (leaveSequence a0 s).launch = s.launch ∧ (leaveSequence a0 s).track = s.track
    ∧ (leaveSequence a0 s).exit = s.exit ∧ (leaveSequence a0 s).retire = s.retire ∧ (leaveSequence a0 s).jam = s.jam
    ∧ (leaveSequence a0 s).mem = s.mem ∧ (leaveSequence a0 s).ctl = s.ctl ∧ (leaveSequence a0 s).config = s.config
    ∧ (leaveSequence a0 s).pending = s.pending ∧ (leaveSequence a0 s).out = s.out
    ∧ (leaveSequence a0 s).freeIndex = s.freeIndex := by
  simp only [leaveSequence]
  (repeat' split) <;> simp

@[simp] theorem takeReturnLink_frame (a0 : Word) (s : State) : (takeReturnLink a0 s).transport = s.transport
    ∧ (takeReturnLink a0 s).clock = s.clock ∧ (takeReturnLink a0 s).fetch.window = s.fetch.window
    ∧ (takeReturnLink a0 s).fetch.chain = s.fetch.chain ∧ (takeReturnLink a0 s).fetch.resync = s.fetch.resync
    ∧ (takeReturnLink a0 s).fetch.read = s.fetch.read ∧ (takeReturnLink a0 s).fetch.rereadAsked = s.fetch.rereadAsked
    ∧ (takeReturnLink a0 s).fetch.nextId = s.fetch.nextId ∧ (takeReturnLink a0 s).mail = s.mail
    ∧ (takeReturnLink a0 s).launch = s.launch ∧ (takeReturnLink a0 s).track = s.track
    ∧ (takeReturnLink a0 s).exit = s.exit ∧ (takeReturnLink a0 s).retire = s.retire
    ∧ (takeReturnLink a0 s).jam = s.jam ∧ (takeReturnLink a0 s).mem.windowLength = s.mem.windowLength
    ∧ (takeReturnLink a0 s).mem.waiting = s.mem.waiting ∧ (takeReturnLink a0 s).mem.bus = s.mem.bus
    ∧ (takeReturnLink a0 s).ctl.area = s.ctl.area ∧ (takeReturnLink a0 s).ctl.state = s.ctl.state
    ∧ (takeReturnLink a0 s).ctl.cmd = s.ctl.cmd ∧ (takeReturnLink a0 s).ctl.lastCommand = s.ctl.lastCommand
    ∧ (takeReturnLink a0 s).ctl.lastOutcome = s.ctl.lastOutcome
    ∧ (takeReturnLink a0 s).ctl.validation = s.ctl.validation ∧ (takeReturnLink a0 s).ctl.amask = s.ctl.amask
    ∧ (takeReturnLink a0 s).ctl.pauseRec = s.ctl.pauseRec ∧ (takeReturnLink a0 s).config = s.config
    ∧ (takeReturnLink a0 s).pending = s.pending ∧ (takeReturnLink a0 s).out = s.out
    ∧ (takeReturnLink a0 s).freeIndex = s.freeIndex := by
  simp only [takeReturnLink]
  (repeat' split) <;> simp

@[simp] theorem takeContinuation_frame (a0 : Word) (s : State) : (takeContinuation a0 s).transport = s.transport
    ∧ (takeContinuation a0 s).clock = s.clock ∧ (takeContinuation a0 s).fetch.stack = s.fetch.stack
    ∧ (takeContinuation a0 s).fetch.outer = s.fetch.outer ∧ (takeContinuation a0 s).fetch.read = s.fetch.read
    ∧ (takeContinuation a0 s).fetch.rereadAsked = s.fetch.rereadAsked
    ∧ (takeContinuation a0 s).fetch.nextId = s.fetch.nextId ∧ (takeContinuation a0 s).mail = s.mail
    ∧ (takeContinuation a0 s).launch = s.launch ∧ (takeContinuation a0 s).track = s.track
    ∧ (takeContinuation a0 s).exit = s.exit ∧ (takeContinuation a0 s).retire = s.retire
    ∧ (takeContinuation a0 s).jam = s.jam ∧ (takeContinuation a0 s).mem.windowLength = s.mem.windowLength
    ∧ (takeContinuation a0 s).mem.waiting = s.mem.waiting ∧ (takeContinuation a0 s).mem.bus = s.mem.bus
    ∧ (takeContinuation a0 s).ctl.area = s.ctl.area ∧ (takeContinuation a0 s).ctl.state = s.ctl.state
    ∧ (takeContinuation a0 s).ctl.cmd = s.ctl.cmd ∧ (takeContinuation a0 s).ctl.lastCommand = s.ctl.lastCommand
    ∧ (takeContinuation a0 s).ctl.lastOutcome = s.ctl.lastOutcome
    ∧ (takeContinuation a0 s).ctl.validation = s.ctl.validation ∧ (takeContinuation a0 s).ctl.amask = s.ctl.amask
    ∧ (takeContinuation a0 s).ctl.pauseRec = s.ctl.pauseRec ∧ (takeContinuation a0 s).config = s.config
    ∧ (takeContinuation a0 s).pending = s.pending ∧ (takeContinuation a0 s).out = s.out
    ∧ (takeContinuation a0 s).freeIndex = s.freeIndex := by
  simp only [takeContinuation]
  (repeat' split) <;> simp

@[simp] theorem takeTail_frame (a0 : Word) (s : State) : (takeTail a0 s).transport = s.transport
    ∧ (takeTail a0 s).clock = s.clock ∧ (takeTail a0 s).fetch.window = s.fetch.window
    ∧ (takeTail a0 s).fetch.stack = s.fetch.stack ∧ (takeTail a0 s).fetch.outer = s.fetch.outer
    ∧ (takeTail a0 s).fetch.chain = s.fetch.chain ∧ (takeTail a0 s).fetch.resync = s.fetch.resync
    ∧ (takeTail a0 s).fetch.read = s.fetch.read ∧ (takeTail a0 s).fetch.nextId = s.fetch.nextId
    ∧ (takeTail a0 s).mail = s.mail ∧ (takeTail a0 s).launch = s.launch ∧ (takeTail a0 s).track = s.track
    ∧ (takeTail a0 s).exit = s.exit ∧ (takeTail a0 s).retire = s.retire ∧ (takeTail a0 s).jam = s.jam
    ∧ (takeTail a0 s).mem.windowLength = s.mem.windowLength ∧ (takeTail a0 s).mem.waiting = s.mem.waiting
    ∧ (takeTail a0 s).mem.bus = s.mem.bus ∧ (takeTail a0 s).ctl.area = s.ctl.area
    ∧ (takeTail a0 s).ctl.state = s.ctl.state ∧ (takeTail a0 s).ctl.cmd = s.ctl.cmd
    ∧ (takeTail a0 s).ctl.lastCommand = s.ctl.lastCommand ∧ (takeTail a0 s).ctl.lastOutcome = s.ctl.lastOutcome
    ∧ (takeTail a0 s).ctl.validation = s.ctl.validation ∧ (takeTail a0 s).ctl.amask = s.ctl.amask
    ∧ (takeTail a0 s).ctl.pauseRec = s.ctl.pauseRec ∧ (takeTail a0 s).config = s.config
    ∧ (takeTail a0 s).pending = s.pending ∧ (takeTail a0 s).out = s.out
    ∧ (takeTail a0 s).freeIndex = s.freeIndex := by
  simp only [takeTail]
  (repeat' split) <;> simp

@[simp] theorem takeFaultSource_frame (a0 : Word) (s : State) : (takeFaultSource a0 s).transport = s.transport
    ∧ (takeFaultSource a0 s).clock = s.clock ∧ (takeFaultSource a0 s).fetch.window = s.fetch.window
    ∧ (takeFaultSource a0 s).fetch.read = s.fetch.read
    ∧ (takeFaultSource a0 s).fetch.rereadAsked = s.fetch.rereadAsked
    ∧ (takeFaultSource a0 s).fetch.nextId = s.fetch.nextId ∧ (takeFaultSource a0 s).mail = s.mail
    ∧ (takeFaultSource a0 s).launch = s.launch ∧ (takeFaultSource a0 s).track = s.track
    ∧ (takeFaultSource a0 s).exit = s.exit ∧ (takeFaultSource a0 s).retire = s.retire
    ∧ (takeFaultSource a0 s).jam = s.jam ∧ (takeFaultSource a0 s).mem.windowLength = s.mem.windowLength
    ∧ (takeFaultSource a0 s).mem.waiting = s.mem.waiting ∧ (takeFaultSource a0 s).mem.bus = s.mem.bus
    ∧ (takeFaultSource a0 s).ctl.area = s.ctl.area ∧ (takeFaultSource a0 s).ctl.state = s.ctl.state
    ∧ (takeFaultSource a0 s).ctl.cmd = s.ctl.cmd ∧ (takeFaultSource a0 s).ctl.lastCommand = s.ctl.lastCommand
    ∧ (takeFaultSource a0 s).ctl.lastOutcome = s.ctl.lastOutcome
    ∧ (takeFaultSource a0 s).ctl.validation = s.ctl.validation ∧ (takeFaultSource a0 s).ctl.amask = s.ctl.amask
    ∧ (takeFaultSource a0 s).ctl.pauseRec = s.ctl.pauseRec ∧ (takeFaultSource a0 s).config = s.config
    ∧ (takeFaultSource a0 s).pending = s.pending ∧ (takeFaultSource a0 s).out = s.out
    ∧ (takeFaultSource a0 s).freeIndex = s.freeIndex := by
  simp only [takeFaultSource]
  (repeat' split) <;> simp

@[simp] theorem discardRead_frame (s : State) : (discardRead s).transport = s.transport
    ∧ (discardRead s).clock = s.clock ∧ (discardRead s).fetch.pos = s.fetch.pos
    ∧ (discardRead s).fetch.window = s.fetch.window ∧ (discardRead s).fetch.stack = s.fetch.stack
    ∧ (discardRead s).fetch.outer = s.fetch.outer ∧ (discardRead s).fetch.chain = s.fetch.chain
    ∧ (discardRead s).fetch.resync = s.fetch.resync ∧ (discardRead s).fetch.nextId = s.fetch.nextId
    ∧ (discardRead s).mail = s.mail ∧ (discardRead s).launch = s.launch ∧ (discardRead s).track = s.track
    ∧ (discardRead s).exit = s.exit ∧ (discardRead s).retire = s.retire ∧ (discardRead s).jam = s.jam
    ∧ (discardRead s).mem = s.mem ∧ (discardRead s).ctl = s.ctl ∧ (discardRead s).config = s.config
    ∧ (discardRead s).pending = s.pending ∧ (discardRead s).out = s.out
    ∧ (discardRead s).freeIndex = s.freeIndex := by
  simp [discardRead]

@[simp] theorem freshFetch_frame (a0 : Stream) (a1 : Bool) (s : State) : (freshFetch a0 a1 s).transport = s.transport
    ∧ (freshFetch a0 a1 s).clock = s.clock ∧ (freshFetch a0 a1 s).fetch.window = s.fetch.window
    ∧ (freshFetch a0 a1 s).fetch.nextId = s.fetch.nextId ∧ (freshFetch a0 a1 s).mail = s.mail
    ∧ (freshFetch a0 a1 s).launch = s.launch ∧ (freshFetch a0 a1 s).track = s.track
    ∧ (freshFetch a0 a1 s).exit = s.exit ∧ (freshFetch a0 a1 s).retire = s.retire ∧ (freshFetch a0 a1 s).jam = s.jam
    ∧ (freshFetch a0 a1 s).mem = s.mem ∧ (freshFetch a0 a1 s).ctl = s.ctl ∧ (freshFetch a0 a1 s).config = s.config
    ∧ (freshFetch a0 a1 s).pending = s.pending ∧ (freshFetch a0 a1 s).out = s.out
    ∧ (freshFetch a0 a1 s).freeIndex = s.freeIndex := by
  simp [freshFetch]

@[simp] theorem startFromWord2_frame (a0 : Word) (s : State) : (startFromWord2 a0 s).transport = s.transport
    ∧ (startFromWord2 a0 s).clock = s.clock ∧ (startFromWord2 a0 s).fetch.window = s.fetch.window
    ∧ (startFromWord2 a0 s).fetch.stack = s.fetch.stack ∧ (startFromWord2 a0 s).fetch.outer = s.fetch.outer
    ∧ (startFromWord2 a0 s).fetch.chain = s.fetch.chain ∧ (startFromWord2 a0 s).fetch.resync = s.fetch.resync
    ∧ (startFromWord2 a0 s).fetch.read = s.fetch.read ∧ (startFromWord2 a0 s).fetch.rereadAsked = s.fetch.rereadAsked
    ∧ (startFromWord2 a0 s).fetch.nextId = s.fetch.nextId ∧ (startFromWord2 a0 s).mail = s.mail
    ∧ (startFromWord2 a0 s).launch = s.launch ∧ (startFromWord2 a0 s).track = s.track
    ∧ (startFromWord2 a0 s).exit = s.exit ∧ (startFromWord2 a0 s).retire = s.retire
    ∧ (startFromWord2 a0 s).jam = s.jam ∧ (startFromWord2 a0 s).mem.windowLength = s.mem.windowLength
    ∧ (startFromWord2 a0 s).mem.waiting = s.mem.waiting ∧ (startFromWord2 a0 s).mem.bus = s.mem.bus
    ∧ (startFromWord2 a0 s).ctl.area = s.ctl.area ∧ (startFromWord2 a0 s).ctl.state = s.ctl.state
    ∧ (startFromWord2 a0 s).ctl.cmd = s.ctl.cmd ∧ (startFromWord2 a0 s).ctl.lastCommand = s.ctl.lastCommand
    ∧ (startFromWord2 a0 s).ctl.lastOutcome = s.ctl.lastOutcome
    ∧ (startFromWord2 a0 s).ctl.validation = s.ctl.validation ∧ (startFromWord2 a0 s).ctl.amask = s.ctl.amask
    ∧ (startFromWord2 a0 s).ctl.pauseRec = s.ctl.pauseRec ∧ (startFromWord2 a0 s).config = s.config
    ∧ (startFromWord2 a0 s).pending = s.pending ∧ (startFromWord2 a0 s).out = s.out
    ∧ (startFromWord2 a0 s).freeIndex = s.freeIndex := by
  simp only [startFromWord2]
  (repeat' split) <;> simp

@[simp] theorem startFromWord3_frame (a0 : Word) (s : State) : (startFromWord3 a0 s).transport = s.transport
    ∧ (startFromWord3 a0 s).clock = s.clock ∧ (startFromWord3 a0 s).fetch.window = s.fetch.window
    ∧ (startFromWord3 a0 s).fetch.stack = s.fetch.stack ∧ (startFromWord3 a0 s).fetch.outer = s.fetch.outer
    ∧ (startFromWord3 a0 s).fetch.read = s.fetch.read ∧ (startFromWord3 a0 s).fetch.rereadAsked = s.fetch.rereadAsked
    ∧ (startFromWord3 a0 s).fetch.nextId = s.fetch.nextId ∧ (startFromWord3 a0 s).mail = s.mail
    ∧ (startFromWord3 a0 s).launch = s.launch ∧ (startFromWord3 a0 s).track = s.track
    ∧ (startFromWord3 a0 s).exit = s.exit ∧ (startFromWord3 a0 s).retire = s.retire
    ∧ (startFromWord3 a0 s).jam = s.jam ∧ (startFromWord3 a0 s).mem.windowLength = s.mem.windowLength
    ∧ (startFromWord3 a0 s).mem.waiting = s.mem.waiting ∧ (startFromWord3 a0 s).mem.bus = s.mem.bus
    ∧ (startFromWord3 a0 s).ctl.area = s.ctl.area ∧ (startFromWord3 a0 s).ctl.state = s.ctl.state
    ∧ (startFromWord3 a0 s).ctl.cmd = s.ctl.cmd ∧ (startFromWord3 a0 s).ctl.lastCommand = s.ctl.lastCommand
    ∧ (startFromWord3 a0 s).ctl.lastOutcome = s.ctl.lastOutcome
    ∧ (startFromWord3 a0 s).ctl.validation = s.ctl.validation ∧ (startFromWord3 a0 s).ctl.amask = s.ctl.amask
    ∧ (startFromWord3 a0 s).ctl.pauseRec = s.ctl.pauseRec ∧ (startFromWord3 a0 s).config = s.config
    ∧ (startFromWord3 a0 s).pending = s.pending ∧ (startFromWord3 a0 s).out = s.out
    ∧ (startFromWord3 a0 s).freeIndex = s.freeIndex := by
  simp only [startFromWord3]
  (repeat' split) <;> simp

@[simp] theorem askReread_frame (s : State) : (askReread s).transport = s.transport ∧ (askReread s).clock = s.clock
    ∧ (askReread s).fetch.pos = s.fetch.pos ∧ (askReread s).fetch.window = s.fetch.window
    ∧ (askReread s).fetch.stack = s.fetch.stack ∧ (askReread s).fetch.outer = s.fetch.outer
    ∧ (askReread s).fetch.chain = s.fetch.chain ∧ (askReread s).fetch.resync = s.fetch.resync
    ∧ (askReread s).fetch.read = s.fetch.read ∧ (askReread s).fetch.nextId = s.fetch.nextId
    ∧ (askReread s).mail = s.mail ∧ (askReread s).launch = s.launch ∧ (askReread s).track = s.track
    ∧ (askReread s).exit = s.exit ∧ (askReread s).retire = s.retire ∧ (askReread s).jam = s.jam
    ∧ (askReread s).mem = s.mem ∧ (askReread s).ctl = s.ctl ∧ (askReread s).config = s.config
    ∧ (askReread s).pending = s.pending ∧ (askReread s).out = s.out ∧ (askReread s).freeIndex = s.freeIndex := by
  simp only [askReread]
  (repeat' split) <;> simp

@[simp] theorem extendFetch_frame (s : State) : (extendFetch s).transport = s.transport
    ∧ (extendFetch s).clock = s.clock ∧ (extendFetch s).fetch.window = s.fetch.window
    ∧ (extendFetch s).fetch.stack = s.fetch.stack ∧ (extendFetch s).fetch.outer = s.fetch.outer
    ∧ (extendFetch s).fetch.chain = s.fetch.chain ∧ (extendFetch s).fetch.resync = s.fetch.resync
    ∧ (extendFetch s).fetch.read = s.fetch.read ∧ (extendFetch s).fetch.nextId = s.fetch.nextId
    ∧ (extendFetch s).mail = s.mail ∧ (extendFetch s).launch = s.launch ∧ (extendFetch s).track = s.track
    ∧ (extendFetch s).exit = s.exit ∧ (extendFetch s).retire = s.retire ∧ (extendFetch s).jam = s.jam
    ∧ (extendFetch s).mem.windowLength = s.mem.windowLength ∧ (extendFetch s).mem.waiting = s.mem.waiting
    ∧ (extendFetch s).mem.bus = s.mem.bus ∧ (extendFetch s).ctl.area = s.ctl.area
    ∧ (extendFetch s).ctl.state = s.ctl.state ∧ (extendFetch s).ctl.cmd = s.ctl.cmd
    ∧ (extendFetch s).ctl.lastCommand = s.ctl.lastCommand ∧ (extendFetch s).ctl.lastOutcome = s.ctl.lastOutcome
    ∧ (extendFetch s).ctl.validation = s.ctl.validation ∧ (extendFetch s).ctl.amask = s.ctl.amask
    ∧ (extendFetch s).ctl.pauseRec = s.ctl.pauseRec ∧ (extendFetch s).config = s.config
    ∧ (extendFetch s).pending = s.pending ∧ (extendFetch s).out = s.out
    ∧ (extendFetch s).freeIndex = s.freeIndex := by
  simp only [extendFetch]
  (repeat' split) <;> simp

@[simp] theorem issueReads_frame (s : State) : (issueReads s).transport = s.transport ∧ (issueReads s).clock = s.clock
    ∧ (issueReads s).fetch.pos = s.fetch.pos ∧ (issueReads s).fetch.window = s.fetch.window
    ∧ (issueReads s).fetch.stack = s.fetch.stack ∧ (issueReads s).fetch.outer = s.fetch.outer
    ∧ (issueReads s).fetch.chain = s.fetch.chain ∧ (issueReads s).fetch.resync = s.fetch.resync
    ∧ (issueReads s).fetch.nextId = s.fetch.nextId ∧ (issueReads s).mail = s.mail ∧ (issueReads s).launch = s.launch
    ∧ (issueReads s).track = s.track ∧ (issueReads s).exit = s.exit ∧ (issueReads s).retire = s.retire
    ∧ (issueReads s).jam = s.jam ∧ (issueReads s).mem.windowLength = s.mem.windowLength
    ∧ (issueReads s).mem.queue = s.mem.queue ∧ (issueReads s).mem.held = s.mem.held
    ∧ (issueReads s).mem.bus = s.mem.bus ∧ (issueReads s).ctl = s.ctl ∧ (issueReads s).config = s.config
    ∧ (issueReads s).pending = s.pending ∧ (issueReads s).out = s.out ∧ (issueReads s).freeIndex = s.freeIndex := by
  simp only [issueReads]
  (repeat' split) <;> simp

@[simp] theorem endRead_frame (s : State) : (endRead s).transport = s.transport ∧ (endRead s).clock = s.clock
    ∧ (endRead s).fetch.pos = s.fetch.pos ∧ (endRead s).fetch.window = s.fetch.window
    ∧ (endRead s).fetch.stack = s.fetch.stack ∧ (endRead s).fetch.outer = s.fetch.outer
    ∧ (endRead s).fetch.chain = s.fetch.chain ∧ (endRead s).fetch.resync = s.fetch.resync
    ∧ (endRead s).fetch.rereadAsked = s.fetch.rereadAsked ∧ (endRead s).fetch.nextId = s.fetch.nextId
    ∧ (endRead s).mail = s.mail ∧ (endRead s).launch = s.launch ∧ (endRead s).track = s.track
    ∧ (endRead s).exit = s.exit ∧ (endRead s).retire = s.retire ∧ (endRead s).jam = s.jam ∧ (endRead s).mem = s.mem
    ∧ (endRead s).ctl = s.ctl ∧ (endRead s).config = s.config ∧ (endRead s).pending = s.pending
    ∧ (endRead s).out = s.out ∧ (endRead s).freeIndex = s.freeIndex := by
  simp [endRead]

@[simp] theorem takePause_frame (a0 : Nat) (s : State) : (takePause a0 s).transport.count = s.transport.count
    ∧ (takePause a0 s).transport.sensors = s.transport.sensors ∧ (takePause a0 s).transport.ref = s.transport.ref
    ∧ (takePause a0 s).transport.below = s.transport.below
    ∧ (takePause a0 s).transport.allInBand = s.transport.allInBand
    ∧ (takePause a0 s).transport.samplePeriod = s.transport.samplePeriod
    ∧ (takePause a0 s).clock.pitch = s.clock.pitch ∧ (takePause a0 s).clock.boundary = s.clock.boundary
    ∧ (takePause a0 s).clock.ring = s.clock.ring ∧ (takePause a0 s).clock.lastFinal = s.clock.lastFinal
    ∧ (takePause a0 s).clock.loopUnusable = s.clock.loopUnusable ∧ (takePause a0 s).fetch.pos = s.fetch.pos
    ∧ (takePause a0 s).fetch.stack = s.fetch.stack ∧ (takePause a0 s).fetch.outer = s.fetch.outer
    ∧ (takePause a0 s).fetch.chain = s.fetch.chain ∧ (takePause a0 s).fetch.resync = s.fetch.resync
    ∧ (takePause a0 s).fetch.read = s.fetch.read ∧ (takePause a0 s).fetch.rereadAsked = s.fetch.rereadAsked
    ∧ (takePause a0 s).fetch.nextId = s.fetch.nextId ∧ (takePause a0 s).mail = s.mail
    ∧ (takePause a0 s).launch = s.launch ∧ (takePause a0 s).track.sheets = s.track.sheets
    ∧ (takePause a0 s).track.queues = s.track.queues ∧ (takePause a0 s).track.fifo = s.track.fifo
    ∧ (takePause a0 s).track.d1 = s.track.d1 ∧ (takePause a0 s).track.nextId = s.track.nextId
    ∧ (takePause a0 s).exit = s.exit ∧ (takePause a0 s).retire = s.retire ∧ (takePause a0 s).jam = s.jam
    ∧ (takePause a0 s).mem = s.mem ∧ (takePause a0 s).ctl.area = s.ctl.area ∧ (takePause a0 s).ctl.cmd = s.ctl.cmd
    ∧ (takePause a0 s).ctl.lastCommand = s.ctl.lastCommand ∧ (takePause a0 s).ctl.lastOutcome = s.ctl.lastOutcome
    ∧ (takePause a0 s).ctl.validation = s.ctl.validation ∧ (takePause a0 s).ctl.lastSkip = s.ctl.lastSkip
    ∧ (takePause a0 s).ctl.amask = s.ctl.amask ∧ (takePause a0 s).config = s.config
    ∧ (takePause a0 s).pending = s.pending ∧ (takePause a0 s).out = s.out
    ∧ (takePause a0 s).freeIndex = s.freeIndex := by
  simp only [takePause]
  (repeat' split) <;> simp

@[simp] theorem takeCallAtFront_frame (a0 : Nat) (s : State) : (takeCallAtFront a0 s).transport = s.transport
    ∧ (takeCallAtFront a0 s).clock = s.clock ∧ (takeCallAtFront a0 s).fetch.pos = s.fetch.pos
    ∧ (takeCallAtFront a0 s).fetch.stack = s.fetch.stack ∧ (takeCallAtFront a0 s).fetch.outer = s.fetch.outer
    ∧ (takeCallAtFront a0 s).fetch.chain = s.fetch.chain ∧ (takeCallAtFront a0 s).fetch.resync = s.fetch.resync
    ∧ (takeCallAtFront a0 s).fetch.read = s.fetch.read
    ∧ (takeCallAtFront a0 s).fetch.rereadAsked = s.fetch.rereadAsked
    ∧ (takeCallAtFront a0 s).fetch.nextId = s.fetch.nextId ∧ (takeCallAtFront a0 s).mail = s.mail
    ∧ (takeCallAtFront a0 s).launch = s.launch ∧ (takeCallAtFront a0 s).track = s.track
    ∧ (takeCallAtFront a0 s).exit = s.exit ∧ (takeCallAtFront a0 s).retire = s.retire
    ∧ (takeCallAtFront a0 s).jam = s.jam ∧ (takeCallAtFront a0 s).mem = s.mem ∧ (takeCallAtFront a0 s).ctl = s.ctl
    ∧ (takeCallAtFront a0 s).config = s.config ∧ (takeCallAtFront a0 s).pending = s.pending
    ∧ (takeCallAtFront a0 s).out = s.out ∧ (takeCallAtFront a0 s).freeIndex = s.freeIndex := by
  simp only [takeCallAtFront]
  (repeat' split) <;> simp

@[simp] theorem handleFront_frame (a0 : Entry) (s : State) : (handleFront a0 s).transport.count = s.transport.count
    ∧ (handleFront a0 s).transport.sensors = s.transport.sensors ∧ (handleFront a0 s).transport.ref = s.transport.ref
    ∧ (handleFront a0 s).transport.below = s.transport.below
    ∧ (handleFront a0 s).transport.allInBand = s.transport.allInBand
    ∧ (handleFront a0 s).transport.samplePeriod = s.transport.samplePeriod
    ∧ (handleFront a0 s).clock.pitch = s.clock.pitch ∧ (handleFront a0 s).clock.boundary = s.clock.boundary
    ∧ (handleFront a0 s).clock.ring = s.clock.ring ∧ (handleFront a0 s).clock.lastFinal = s.clock.lastFinal
    ∧ (handleFront a0 s).clock.loopUnusable = s.clock.loopUnusable ∧ (handleFront a0 s).fetch.pos = s.fetch.pos
    ∧ (handleFront a0 s).fetch.stack = s.fetch.stack ∧ (handleFront a0 s).fetch.outer = s.fetch.outer
    ∧ (handleFront a0 s).fetch.chain = s.fetch.chain ∧ (handleFront a0 s).fetch.resync = s.fetch.resync
    ∧ (handleFront a0 s).fetch.read = s.fetch.read ∧ (handleFront a0 s).fetch.rereadAsked = s.fetch.rereadAsked
    ∧ (handleFront a0 s).fetch.nextId = s.fetch.nextId ∧ (handleFront a0 s).mail.purgeCount = s.mail.purgeCount
    ∧ (handleFront a0 s).mail.purgeFull = s.mail.purgeFull ∧ (handleFront a0 s).mail.binWaitArm = s.mail.binWaitArm
    ∧ (handleFront a0 s).launch.schedule = s.launch.schedule ∧ (handleFront a0 s).launch.candRead = s.launch.candRead
    ∧ (handleFront a0 s).launch.emptyCount = s.launch.emptyCount
    ∧ (handleFront a0 s).launch.starvedArm = s.launch.starvedArm
    ∧ (handleFront a0 s).launch.trayArm = s.launch.trayArm ∧ (handleFront a0 s).launch.trays = s.launch.trays
    ∧ (handleFront a0 s).launch.wakeAsked = s.launch.wakeAsked ∧ (handleFront a0 s).track.queues = s.track.queues
    ∧ (handleFront a0 s).track.fifo = s.track.fifo ∧ (handleFront a0 s).track.d1 = s.track.d1
    ∧ (handleFront a0 s).track.nextId = s.track.nextId ∧ (handleFront a0 s).exit = s.exit
    ∧ (handleFront a0 s).retire = s.retire ∧ (handleFront a0 s).jam = s.jam ∧ (handleFront a0 s).mem = s.mem
    ∧ (handleFront a0 s).ctl.area = s.ctl.area ∧ (handleFront a0 s).ctl.cmd = s.ctl.cmd
    ∧ (handleFront a0 s).ctl.lastCommand = s.ctl.lastCommand ∧ (handleFront a0 s).ctl.lastOutcome = s.ctl.lastOutcome
    ∧ (handleFront a0 s).ctl.validation = s.ctl.validation ∧ (handleFront a0 s).ctl.lastSkip = s.ctl.lastSkip
    ∧ (handleFront a0 s).ctl.amask = s.ctl.amask ∧ (handleFront a0 s).config = s.config
    ∧ (handleFront a0 s).pending = s.pending ∧ (handleFront a0 s).out = s.out
    ∧ (handleFront a0 s).freeIndex = s.freeIndex := by
  simp only [handleFront]
  (repeat' split) <;> simp

@[simp] theorem binCheck_frame (s : State) : (binCheck s).1.transport = s.transport ∧ (binCheck s).1.clock = s.clock
    ∧ (binCheck s).1.fetch = s.fetch ∧ (binCheck s).1.mail.purgeCount = s.mail.purgeCount
    ∧ (binCheck s).1.mail.purgeFull = s.mail.purgeFull ∧ (binCheck s).1.mail.binWaitArm = s.mail.binWaitArm
    ∧ (binCheck s).1.mail.waitingOpen = s.mail.waitingOpen ∧ (binCheck s).1.mail.nextId = s.mail.nextId
    ∧ (binCheck s).1.launch = s.launch ∧ (binCheck s).1.track = s.track ∧ (binCheck s).1.exit = s.exit
    ∧ (binCheck s).1.retire = s.retire ∧ (binCheck s).1.jam = s.jam ∧ (binCheck s).1.mem = s.mem
    ∧ (binCheck s).1.ctl = s.ctl ∧ (binCheck s).1.config = s.config ∧ (binCheck s).1.pending = s.pending
    ∧ (binCheck s).1.out = s.out ∧ (binCheck s).1.freeIndex = s.freeIndex := by
  simp only [binCheck]
  (repeat' split) <;> simp

@[simp] theorem checks1to4_frame (s : State) : (checks1to4 s).1.transport = s.transport
    ∧ (checks1to4 s).1.clock = s.clock ∧ (checks1to4 s).1.fetch = s.fetch
    ∧ (checks1to4 s).1.mail.purgeCount = s.mail.purgeCount ∧ (checks1to4 s).1.mail.purgeFull = s.mail.purgeFull
    ∧ (checks1to4 s).1.mail.binWaitArm = s.mail.binWaitArm ∧ (checks1to4 s).1.mail.waitingOpen = s.mail.waitingOpen
    ∧ (checks1to4 s).1.mail.nextId = s.mail.nextId ∧ (checks1to4 s).1.launch = s.launch
    ∧ (checks1to4 s).1.track = s.track ∧ (checks1to4 s).1.exit = s.exit ∧ (checks1to4 s).1.retire = s.retire
    ∧ (checks1to4 s).1.jam = s.jam ∧ (checks1to4 s).1.mem = s.mem ∧ (checks1to4 s).1.ctl = s.ctl
    ∧ (checks1to4 s).1.config = s.config ∧ (checks1to4 s).1.pending = s.pending ∧ (checks1to4 s).1.out = s.out
    ∧ (checks1to4 s).1.freeIndex = s.freeIndex := by
  simp only [checks1to4]
  (repeat' split) <;> simp

@[simp] theorem countLaunch_frame (a0 : Nat) (s : State) : (countLaunch a0 s).transport = s.transport
    ∧ (countLaunch a0 s).clock = s.clock ∧ (countLaunch a0 s).fetch = s.fetch
    ∧ (countLaunch a0 s).mail.bins = s.mail.bins ∧ (countLaunch a0 s).mail.purgeCount = s.mail.purgeCount
    ∧ (countLaunch a0 s).mail.purgeFull = s.mail.purgeFull ∧ (countLaunch a0 s).mail.binWaitArm = s.mail.binWaitArm
    ∧ (countLaunch a0 s).mail.waitingOpen = s.mail.waitingOpen ∧ (countLaunch a0 s).mail.nextId = s.mail.nextId
    ∧ (countLaunch a0 s).launch = s.launch ∧ (countLaunch a0 s).track = s.track ∧ (countLaunch a0 s).exit = s.exit
    ∧ (countLaunch a0 s).retire = s.retire ∧ (countLaunch a0 s).jam = s.jam ∧ (countLaunch a0 s).mem = s.mem
    ∧ (countLaunch a0 s).ctl = s.ctl ∧ (countLaunch a0 s).config = s.config ∧ (countLaunch a0 s).pending = s.pending
    ∧ (countLaunch a0 s).out = s.out ∧ (countLaunch a0 s).freeIndex = s.freeIndex := by
  simp [countLaunch]

@[simp] theorem launchCandidate_frame (a0 : Installed) (a1 : State.Candidate) (a2 : Word) (s : State) :
    (launchCandidate a0 a1 a2 s).transport.count = s.transport.count
    ∧ (launchCandidate a0 a1 a2 s).transport.run = s.transport.run
    ∧ (launchCandidate a0 a1 a2 s).transport.state = s.transport.state
    ∧ (launchCandidate a0 a1 a2 s).transport.heldRunUp = s.transport.heldRunUp
    ∧ (launchCandidate a0 a1 a2 s).transport.sensors = s.transport.sensors
    ∧ (launchCandidate a0 a1 a2 s).transport.ref = s.transport.ref
    ∧ (launchCandidate a0 a1 a2 s).transport.below = s.transport.below
    ∧ (launchCandidate a0 a1 a2 s).transport.allInBand = s.transport.allInBand
    ∧ (launchCandidate a0 a1 a2 s).transport.runUpTimer = s.transport.runUpTimer
    ∧ (launchCandidate a0 a1 a2 s).transport.samplePeriod = s.transport.samplePeriod
    ∧ (launchCandidate a0 a1 a2 s).transport.speedDeviation = s.transport.speedDeviation
    ∧ (launchCandidate a0 a1 a2 s).clock.running = s.clock.running
    ∧ (launchCandidate a0 a1 a2 s).clock.pitch = s.clock.pitch
    ∧ (launchCandidate a0 a1 a2 s).clock.boundary = s.clock.boundary
    ∧ (launchCandidate a0 a1 a2 s).clock.loopUnusable = s.clock.loopUnusable
    ∧ (launchCandidate a0 a1 a2 s).fetch.pos = s.fetch.pos ∧ (launchCandidate a0 a1 a2 s).fetch.stack = s.fetch.stack
    ∧ (launchCandidate a0 a1 a2 s).fetch.outer = s.fetch.outer
    ∧ (launchCandidate a0 a1 a2 s).fetch.chain = s.fetch.chain
    ∧ (launchCandidate a0 a1 a2 s).fetch.resync = s.fetch.resync
    ∧ (launchCandidate a0 a1 a2 s).fetch.read = s.fetch.read
    ∧ (launchCandidate a0 a1 a2 s).fetch.rereadAsked = s.fetch.rereadAsked
    ∧ (launchCandidate a0 a1 a2 s).fetch.nextId = s.fetch.nextId
    ∧ (launchCandidate a0 a1 a2 s).mail.bins = s.mail.bins
    ∧ (launchCandidate a0 a1 a2 s).mail.purgeCount = s.mail.purgeCount
    ∧ (launchCandidate a0 a1 a2 s).mail.purgeFull = s.mail.purgeFull
    ∧ (launchCandidate a0 a1 a2 s).mail.waitingOpen = s.mail.waitingOpen
    ∧ (launchCandidate a0 a1 a2 s).mail.nextId = s.mail.nextId
    ∧ (launchCandidate a0 a1 a2 s).launch.candRead = s.launch.candRead
    ∧ (launchCandidate a0 a1 a2 s).launch.trays = s.launch.trays
    ∧ (launchCandidate a0 a1 a2 s).launch.wakeAsked = s.launch.wakeAsked
    ∧ (launchCandidate a0 a1 a2 s).track.queues = s.track.queues
    ∧ (launchCandidate a0 a1 a2 s).track.fifo = s.track.fifo
    ∧ (launchCandidate a0 a1 a2 s).track.tracking = s.track.tracking
    ∧ (launchCandidate a0 a1 a2 s).track.d1 = s.track.d1 ∧ (launchCandidate a0 a1 a2 s).exit = s.exit
    ∧ (launchCandidate a0 a1 a2 s).retire.step = s.retire.step
    ∧ (launchCandidate a0 a1 a2 s).retire.retired = s.retire.retired
    ∧ (launchCandidate a0 a1 a2 s).retire.stacked = s.retire.stacked
    ∧ (launchCandidate a0 a1 a2 s).retire.purged = s.retire.purged
    ∧ (launchCandidate a0 a1 a2 s).retire.lost = s.retire.lost
    ∧ (launchCandidate a0 a1 a2 s).retire.skipped = s.retire.skipped
    ∧ (launchCandidate a0 a1 a2 s).retire.batching = s.retire.batching ∧ (launchCandidate a0 a1 a2 s).jam = s.jam
    ∧ (launchCandidate a0 a1 a2 s).mem = s.mem ∧ (launchCandidate a0 a1 a2 s).ctl = s.ctl
    ∧ (launchCandidate a0 a1 a2 s).config = s.config ∧ (launchCandidate a0 a1 a2 s).pending = s.pending
    ∧ (launchCandidate a0 a1 a2 s).out = s.out ∧ (launchCandidate a0 a1 a2 s).freeIndex = s.freeIndex := by
  simp only [launchCandidate]
  (repeat' split) <;> simp

@[simp] theorem requestCandidateRead_frame (s : State) : (requestCandidateRead s).transport = s.transport
    ∧ (requestCandidateRead s).clock = s.clock ∧ (requestCandidateRead s).fetch = s.fetch
    ∧ (requestCandidateRead s).mail = s.mail ∧ (requestCandidateRead s).launch.schedule = s.launch.schedule
    ∧ (requestCandidateRead s).launch.candidate = s.launch.candidate
    ∧ (requestCandidateRead s).launch.emptyCount = s.launch.emptyCount
    ∧ (requestCandidateRead s).launch.starvedArm = s.launch.starvedArm
    ∧ (requestCandidateRead s).launch.trayArm = s.launch.trayArm
    ∧ (requestCandidateRead s).launch.trays = s.launch.trays
    ∧ (requestCandidateRead s).launch.wakeAsked = s.launch.wakeAsked ∧ (requestCandidateRead s).track = s.track
    ∧ (requestCandidateRead s).exit = s.exit ∧ (requestCandidateRead s).retire = s.retire
    ∧ (requestCandidateRead s).jam = s.jam ∧ (requestCandidateRead s).mem.windowLength = s.mem.windowLength
    ∧ (requestCandidateRead s).mem.queue = s.mem.queue ∧ (requestCandidateRead s).mem.held = s.mem.held
    ∧ (requestCandidateRead s).mem.bus = s.mem.bus ∧ (requestCandidateRead s).ctl = s.ctl
    ∧ (requestCandidateRead s).config = s.config ∧ (requestCandidateRead s).pending = s.pending
    ∧ (requestCandidateRead s).out = s.out ∧ (requestCandidateRead s).freeIndex = s.freeIndex := by
  simp only [requestCandidateRead]
  (repeat' split) <;> simp

@[simp] theorem skipAttention_frame (a0 : SkipReason) (s : State) : (skipAttention a0 s).transport = s.transport
    ∧ (skipAttention a0 s).clock = s.clock ∧ (skipAttention a0 s).fetch = s.fetch
    ∧ (skipAttention a0 s).mail.table = s.mail.table ∧ (skipAttention a0 s).mail.bins = s.mail.bins
    ∧ (skipAttention a0 s).mail.purgeCount = s.mail.purgeCount
    ∧ (skipAttention a0 s).mail.purgeFull = s.mail.purgeFull
    ∧ (skipAttention a0 s).mail.waitingOpen = s.mail.waitingOpen ∧ (skipAttention a0 s).mail.nextId = s.mail.nextId
    ∧ (skipAttention a0 s).launch.schedule = s.launch.schedule
    ∧ (skipAttention a0 s).launch.candidate = s.launch.candidate
    ∧ (skipAttention a0 s).launch.candRead = s.launch.candRead
    ∧ (skipAttention a0 s).launch.emptyCount = s.launch.emptyCount
    ∧ (skipAttention a0 s).launch.trays = s.launch.trays ∧ (skipAttention a0 s).launch.wakeAsked = s.launch.wakeAsked
    ∧ (skipAttention a0 s).track = s.track ∧ (skipAttention a0 s).exit = s.exit
    ∧ (skipAttention a0 s).retire = s.retire ∧ (skipAttention a0 s).jam = s.jam ∧ (skipAttention a0 s).mem = s.mem
    ∧ (skipAttention a0 s).ctl.area = s.ctl.area ∧ (skipAttention a0 s).ctl.state = s.ctl.state
    ∧ (skipAttention a0 s).ctl.cmd = s.ctl.cmd ∧ (skipAttention a0 s).ctl.lastCommand = s.ctl.lastCommand
    ∧ (skipAttention a0 s).ctl.lastOutcome = s.ctl.lastOutcome
    ∧ (skipAttention a0 s).ctl.validation = s.ctl.validation ∧ (skipAttention a0 s).ctl.lastSkip = s.ctl.lastSkip
    ∧ (skipAttention a0 s).ctl.amask = s.ctl.amask ∧ (skipAttention a0 s).ctl.pauseRec = s.ctl.pauseRec
    ∧ (skipAttention a0 s).config = s.config ∧ (skipAttention a0 s).pending = s.pending
    ∧ (skipAttention a0 s).out = s.out ∧ (skipAttention a0 s).freeIndex = s.freeIndex := by
  simp only [skipAttention]
  (repeat' split) <;> simp

@[simp] theorem skipRequests_frame (a0 : SkipReason) (s : State) : (skipRequests a0 s).transport = s.transport
    ∧ (skipRequests a0 s).clock = s.clock ∧ (skipRequests a0 s).fetch.pos = s.fetch.pos
    ∧ (skipRequests a0 s).fetch.window = s.fetch.window ∧ (skipRequests a0 s).fetch.stack = s.fetch.stack
    ∧ (skipRequests a0 s).fetch.outer = s.fetch.outer ∧ (skipRequests a0 s).fetch.chain = s.fetch.chain
    ∧ (skipRequests a0 s).fetch.resync = s.fetch.resync ∧ (skipRequests a0 s).fetch.read = s.fetch.read
    ∧ (skipRequests a0 s).fetch.nextId = s.fetch.nextId ∧ (skipRequests a0 s).mail = s.mail
    ∧ (skipRequests a0 s).launch.schedule = s.launch.schedule
    ∧ (skipRequests a0 s).launch.candidate = s.launch.candidate
    ∧ (skipRequests a0 s).launch.emptyCount = s.launch.emptyCount
    ∧ (skipRequests a0 s).launch.starvedArm = s.launch.starvedArm
    ∧ (skipRequests a0 s).launch.trayArm = s.launch.trayArm ∧ (skipRequests a0 s).launch.trays = s.launch.trays
    ∧ (skipRequests a0 s).launch.wakeAsked = s.launch.wakeAsked ∧ (skipRequests a0 s).track = s.track
    ∧ (skipRequests a0 s).exit = s.exit ∧ (skipRequests a0 s).retire = s.retire ∧ (skipRequests a0 s).jam = s.jam
    ∧ (skipRequests a0 s).mem.windowLength = s.mem.windowLength ∧ (skipRequests a0 s).mem.queue = s.mem.queue
    ∧ (skipRequests a0 s).mem.held = s.mem.held ∧ (skipRequests a0 s).mem.bus = s.mem.bus
    ∧ (skipRequests a0 s).ctl = s.ctl ∧ (skipRequests a0 s).config = s.config
    ∧ (skipRequests a0 s).pending = s.pending ∧ (skipRequests a0 s).out = s.out
    ∧ (skipRequests a0 s).freeIndex = s.freeIndex := by
  simp only [skipRequests]
  (repeat' split) <;> simp

@[simp] theorem closeFullWindow_frame (a0 : SkipReason) (s : State) : (closeFullWindow a0 s).transport = s.transport
    ∧ (closeFullWindow a0 s).clock = s.clock ∧ (closeFullWindow a0 s).fetch.pos = s.fetch.pos
    ∧ (closeFullWindow a0 s).fetch.stack = s.fetch.stack ∧ (closeFullWindow a0 s).fetch.outer = s.fetch.outer
    ∧ (closeFullWindow a0 s).fetch.chain = s.fetch.chain ∧ (closeFullWindow a0 s).fetch.resync = s.fetch.resync
    ∧ (closeFullWindow a0 s).fetch.read = s.fetch.read
    ∧ (closeFullWindow a0 s).fetch.rereadAsked = s.fetch.rereadAsked
    ∧ (closeFullWindow a0 s).fetch.nextId = s.fetch.nextId
    ∧ (closeFullWindow a0 s).mail.purgeCount = s.mail.purgeCount
    ∧ (closeFullWindow a0 s).mail.purgeFull = s.mail.purgeFull
    ∧ (closeFullWindow a0 s).mail.binWaitArm = s.mail.binWaitArm
    ∧ (closeFullWindow a0 s).mail.waitingOpen = s.mail.waitingOpen
    ∧ (closeFullWindow a0 s).mail.nextId = s.mail.nextId ∧ (closeFullWindow a0 s).launch.schedule = s.launch.schedule
    ∧ (closeFullWindow a0 s).launch.candRead = s.launch.candRead
    ∧ (closeFullWindow a0 s).launch.emptyCount = s.launch.emptyCount
    ∧ (closeFullWindow a0 s).launch.starvedArm = s.launch.starvedArm
    ∧ (closeFullWindow a0 s).launch.trayArm = s.launch.trayArm ∧ (closeFullWindow a0 s).launch.trays = s.launch.trays
    ∧ (closeFullWindow a0 s).launch.wakeAsked = s.launch.wakeAsked
    ∧ (closeFullWindow a0 s).track.queues = s.track.queues ∧ (closeFullWindow a0 s).track.fifo = s.track.fifo
    ∧ (closeFullWindow a0 s).track.tracking = s.track.tracking ∧ (closeFullWindow a0 s).track.d1 = s.track.d1
    ∧ (closeFullWindow a0 s).track.nextId = s.track.nextId ∧ (closeFullWindow a0 s).exit = s.exit
    ∧ (closeFullWindow a0 s).retire = s.retire ∧ (closeFullWindow a0 s).jam = s.jam
    ∧ (closeFullWindow a0 s).mem = s.mem ∧ (closeFullWindow a0 s).ctl = s.ctl
    ∧ (closeFullWindow a0 s).config = s.config ∧ (closeFullWindow a0 s).pending = s.pending
    ∧ (closeFullWindow a0 s).out = s.out ∧ (closeFullWindow a0 s).freeIndex = s.freeIndex := by
  simp only [closeFullWindow]
  (repeat' split) <;> simp

@[simp] theorem skip_frame (a0 : SkipReason) (s : State) : (skip a0 s).transport.count = s.transport.count
    ∧ (skip a0 s).transport.sensors = s.transport.sensors ∧ (skip a0 s).transport.ref = s.transport.ref
    ∧ (skip a0 s).transport.below = s.transport.below ∧ (skip a0 s).transport.allInBand = s.transport.allInBand
    ∧ (skip a0 s).transport.samplePeriod = s.transport.samplePeriod ∧ (skip a0 s).clock.pitch = s.clock.pitch
    ∧ (skip a0 s).clock.boundary = s.clock.boundary ∧ (skip a0 s).clock.ring = s.clock.ring
    ∧ (skip a0 s).clock.lastFinal = s.clock.lastFinal ∧ (skip a0 s).clock.loopUnusable = s.clock.loopUnusable
    ∧ (skip a0 s).fetch.pos = s.fetch.pos ∧ (skip a0 s).fetch.stack = s.fetch.stack
    ∧ (skip a0 s).fetch.outer = s.fetch.outer ∧ (skip a0 s).fetch.chain = s.fetch.chain
    ∧ (skip a0 s).fetch.resync = s.fetch.resync ∧ (skip a0 s).fetch.read = s.fetch.read
    ∧ (skip a0 s).fetch.nextId = s.fetch.nextId ∧ (skip a0 s).mail.purgeCount = s.mail.purgeCount
    ∧ (skip a0 s).mail.purgeFull = s.mail.purgeFull ∧ (skip a0 s).mail.waitingOpen = s.mail.waitingOpen
    ∧ (skip a0 s).mail.nextId = s.mail.nextId ∧ (skip a0 s).launch.schedule = s.launch.schedule
    ∧ (skip a0 s).launch.trays = s.launch.trays ∧ (skip a0 s).launch.wakeAsked = s.launch.wakeAsked
    ∧ (skip a0 s).track.queues = s.track.queues ∧ (skip a0 s).track.fifo = s.track.fifo
    ∧ (skip a0 s).track.d1 = s.track.d1
    ∧ (skip a0 s).track.nextId = s.track.nextId ∧ (skip a0 s).exit = s.exit ∧ (skip a0 s).retire.step = s.retire.step
    ∧ (skip a0 s).retire.retired = s.retire.retired ∧ (skip a0 s).retire.launched = s.retire.launched
    ∧ (skip a0 s).retire.stacked = s.retire.stacked ∧ (skip a0 s).retire.purged = s.retire.purged
    ∧ (skip a0 s).retire.lost = s.retire.lost ∧ (skip a0 s).retire.batching = s.retire.batching
    ∧ (skip a0 s).jam = s.jam ∧ (skip a0 s).mem.windowLength = s.mem.windowLength
    ∧ (skip a0 s).mem.queue = s.mem.queue ∧ (skip a0 s).mem.held = s.mem.held ∧ (skip a0 s).mem.bus = s.mem.bus
    ∧ (skip a0 s).ctl.area = s.ctl.area ∧ (skip a0 s).ctl.cmd = s.ctl.cmd
    ∧ (skip a0 s).ctl.lastCommand = s.ctl.lastCommand ∧ (skip a0 s).ctl.lastOutcome = s.ctl.lastOutcome
    ∧ (skip a0 s).ctl.validation = s.ctl.validation ∧ (skip a0 s).ctl.amask = s.ctl.amask
    ∧ (skip a0 s).ctl.pauseRec = s.ctl.pauseRec ∧ (skip a0 s).config = s.config ∧ (skip a0 s).pending = s.pending
    ∧ (skip a0 s).out = s.out ∧ (skip a0 s).freeIndex = s.freeIndex := by
  simp [skip]

@[simp] theorem issuePick_frame (a0 : Nat) (a1 : PerSection Pos) (s : State) :
    (issuePick a0 a1 s).transport.count = s.transport.count
    ∧ (issuePick a0 a1 s).transport.run = s.transport.run ∧ (issuePick a0 a1 s).transport.state = s.transport.state
    ∧ (issuePick a0 a1 s).transport.heldRunUp = s.transport.heldRunUp
    ∧ (issuePick a0 a1 s).transport.sensors = s.transport.sensors
    ∧ (issuePick a0 a1 s).transport.ref = s.transport.ref ∧ (issuePick a0 a1 s).transport.below = s.transport.below
    ∧ (issuePick a0 a1 s).transport.allInBand = s.transport.allInBand
    ∧ (issuePick a0 a1 s).transport.runUpTimer = s.transport.runUpTimer
    ∧ (issuePick a0 a1 s).transport.samplePeriod = s.transport.samplePeriod
    ∧ (issuePick a0 a1 s).transport.speedDeviation = s.transport.speedDeviation ∧ (issuePick a0 a1 s).clock = s.clock
    ∧ (issuePick a0 a1 s).fetch = s.fetch ∧ (issuePick a0 a1 s).mail = s.mail
    ∧ (issuePick a0 a1 s).launch.candidate = s.launch.candidate
    ∧ (issuePick a0 a1 s).launch.candRead = s.launch.candRead
    ∧ (issuePick a0 a1 s).launch.emptyCount = s.launch.emptyCount
    ∧ (issuePick a0 a1 s).launch.starvedArm = s.launch.starvedArm
    ∧ (issuePick a0 a1 s).launch.trayArm = s.launch.trayArm ∧ (issuePick a0 a1 s).launch.trays = s.launch.trays
    ∧ (issuePick a0 a1 s).launch.wakeAsked = s.launch.wakeAsked ∧ (issuePick a0 a1 s).track.fifo = s.track.fifo
    ∧ (issuePick a0 a1 s).track.tracking = s.track.tracking ∧ (issuePick a0 a1 s).track.d1 = s.track.d1
    ∧ (issuePick a0 a1 s).track.nextId = s.track.nextId ∧ (issuePick a0 a1 s).exit = s.exit
    ∧ (issuePick a0 a1 s).retire = s.retire ∧ (issuePick a0 a1 s).jam = s.jam ∧ (issuePick a0 a1 s).mem = s.mem
    ∧ (issuePick a0 a1 s).ctl = s.ctl ∧ (issuePick a0 a1 s).config = s.config
    ∧ (issuePick a0 a1 s).pending = s.pending ∧ (issuePick a0 a1 s).freeIndex = s.freeIndex := by
  simp only [issuePick]
  (repeat' split) <;> simp

@[simp] theorem uncountLaunch_frame (a0 : Nat) (s : State) : (uncountLaunch a0 s).transport = s.transport
    ∧ (uncountLaunch a0 s).clock = s.clock ∧ (uncountLaunch a0 s).fetch = s.fetch
    ∧ (uncountLaunch a0 s).mail.bins = s.mail.bins ∧ (uncountLaunch a0 s).mail.purgeCount = s.mail.purgeCount
    ∧ (uncountLaunch a0 s).mail.purgeFull = s.mail.purgeFull
    ∧ (uncountLaunch a0 s).mail.binWaitArm = s.mail.binWaitArm
    ∧ (uncountLaunch a0 s).mail.waitingOpen = s.mail.waitingOpen ∧ (uncountLaunch a0 s).mail.nextId = s.mail.nextId
    ∧ (uncountLaunch a0 s).launch = s.launch ∧ (uncountLaunch a0 s).track = s.track
    ∧ (uncountLaunch a0 s).exit = s.exit ∧ (uncountLaunch a0 s).retire = s.retire ∧ (uncountLaunch a0 s).jam = s.jam
    ∧ (uncountLaunch a0 s).mem = s.mem ∧ (uncountLaunch a0 s).ctl = s.ctl ∧ (uncountLaunch a0 s).config = s.config
    ∧ (uncountLaunch a0 s).pending = s.pending ∧ (uncountLaunch a0 s).out = s.out
    ∧ (uncountLaunch a0 s).freeIndex = s.freeIndex := by
  simp [uncountLaunch]

@[simp] theorem dropPick_frame (s : State) (a1 : Pick) : (dropPick s a1).transport.count = s.transport.count
    ∧ (dropPick s a1).transport.run = s.transport.run ∧ (dropPick s a1).transport.state = s.transport.state
    ∧ (dropPick s a1).transport.heldRunUp = s.transport.heldRunUp
    ∧ (dropPick s a1).transport.sensors = s.transport.sensors ∧ (dropPick s a1).transport.ref = s.transport.ref
    ∧ (dropPick s a1).transport.below = s.transport.below
    ∧ (dropPick s a1).transport.allInBand = s.transport.allInBand
    ∧ (dropPick s a1).transport.runUpTimer = s.transport.runUpTimer
    ∧ (dropPick s a1).transport.samplePeriod = s.transport.samplePeriod
    ∧ (dropPick s a1).transport.speedDeviation = s.transport.speedDeviation
    ∧ (dropPick s a1).clock.running = s.clock.running ∧ (dropPick s a1).clock.pitch = s.clock.pitch
    ∧ (dropPick s a1).clock.boundary = s.clock.boundary ∧ (dropPick s a1).clock.lastFinal = s.clock.lastFinal
    ∧ (dropPick s a1).clock.loopUnusable = s.clock.loopUnusable ∧ (dropPick s a1).fetch.pos = s.fetch.pos
    ∧ (dropPick s a1).fetch.stack = s.fetch.stack ∧ (dropPick s a1).fetch.outer = s.fetch.outer
    ∧ (dropPick s a1).fetch.chain = s.fetch.chain ∧ (dropPick s a1).fetch.resync = s.fetch.resync
    ∧ (dropPick s a1).fetch.read = s.fetch.read ∧ (dropPick s a1).fetch.rereadAsked = s.fetch.rereadAsked
    ∧ (dropPick s a1).fetch.nextId = s.fetch.nextId ∧ (dropPick s a1).mail.bins = s.mail.bins
    ∧ (dropPick s a1).mail.purgeCount = s.mail.purgeCount ∧ (dropPick s a1).mail.purgeFull = s.mail.purgeFull
    ∧ (dropPick s a1).mail.binWaitArm = s.mail.binWaitArm ∧ (dropPick s a1).mail.waitingOpen = s.mail.waitingOpen
    ∧ (dropPick s a1).mail.nextId = s.mail.nextId ∧ (dropPick s a1).launch = s.launch
    ∧ (dropPick s a1).track.tracking = s.track.tracking ∧ (dropPick s a1).track.d1 = s.track.d1
    ∧ (dropPick s a1).track.nextId = s.track.nextId ∧ (dropPick s a1).exit = s.exit
    ∧ (dropPick s a1).retire.step = s.retire.step ∧ (dropPick s a1).retire.retired = s.retire.retired
    ∧ (dropPick s a1).retire.stacked = s.retire.stacked ∧ (dropPick s a1).retire.purged = s.retire.purged
    ∧ (dropPick s a1).retire.lost = s.retire.lost ∧ (dropPick s a1).retire.skipped = s.retire.skipped
    ∧ (dropPick s a1).retire.batching = s.retire.batching ∧ (dropPick s a1).jam = s.jam ∧ (dropPick s a1).mem = s.mem
    ∧ (dropPick s a1).ctl = s.ctl ∧ (dropPick s a1).config = s.config ∧ (dropPick s a1).pending = s.pending
    ∧ (dropPick s a1).out = s.out ∧ (dropPick s a1).freeIndex = s.freeIndex := by
  simp only [dropPick]
  (repeat' split) <;> simp

@[simp] theorem dropPicks_frame (s : State) : (dropPicks s).transport.count = s.transport.count
    ∧ (dropPicks s).transport.run = s.transport.run ∧ (dropPicks s).transport.state = s.transport.state
    ∧ (dropPicks s).transport.heldRunUp = s.transport.heldRunUp
    ∧ (dropPicks s).transport.sensors = s.transport.sensors ∧ (dropPicks s).transport.ref = s.transport.ref
    ∧ (dropPicks s).transport.below = s.transport.below ∧ (dropPicks s).transport.allInBand = s.transport.allInBand
    ∧ (dropPicks s).transport.runUpTimer = s.transport.runUpTimer
    ∧ (dropPicks s).transport.samplePeriod = s.transport.samplePeriod
    ∧ (dropPicks s).transport.speedDeviation = s.transport.speedDeviation
    ∧ (dropPicks s).clock.running = s.clock.running ∧ (dropPicks s).clock.pitch = s.clock.pitch
    ∧ (dropPicks s).clock.boundary = s.clock.boundary ∧ (dropPicks s).clock.lastFinal = s.clock.lastFinal
    ∧ (dropPicks s).clock.loopUnusable = s.clock.loopUnusable ∧ (dropPicks s).fetch.pos = s.fetch.pos
    ∧ (dropPicks s).fetch.stack = s.fetch.stack ∧ (dropPicks s).fetch.outer = s.fetch.outer
    ∧ (dropPicks s).fetch.chain = s.fetch.chain ∧ (dropPicks s).fetch.resync = s.fetch.resync
    ∧ (dropPicks s).fetch.read = s.fetch.read ∧ (dropPicks s).fetch.rereadAsked = s.fetch.rereadAsked
    ∧ (dropPicks s).fetch.nextId = s.fetch.nextId ∧ (dropPicks s).mail.bins = s.mail.bins
    ∧ (dropPicks s).mail.purgeCount = s.mail.purgeCount ∧ (dropPicks s).mail.purgeFull = s.mail.purgeFull
    ∧ (dropPicks s).mail.binWaitArm = s.mail.binWaitArm ∧ (dropPicks s).mail.waitingOpen = s.mail.waitingOpen
    ∧ (dropPicks s).mail.nextId = s.mail.nextId ∧ (dropPicks s).launch.candidate = s.launch.candidate
    ∧ (dropPicks s).launch.candRead = s.launch.candRead ∧ (dropPicks s).launch.emptyCount = s.launch.emptyCount
    ∧ (dropPicks s).launch.starvedArm = s.launch.starvedArm ∧ (dropPicks s).launch.trayArm = s.launch.trayArm
    ∧ (dropPicks s).launch.trays = s.launch.trays ∧ (dropPicks s).launch.wakeAsked = s.launch.wakeAsked
    ∧ (dropPicks s).track.tracking = s.track.tracking ∧ (dropPicks s).track.d1 = s.track.d1
    ∧ (dropPicks s).track.nextId = s.track.nextId ∧ (dropPicks s).exit = s.exit
    ∧ (dropPicks s).retire.step = s.retire.step ∧ (dropPicks s).retire.retired = s.retire.retired
    ∧ (dropPicks s).retire.stacked = s.retire.stacked ∧ (dropPicks s).retire.purged = s.retire.purged
    ∧ (dropPicks s).retire.lost = s.retire.lost ∧ (dropPicks s).retire.skipped = s.retire.skipped
    ∧ (dropPicks s).retire.batching = s.retire.batching ∧ (dropPicks s).jam = s.jam ∧ (dropPicks s).mem = s.mem
    ∧ (dropPicks s).ctl = s.ctl ∧ (dropPicks s).config = s.config ∧ (dropPicks s).pending = s.pending
    ∧ (dropPicks s).out = s.out ∧ (dropPicks s).freeIndex = s.freeIndex := by
  simp [dropPicks]

@[simp] theorem freeze_frame (a0 : Nat) (s : State) : (freeze a0 s).transport.count = s.transport.count
    ∧ (freeze a0 s).transport.run = s.transport.run ∧ (freeze a0 s).transport.state = s.transport.state
    ∧ (freeze a0 s).transport.heldRunUp = s.transport.heldRunUp
    ∧ (freeze a0 s).transport.sensors = s.transport.sensors ∧ (freeze a0 s).transport.ref = s.transport.ref
    ∧ (freeze a0 s).transport.below = s.transport.below ∧ (freeze a0 s).transport.allInBand = s.transport.allInBand
    ∧ (freeze a0 s).transport.runUpTimer = s.transport.runUpTimer
    ∧ (freeze a0 s).transport.samplePeriod = s.transport.samplePeriod
    ∧ (freeze a0 s).transport.speedDeviation = s.transport.speedDeviation ∧ (freeze a0 s).clock = s.clock
    ∧ (freeze a0 s).fetch = s.fetch ∧ (freeze a0 s).mail = s.mail ∧ (freeze a0 s).launch = s.launch
    ∧ (freeze a0 s).track.queues = s.track.queues ∧ (freeze a0 s).track.fifo = s.track.fifo
    ∧ (freeze a0 s).track.tracking = s.track.tracking ∧ (freeze a0 s).track.d1 = s.track.d1
    ∧ (freeze a0 s).track.nextId = s.track.nextId ∧ (freeze a0 s).exit = s.exit ∧ (freeze a0 s).retire = s.retire
    ∧ (freeze a0 s).jam = s.jam ∧ (freeze a0 s).mem = s.mem ∧ (freeze a0 s).ctl = s.ctl
    ∧ (freeze a0 s).config = s.config ∧ (freeze a0 s).pending = s.pending ∧ (freeze a0 s).out = s.out
    ∧ (freeze a0 s).freeIndex = s.freeIndex := by
  simp [freeze]

@[simp] theorem setInterrupted_frame (s : State) : (setInterrupted s).transport = s.transport
    ∧ (setInterrupted s).clock = s.clock ∧ (setInterrupted s).fetch = s.fetch
    ∧ (setInterrupted s).mail.bins = s.mail.bins ∧ (setInterrupted s).mail.purgeCount = s.mail.purgeCount
    ∧ (setInterrupted s).mail.purgeFull = s.mail.purgeFull ∧ (setInterrupted s).mail.binWaitArm = s.mail.binWaitArm
    ∧ (setInterrupted s).mail.waitingOpen = s.mail.waitingOpen ∧ (setInterrupted s).mail.nextId = s.mail.nextId
    ∧ (setInterrupted s).launch = s.launch ∧ (setInterrupted s).track = s.track ∧ (setInterrupted s).exit = s.exit
    ∧ (setInterrupted s).retire = s.retire ∧ (setInterrupted s).jam = s.jam ∧ (setInterrupted s).mem = s.mem
    ∧ (setInterrupted s).ctl = s.ctl ∧ (setInterrupted s).config = s.config ∧ (setInterrupted s).pending = s.pending
    ∧ (setInterrupted s).out = s.out ∧ (setInterrupted s).freeIndex = s.freeIndex := by
  simp [setInterrupted]

@[simp] theorem markJam_frame (s : State) : (markJam s).transport = s.transport ∧ (markJam s).clock = s.clock
    ∧ (markJam s).fetch.pos = s.fetch.pos ∧ (markJam s).fetch.stack = s.fetch.stack
    ∧ (markJam s).fetch.outer = s.fetch.outer ∧ (markJam s).fetch.chain = s.fetch.chain
    ∧ (markJam s).fetch.resync = s.fetch.resync ∧ (markJam s).fetch.read = s.fetch.read
    ∧ (markJam s).fetch.rereadAsked = s.fetch.rereadAsked ∧ (markJam s).fetch.nextId = s.fetch.nextId
    ∧ (markJam s).mail.purgeCount = s.mail.purgeCount ∧ (markJam s).mail.purgeFull = s.mail.purgeFull
    ∧ (markJam s).mail.binWaitArm = s.mail.binWaitArm ∧ (markJam s).mail.waitingOpen = s.mail.waitingOpen
    ∧ (markJam s).mail.nextId = s.mail.nextId ∧ (markJam s).launch.schedule = s.launch.schedule
    ∧ (markJam s).launch.candRead = s.launch.candRead ∧ (markJam s).launch.emptyCount = s.launch.emptyCount
    ∧ (markJam s).launch.starvedArm = s.launch.starvedArm ∧ (markJam s).launch.trayArm = s.launch.trayArm
    ∧ (markJam s).launch.trays = s.launch.trays ∧ (markJam s).launch.wakeAsked = s.launch.wakeAsked
    ∧ (markJam s).track.queues = s.track.queues ∧ (markJam s).track.fifo = s.track.fifo
    ∧ (markJam s).track.tracking = s.track.tracking ∧ (markJam s).track.d1 = s.track.d1
    ∧ (markJam s).track.nextId = s.track.nextId ∧ (markJam s).exit = s.exit ∧ (markJam s).retire = s.retire
    ∧ (markJam s).jam = s.jam ∧ (markJam s).mem = s.mem ∧ (markJam s).ctl = s.ctl ∧ (markJam s).config = s.config
    ∧ (markJam s).pending = s.pending ∧ (markJam s).out = s.out ∧ (markJam s).freeIndex = s.freeIndex := by
  simp [markJam]

@[simp] theorem assignResume_frame (a0 : State.ResumePoint) (s : State) : (assignResume a0 s).transport = s.transport
    ∧ (assignResume a0 s).clock = s.clock ∧ (assignResume a0 s).fetch = s.fetch ∧ (assignResume a0 s).mail = s.mail
    ∧ (assignResume a0 s).launch = s.launch ∧ (assignResume a0 s).track = s.track ∧ (assignResume a0 s).exit = s.exit
    ∧ (assignResume a0 s).retire = s.retire ∧ (assignResume a0 s).jam.seq = s.jam.seq
    ∧ (assignResume a0 s).jam.primary = s.jam.primary ∧ (assignResume a0 s).jam.secondary = s.jam.secondary
    ∧ (assignResume a0 s).jam.lastSecondary = s.jam.lastSecondary ∧ (assignResume a0 s).jam.stranded = s.jam.stranded
    ∧ (assignResume a0 s).jam.interrupted = s.jam.interrupted
    ∧ (assignResume a0 s).jam.recoveryPending = s.jam.recoveryPending
    ∧ (assignResume a0 s).jam.recordDue = s.jam.recordDue ∧ (assignResume a0 s).jam.recordIssued = s.jam.recordIssued
    ∧ (assignResume a0 s).mem = s.mem ∧ (assignResume a0 s).ctl = s.ctl ∧ (assignResume a0 s).config = s.config
    ∧ (assignResume a0 s).pending = s.pending ∧ (assignResume a0 s).out = s.out
    ∧ (assignResume a0 s).freeIndex = s.freeIndex := by
  simp only [assignResume]
  (repeat' split) <;> simp

@[simp] theorem discardTail_frame (a0 : State.ResumePoint) (s : State) : (discardTail a0 s).transport = s.transport
    ∧ (discardTail a0 s).clock = s.clock ∧ (discardTail a0 s).fetch.pos = s.fetch.pos
    ∧ (discardTail a0 s).fetch.stack = s.fetch.stack ∧ (discardTail a0 s).fetch.outer = s.fetch.outer
    ∧ (discardTail a0 s).fetch.chain = s.fetch.chain ∧ (discardTail a0 s).fetch.resync = s.fetch.resync
    ∧ (discardTail a0 s).fetch.read = s.fetch.read ∧ (discardTail a0 s).fetch.rereadAsked = s.fetch.rereadAsked
    ∧ (discardTail a0 s).fetch.nextId = s.fetch.nextId ∧ (discardTail a0 s).mail.bins = s.mail.bins
    ∧ (discardTail a0 s).mail.purgeCount = s.mail.purgeCount ∧ (discardTail a0 s).mail.purgeFull = s.mail.purgeFull
    ∧ (discardTail a0 s).mail.binWaitArm = s.mail.binWaitArm
    ∧ (discardTail a0 s).mail.waitingOpen = s.mail.waitingOpen ∧ (discardTail a0 s).mail.nextId = s.mail.nextId
    ∧ (discardTail a0 s).launch = s.launch ∧ (discardTail a0 s).track = s.track ∧ (discardTail a0 s).exit = s.exit
    ∧ (discardTail a0 s).retire = s.retire ∧ (discardTail a0 s).jam = s.jam ∧ (discardTail a0 s).mem = s.mem
    ∧ (discardTail a0 s).ctl = s.ctl ∧ (discardTail a0 s).config = s.config ∧ (discardTail a0 s).pending = s.pending
    ∧ (discardTail a0 s).out = s.out ∧ (discardTail a0 s).freeIndex = s.freeIndex := by
  simp only [discardTail]
  (repeat' split) <;> simp

@[simp] theorem clearFetch_frame (s : State) : (clearFetch s).transport = s.transport ∧ (clearFetch s).clock = s.clock
    ∧ (clearFetch s).fetch.window = s.fetch.window ∧ (clearFetch s).fetch.chain = s.fetch.chain
    ∧ (clearFetch s).fetch.resync = s.fetch.resync ∧ (clearFetch s).fetch.nextId = s.fetch.nextId
    ∧ (clearFetch s).mail.table = s.mail.table ∧ (clearFetch s).mail.bins = s.mail.bins
    ∧ (clearFetch s).mail.purgeCount = s.mail.purgeCount ∧ (clearFetch s).mail.purgeFull = s.mail.purgeFull
    ∧ (clearFetch s).mail.binWaitArm = s.mail.binWaitArm ∧ (clearFetch s).mail.nextId = s.mail.nextId
    ∧ (clearFetch s).launch.schedule = s.launch.schedule ∧ (clearFetch s).launch.candRead = s.launch.candRead
    ∧ (clearFetch s).launch.emptyCount = s.launch.emptyCount ∧ (clearFetch s).launch.starvedArm = s.launch.starvedArm
    ∧ (clearFetch s).launch.trayArm = s.launch.trayArm ∧ (clearFetch s).launch.trays = s.launch.trays
    ∧ (clearFetch s).launch.wakeAsked = s.launch.wakeAsked ∧ (clearFetch s).track = s.track
    ∧ (clearFetch s).exit = s.exit ∧ (clearFetch s).retire = s.retire ∧ (clearFetch s).jam = s.jam
    ∧ (clearFetch s).mem.windowLength = s.mem.windowLength ∧ (clearFetch s).mem.queue = s.mem.queue
    ∧ (clearFetch s).mem.waiting = s.mem.waiting ∧ (clearFetch s).mem.bus = s.mem.bus ∧ (clearFetch s).ctl = s.ctl
    ∧ (clearFetch s).config = s.config ∧ (clearFetch s).pending = s.pending ∧ (clearFetch s).out = s.out
    ∧ (clearFetch s).freeIndex = s.freeIndex := by
  simp [clearFetch]

@[simp] theorem settleOrders_frame (s : State) : (settleOrders s).transport = s.transport
    ∧ (settleOrders s).clock = s.clock ∧ (settleOrders s).fetch.pos = s.fetch.pos
    ∧ (settleOrders s).fetch.stack = s.fetch.stack ∧ (settleOrders s).fetch.outer = s.fetch.outer
    ∧ (settleOrders s).fetch.chain = s.fetch.chain ∧ (settleOrders s).fetch.resync = s.fetch.resync
    ∧ (settleOrders s).fetch.read = s.fetch.read ∧ (settleOrders s).fetch.rereadAsked = s.fetch.rereadAsked
    ∧ (settleOrders s).fetch.nextId = s.fetch.nextId ∧ (settleOrders s).mail = s.mail
    ∧ (settleOrders s).launch = s.launch ∧ (settleOrders s).track = s.track ∧ (settleOrders s).exit = s.exit
    ∧ (settleOrders s).retire = s.retire ∧ (settleOrders s).jam = s.jam ∧ (settleOrders s).mem = s.mem
    ∧ (settleOrders s).ctl = s.ctl ∧ (settleOrders s).config = s.config ∧ (settleOrders s).pending = s.pending
    ∧ (settleOrders s).out = s.out ∧ (settleOrders s).freeIndex = s.freeIndex := by
  simp [settleOrders]

@[simp] theorem closeMailpieces_frame (s : State) : (closeMailpieces s).transport = s.transport
    ∧ (closeMailpieces s).clock = s.clock ∧ (closeMailpieces s).fetch.pos = s.fetch.pos
    ∧ (closeMailpieces s).fetch.stack = s.fetch.stack ∧ (closeMailpieces s).fetch.outer = s.fetch.outer
    ∧ (closeMailpieces s).fetch.chain = s.fetch.chain ∧ (closeMailpieces s).fetch.resync = s.fetch.resync
    ∧ (closeMailpieces s).fetch.read = s.fetch.read ∧ (closeMailpieces s).fetch.rereadAsked = s.fetch.rereadAsked
    ∧ (closeMailpieces s).fetch.nextId = s.fetch.nextId ∧ (closeMailpieces s).mail.purgeCount = s.mail.purgeCount
    ∧ (closeMailpieces s).mail.purgeFull = s.mail.purgeFull ∧ (closeMailpieces s).mail.binWaitArm = s.mail.binWaitArm
    ∧ (closeMailpieces s).mail.waitingOpen = s.mail.waitingOpen ∧ (closeMailpieces s).mail.nextId = s.mail.nextId
    ∧ (closeMailpieces s).launch.schedule = s.launch.schedule
    ∧ (closeMailpieces s).launch.candRead = s.launch.candRead
    ∧ (closeMailpieces s).launch.emptyCount = s.launch.emptyCount
    ∧ (closeMailpieces s).launch.starvedArm = s.launch.starvedArm
    ∧ (closeMailpieces s).launch.trayArm = s.launch.trayArm ∧ (closeMailpieces s).launch.trays = s.launch.trays
    ∧ (closeMailpieces s).launch.wakeAsked = s.launch.wakeAsked ∧ (closeMailpieces s).track.queues = s.track.queues
    ∧ (closeMailpieces s).track.fifo = s.track.fifo ∧ (closeMailpieces s).track.tracking = s.track.tracking
    ∧ (closeMailpieces s).track.d1 = s.track.d1 ∧ (closeMailpieces s).track.nextId = s.track.nextId
    ∧ (closeMailpieces s).exit = s.exit ∧ (closeMailpieces s).retire = s.retire ∧ (closeMailpieces s).jam = s.jam
    ∧ (closeMailpieces s).mem = s.mem ∧ (closeMailpieces s).ctl = s.ctl ∧ (closeMailpieces s).config = s.config
    ∧ (closeMailpieces s).pending = s.pending ∧ (closeMailpieces s).out = s.out
    ∧ (closeMailpieces s).freeIndex = s.freeIndex := by
  simp [closeMailpieces]

@[simp] theorem issueStopRecord_frame (a0 : List Write) (s : State) : (issueStopRecord a0 s).transport = s.transport
    ∧ (issueStopRecord a0 s).clock = s.clock ∧ (issueStopRecord a0 s).fetch = s.fetch
    ∧ (issueStopRecord a0 s).mail = s.mail ∧ (issueStopRecord a0 s).launch = s.launch
    ∧ (issueStopRecord a0 s).track = s.track ∧ (issueStopRecord a0 s).exit = s.exit
    ∧ (issueStopRecord a0 s).retire = s.retire ∧ (issueStopRecord a0 s).jam.seq = s.jam.seq
    ∧ (issueStopRecord a0 s).jam.primary = s.jam.primary ∧ (issueStopRecord a0 s).jam.secondary = s.jam.secondary
    ∧ (issueStopRecord a0 s).jam.lastSecondary = s.jam.lastSecondary
    ∧ (issueStopRecord a0 s).jam.stranded = s.jam.stranded
    ∧ (issueStopRecord a0 s).jam.interrupted = s.jam.interrupted
    ∧ (issueStopRecord a0 s).jam.mainResume = s.jam.mainResume
    ∧ (issueStopRecord a0 s).jam.mainResync = s.jam.mainResync
    ∧ (issueStopRecord a0 s).jam.recoveryResume = s.jam.recoveryResume
    ∧ (issueStopRecord a0 s).jam.recoveryPending = s.jam.recoveryPending
    ∧ (issueStopRecord a0 s).jam.recordDue = s.jam.recordDue
    ∧ (issueStopRecord a0 s).mem.windowLength = s.mem.windowLength
    ∧ (issueStopRecord a0 s).mem.waiting = s.mem.waiting ∧ (issueStopRecord a0 s).mem.bus = s.mem.bus
    ∧ (issueStopRecord a0 s).ctl = s.ctl ∧ (issueStopRecord a0 s).config = s.config
    ∧ (issueStopRecord a0 s).pending = s.pending ∧ (issueStopRecord a0 s).out = s.out
    ∧ (issueStopRecord a0 s).freeIndex = s.freeIndex := by
  induction a0 generalizing s with
  | nil => simp [issueStopRecord]
  | cons w l ih => (simp only [issueStopRecord]) <;> simp [ih]

@[simp] theorem beginStopRecord_frame (s : State) : (beginStopRecord s).transport = s.transport
    ∧ (beginStopRecord s).clock = s.clock ∧ (beginStopRecord s).fetch = s.fetch ∧ (beginStopRecord s).mail = s.mail
    ∧ (beginStopRecord s).launch = s.launch ∧ (beginStopRecord s).track = s.track ∧ (beginStopRecord s).exit = s.exit
    ∧ (beginStopRecord s).retire = s.retire ∧ (beginStopRecord s).jam.seq = s.jam.seq
    ∧ (beginStopRecord s).jam.primary = s.jam.primary ∧ (beginStopRecord s).jam.secondary = s.jam.secondary
    ∧ (beginStopRecord s).jam.lastSecondary = s.jam.lastSecondary ∧ (beginStopRecord s).jam.stranded = s.jam.stranded
    ∧ (beginStopRecord s).jam.interrupted = s.jam.interrupted ∧ (beginStopRecord s).jam.mainResume = s.jam.mainResume
    ∧ (beginStopRecord s).jam.mainResync = s.jam.mainResync
    ∧ (beginStopRecord s).jam.recoveryResume = s.jam.recoveryResume
    ∧ (beginStopRecord s).jam.recoveryPending = s.jam.recoveryPending
    ∧ (beginStopRecord s).mem.windowLength = s.mem.windowLength ∧ (beginStopRecord s).mem.waiting = s.mem.waiting
    ∧ (beginStopRecord s).mem.bus = s.mem.bus ∧ (beginStopRecord s).ctl = s.ctl
    ∧ (beginStopRecord s).config = s.config ∧ (beginStopRecord s).pending = s.pending
    ∧ (beginStopRecord s).out = s.out ∧ (beginStopRecord s).freeIndex = s.freeIndex := by
  simp only [beginStopRecord]
  (repeat' split) <;> simp

@[simp] theorem recordPrimary_frame (a0 : Report) (s : State) : (recordPrimary a0 s).transport = s.transport
    ∧ (recordPrimary a0 s).clock = s.clock ∧ (recordPrimary a0 s).fetch = s.fetch ∧ (recordPrimary a0 s).mail = s.mail
    ∧ (recordPrimary a0 s).launch = s.launch ∧ (recordPrimary a0 s).track = s.track
    ∧ (recordPrimary a0 s).exit = s.exit ∧ (recordPrimary a0 s).retire = s.retire
    ∧ (recordPrimary a0 s).jam.mainResume = s.jam.mainResume ∧ (recordPrimary a0 s).jam.mainResync = s.jam.mainResync
    ∧ (recordPrimary a0 s).jam.recoveryResume = s.jam.recoveryResume
    ∧ (recordPrimary a0 s).jam.recoveryPending = s.jam.recoveryPending
    ∧ (recordPrimary a0 s).jam.recordDue = s.jam.recordDue ∧ (recordPrimary a0 s).mem = s.mem
    ∧ (recordPrimary a0 s).ctl = s.ctl ∧ (recordPrimary a0 s).config = s.config
    ∧ (recordPrimary a0 s).pending = s.pending ∧ (recordPrimary a0 s).out = s.out
    ∧ (recordPrimary a0 s).freeIndex = s.freeIndex := by
  simp [recordPrimary]

@[simp] theorem attributeMark_frame (a0 : MarkResult) (s : State) : (attributeMark a0 s).transport = s.transport
    ∧ (attributeMark a0 s).clock = s.clock ∧ (attributeMark a0 s).fetch = s.fetch ∧ (attributeMark a0 s).mail = s.mail
    ∧ (attributeMark a0 s).launch = s.launch ∧ (attributeMark a0 s).track.queues = s.track.queues
    ∧ (attributeMark a0 s).track.fifo = s.track.fifo ∧ (attributeMark a0 s).track.tracking = s.track.tracking
    ∧ (attributeMark a0 s).track.d1 = s.track.d1 ∧ (attributeMark a0 s).track.nextId = s.track.nextId
    ∧ (attributeMark a0 s).exit = s.exit ∧ (attributeMark a0 s).retire = s.retire ∧ (attributeMark a0 s).jam = s.jam
    ∧ (attributeMark a0 s).mem = s.mem ∧ (attributeMark a0 s).ctl = s.ctl ∧ (attributeMark a0 s).config = s.config
    ∧ (attributeMark a0 s).pending = s.pending ∧ (attributeMark a0 s).out = s.out
    ∧ (attributeMark a0 s).freeIndex = s.freeIndex := by
  simp only [attributeMark]
  (repeat' split) <;> simp

@[simp] theorem moveToDest_frame (a0 : Installed) (a1 : Sheet) (a2 : Pos) (a3 : Dest) (s : State) :
    (moveToDest a0 a1 a2 a3 s).transport.count = s.transport.count
    ∧ (moveToDest a0 a1 a2 a3 s).transport.run = s.transport.run
    ∧ (moveToDest a0 a1 a2 a3 s).transport.state = s.transport.state
    ∧ (moveToDest a0 a1 a2 a3 s).transport.heldRunUp = s.transport.heldRunUp
    ∧ (moveToDest a0 a1 a2 a3 s).transport.sensors = s.transport.sensors
    ∧ (moveToDest a0 a1 a2 a3 s).transport.ref = s.transport.ref
    ∧ (moveToDest a0 a1 a2 a3 s).transport.below = s.transport.below
    ∧ (moveToDest a0 a1 a2 a3 s).transport.allInBand = s.transport.allInBand
    ∧ (moveToDest a0 a1 a2 a3 s).transport.runUpTimer = s.transport.runUpTimer
    ∧ (moveToDest a0 a1 a2 a3 s).transport.samplePeriod = s.transport.samplePeriod
    ∧ (moveToDest a0 a1 a2 a3 s).transport.speedDeviation = s.transport.speedDeviation
    ∧ (moveToDest a0 a1 a2 a3 s).clock = s.clock ∧ (moveToDest a0 a1 a2 a3 s).fetch = s.fetch
    ∧ (moveToDest a0 a1 a2 a3 s).mail = s.mail ∧ (moveToDest a0 a1 a2 a3 s).launch = s.launch
    ∧ (moveToDest a0 a1 a2 a3 s).track.fifo = s.track.fifo
    ∧ (moveToDest a0 a1 a2 a3 s).track.tracking = s.track.tracking ∧ (moveToDest a0 a1 a2 a3 s).track.d1 = s.track.d1
    ∧ (moveToDest a0 a1 a2 a3 s).track.nextId = s.track.nextId ∧ (moveToDest a0 a1 a2 a3 s).exit = s.exit
    ∧ (moveToDest a0 a1 a2 a3 s).retire = s.retire ∧ (moveToDest a0 a1 a2 a3 s).jam = s.jam
    ∧ (moveToDest a0 a1 a2 a3 s).mem = s.mem ∧ (moveToDest a0 a1 a2 a3 s).ctl = s.ctl
    ∧ (moveToDest a0 a1 a2 a3 s).config = s.config ∧ (moveToDest a0 a1 a2 a3 s).pending = s.pending
    ∧ (moveToDest a0 a1 a2 a3 s).out = s.out ∧ (moveToDest a0 a1 a2 a3 s).freeIndex = s.freeIndex := by
  simp only [moveToDest]
  (repeat' split) <;> simp

@[simp] theorem tellCommit_frame (a0 : Sheet) (a1 : Dest) (a2 : Option Reason) (s : State) :
    (tellCommit a0 a1 a2 s).transport = s.transport
    ∧ (tellCommit a0 a1 a2 s).clock = s.clock ∧ (tellCommit a0 a1 a2 s).fetch.pos = s.fetch.pos
    ∧ (tellCommit a0 a1 a2 s).fetch.stack = s.fetch.stack ∧ (tellCommit a0 a1 a2 s).fetch.outer = s.fetch.outer
    ∧ (tellCommit a0 a1 a2 s).fetch.chain = s.fetch.chain ∧ (tellCommit a0 a1 a2 s).fetch.resync = s.fetch.resync
    ∧ (tellCommit a0 a1 a2 s).fetch.read = s.fetch.read
    ∧ (tellCommit a0 a1 a2 s).fetch.rereadAsked = s.fetch.rereadAsked
    ∧ (tellCommit a0 a1 a2 s).fetch.nextId = s.fetch.nextId
    ∧ (tellCommit a0 a1 a2 s).mail.purgeCount = s.mail.purgeCount
    ∧ (tellCommit a0 a1 a2 s).mail.purgeFull = s.mail.purgeFull
    ∧ (tellCommit a0 a1 a2 s).mail.binWaitArm = s.mail.binWaitArm
    ∧ (tellCommit a0 a1 a2 s).mail.waitingOpen = s.mail.waitingOpen
    ∧ (tellCommit a0 a1 a2 s).mail.nextId = s.mail.nextId
    ∧ (tellCommit a0 a1 a2 s).launch.schedule = s.launch.schedule
    ∧ (tellCommit a0 a1 a2 s).launch.candRead = s.launch.candRead
    ∧ (tellCommit a0 a1 a2 s).launch.emptyCount = s.launch.emptyCount
    ∧ (tellCommit a0 a1 a2 s).launch.starvedArm = s.launch.starvedArm
    ∧ (tellCommit a0 a1 a2 s).launch.trayArm = s.launch.trayArm
    ∧ (tellCommit a0 a1 a2 s).launch.trays = s.launch.trays
    ∧ (tellCommit a0 a1 a2 s).launch.wakeAsked = s.launch.wakeAsked
    ∧ (tellCommit a0 a1 a2 s).track.queues = s.track.queues ∧ (tellCommit a0 a1 a2 s).track.fifo = s.track.fifo
    ∧ (tellCommit a0 a1 a2 s).track.tracking = s.track.tracking ∧ (tellCommit a0 a1 a2 s).track.d1 = s.track.d1
    ∧ (tellCommit a0 a1 a2 s).track.nextId = s.track.nextId ∧ (tellCommit a0 a1 a2 s).exit = s.exit
    ∧ (tellCommit a0 a1 a2 s).retire = s.retire ∧ (tellCommit a0 a1 a2 s).jam = s.jam
    ∧ (tellCommit a0 a1 a2 s).mem = s.mem ∧ (tellCommit a0 a1 a2 s).ctl = s.ctl
    ∧ (tellCommit a0 a1 a2 s).config = s.config ∧ (tellCommit a0 a1 a2 s).pending = s.pending
    ∧ (tellCommit a0 a1 a2 s).out = s.out ∧ (tellCommit a0 a1 a2 s).freeIndex = s.freeIndex := by
  simp only [tellCommit]
  (repeat' split) <;> simp

@[simp] theorem commit_frame (a0 : Installed) (a1 : Sheet) (a2 : Pos) (s : State) :
    (commit a0 a1 a2 s).transport.count = s.transport.count
    ∧ (commit a0 a1 a2 s).transport.run = s.transport.run ∧ (commit a0 a1 a2 s).transport.state = s.transport.state
    ∧ (commit a0 a1 a2 s).transport.heldRunUp = s.transport.heldRunUp
    ∧ (commit a0 a1 a2 s).transport.sensors = s.transport.sensors
    ∧ (commit a0 a1 a2 s).transport.ref = s.transport.ref ∧ (commit a0 a1 a2 s).transport.below = s.transport.below
    ∧ (commit a0 a1 a2 s).transport.allInBand = s.transport.allInBand
    ∧ (commit a0 a1 a2 s).transport.runUpTimer = s.transport.runUpTimer
    ∧ (commit a0 a1 a2 s).transport.samplePeriod = s.transport.samplePeriod
    ∧ (commit a0 a1 a2 s).transport.speedDeviation = s.transport.speedDeviation ∧ (commit a0 a1 a2 s).clock = s.clock
    ∧ (commit a0 a1 a2 s).fetch.pos = s.fetch.pos ∧ (commit a0 a1 a2 s).fetch.stack = s.fetch.stack
    ∧ (commit a0 a1 a2 s).fetch.outer = s.fetch.outer ∧ (commit a0 a1 a2 s).fetch.chain = s.fetch.chain
    ∧ (commit a0 a1 a2 s).fetch.resync = s.fetch.resync ∧ (commit a0 a1 a2 s).fetch.read = s.fetch.read
    ∧ (commit a0 a1 a2 s).fetch.rereadAsked = s.fetch.rereadAsked ∧ (commit a0 a1 a2 s).fetch.nextId = s.fetch.nextId
    ∧ (commit a0 a1 a2 s).mail.purgeCount = s.mail.purgeCount ∧ (commit a0 a1 a2 s).mail.purgeFull = s.mail.purgeFull
    ∧ (commit a0 a1 a2 s).mail.binWaitArm = s.mail.binWaitArm
    ∧ (commit a0 a1 a2 s).mail.waitingOpen = s.mail.waitingOpen ∧ (commit a0 a1 a2 s).mail.nextId = s.mail.nextId
    ∧ (commit a0 a1 a2 s).launch.schedule = s.launch.schedule
    ∧ (commit a0 a1 a2 s).launch.candRead = s.launch.candRead
    ∧ (commit a0 a1 a2 s).launch.emptyCount = s.launch.emptyCount
    ∧ (commit a0 a1 a2 s).launch.starvedArm = s.launch.starvedArm
    ∧ (commit a0 a1 a2 s).launch.trayArm = s.launch.trayArm ∧ (commit a0 a1 a2 s).launch.trays = s.launch.trays
    ∧ (commit a0 a1 a2 s).launch.wakeAsked = s.launch.wakeAsked ∧ (commit a0 a1 a2 s).track.fifo = s.track.fifo
    ∧ (commit a0 a1 a2 s).track.tracking = s.track.tracking ∧ (commit a0 a1 a2 s).track.d1 = s.track.d1
    ∧ (commit a0 a1 a2 s).track.nextId = s.track.nextId ∧ (commit a0 a1 a2 s).retire = s.retire
    ∧ (commit a0 a1 a2 s).jam = s.jam ∧ (commit a0 a1 a2 s).mem = s.mem ∧ (commit a0 a1 a2 s).ctl = s.ctl
    ∧ (commit a0 a1 a2 s).config = s.config ∧ (commit a0 a1 a2 s).pending = s.pending
    ∧ (commit a0 a1 a2 s).out = s.out ∧ (commit a0 a1 a2 s).freeIndex = s.freeIndex := by
  simp [commit]

@[simp] theorem transferAtReg_frame (a0 : Sheet) (s : State) : (transferAtReg a0 s).transport = s.transport
    ∧ (transferAtReg a0 s).clock = s.clock ∧ (transferAtReg a0 s).fetch.pos = s.fetch.pos
    ∧ (transferAtReg a0 s).fetch.stack = s.fetch.stack ∧ (transferAtReg a0 s).fetch.outer = s.fetch.outer
    ∧ (transferAtReg a0 s).fetch.chain = s.fetch.chain ∧ (transferAtReg a0 s).fetch.resync = s.fetch.resync
    ∧ (transferAtReg a0 s).fetch.read = s.fetch.read ∧ (transferAtReg a0 s).fetch.rereadAsked = s.fetch.rereadAsked
    ∧ (transferAtReg a0 s).fetch.nextId = s.fetch.nextId ∧ (transferAtReg a0 s).mail.purgeCount = s.mail.purgeCount
    ∧ (transferAtReg a0 s).mail.purgeFull = s.mail.purgeFull
    ∧ (transferAtReg a0 s).mail.binWaitArm = s.mail.binWaitArm
    ∧ (transferAtReg a0 s).mail.waitingOpen = s.mail.waitingOpen ∧ (transferAtReg a0 s).mail.nextId = s.mail.nextId
    ∧ (transferAtReg a0 s).launch.schedule = s.launch.schedule
    ∧ (transferAtReg a0 s).launch.candRead = s.launch.candRead
    ∧ (transferAtReg a0 s).launch.emptyCount = s.launch.emptyCount
    ∧ (transferAtReg a0 s).launch.starvedArm = s.launch.starvedArm
    ∧ (transferAtReg a0 s).launch.trayArm = s.launch.trayArm ∧ (transferAtReg a0 s).launch.trays = s.launch.trays
    ∧ (transferAtReg a0 s).launch.wakeAsked = s.launch.wakeAsked ∧ (transferAtReg a0 s).track.queues = s.track.queues
    ∧ (transferAtReg a0 s).track.tracking = s.track.tracking ∧ (transferAtReg a0 s).track.d1 = s.track.d1
    ∧ (transferAtReg a0 s).track.nextId = s.track.nextId ∧ (transferAtReg a0 s).exit = s.exit
    ∧ (transferAtReg a0 s).retire = s.retire ∧ (transferAtReg a0 s).jam = s.jam ∧ (transferAtReg a0 s).mem = s.mem
    ∧ (transferAtReg a0 s).ctl = s.ctl ∧ (transferAtReg a0 s).config = s.config
    ∧ (transferAtReg a0 s).pending = s.pending ∧ (transferAtReg a0 s).freeIndex = s.freeIndex := by
  simp only [transferAtReg]
  (repeat' split) <;> simp

@[simp] theorem endSide2Check_frame (a0 : Sheet) (s : State) : (endSide2Check a0 s).transport = s.transport
    ∧ (endSide2Check a0 s).clock = s.clock ∧ (endSide2Check a0 s).fetch = s.fetch ∧ (endSide2Check a0 s).mail = s.mail
    ∧ (endSide2Check a0 s).launch = s.launch ∧ (endSide2Check a0 s).track.queues = s.track.queues
    ∧ (endSide2Check a0 s).track.fifo = s.track.fifo ∧ (endSide2Check a0 s).track.tracking = s.track.tracking
    ∧ (endSide2Check a0 s).track.d1 = s.track.d1 ∧ (endSide2Check a0 s).track.nextId = s.track.nextId
    ∧ (endSide2Check a0 s).exit = s.exit ∧ (endSide2Check a0 s).retire = s.retire ∧ (endSide2Check a0 s).jam = s.jam
    ∧ (endSide2Check a0 s).mem = s.mem ∧ (endSide2Check a0 s).ctl = s.ctl ∧ (endSide2Check a0 s).config = s.config
    ∧ (endSide2Check a0 s).pending = s.pending ∧ (endSide2Check a0 s).out = s.out
    ∧ (endSide2Check a0 s).freeIndex = s.freeIndex := by
  simp only [endSide2Check]
  (repeat' split) <;> simp

@[simp] theorem workAtFus_frame (a0 : Sheet) (s : State) : (workAtFus a0 s).transport = s.transport
    ∧ (workAtFus a0 s).clock = s.clock ∧ (workAtFus a0 s).fetch.pos = s.fetch.pos
    ∧ (workAtFus a0 s).fetch.stack = s.fetch.stack ∧ (workAtFus a0 s).fetch.outer = s.fetch.outer
    ∧ (workAtFus a0 s).fetch.chain = s.fetch.chain ∧ (workAtFus a0 s).fetch.resync = s.fetch.resync
    ∧ (workAtFus a0 s).fetch.read = s.fetch.read ∧ (workAtFus a0 s).fetch.rereadAsked = s.fetch.rereadAsked
    ∧ (workAtFus a0 s).fetch.nextId = s.fetch.nextId ∧ (workAtFus a0 s).mail.purgeCount = s.mail.purgeCount
    ∧ (workAtFus a0 s).mail.purgeFull = s.mail.purgeFull ∧ (workAtFus a0 s).mail.binWaitArm = s.mail.binWaitArm
    ∧ (workAtFus a0 s).mail.waitingOpen = s.mail.waitingOpen ∧ (workAtFus a0 s).mail.nextId = s.mail.nextId
    ∧ (workAtFus a0 s).launch.schedule = s.launch.schedule ∧ (workAtFus a0 s).launch.candRead = s.launch.candRead
    ∧ (workAtFus a0 s).launch.emptyCount = s.launch.emptyCount
    ∧ (workAtFus a0 s).launch.starvedArm = s.launch.starvedArm ∧ (workAtFus a0 s).launch.trayArm = s.launch.trayArm
    ∧ (workAtFus a0 s).launch.trays = s.launch.trays ∧ (workAtFus a0 s).launch.wakeAsked = s.launch.wakeAsked
    ∧ (workAtFus a0 s).track.queues = s.track.queues ∧ (workAtFus a0 s).track.tracking = s.track.tracking
    ∧ (workAtFus a0 s).track.nextId = s.track.nextId ∧ (workAtFus a0 s).exit = s.exit
    ∧ (workAtFus a0 s).retire = s.retire ∧ (workAtFus a0 s).jam = s.jam ∧ (workAtFus a0 s).mem = s.mem
    ∧ (workAtFus a0 s).ctl = s.ctl ∧ (workAtFus a0 s).config = s.config ∧ (workAtFus a0 s).pending = s.pending
    ∧ (workAtFus a0 s).out = s.out ∧ (workAtFus a0 s).freeIndex = s.freeIndex := by
  simp only [workAtFus]
  (repeat' split) <;> simp

@[simp] theorem workAtInv_frame (a0 : Sheet) (s : State) : (workAtInv a0 s).transport = s.transport
    ∧ (workAtInv a0 s).clock = s.clock ∧ (workAtInv a0 s).fetch = s.fetch ∧ (workAtInv a0 s).mail = s.mail
    ∧ (workAtInv a0 s).launch = s.launch ∧ (workAtInv a0 s).track.queues = s.track.queues
    ∧ (workAtInv a0 s).track.fifo = s.track.fifo ∧ (workAtInv a0 s).track.tracking = s.track.tracking
    ∧ (workAtInv a0 s).track.d1 = s.track.d1 ∧ (workAtInv a0 s).track.nextId = s.track.nextId
    ∧ (workAtInv a0 s).exit = s.exit ∧ (workAtInv a0 s).retire = s.retire ∧ (workAtInv a0 s).jam = s.jam
    ∧ (workAtInv a0 s).mem.windowLength = s.mem.windowLength ∧ (workAtInv a0 s).mem.queue = s.mem.queue
    ∧ (workAtInv a0 s).mem.held = s.mem.held ∧ (workAtInv a0 s).mem.bus = s.mem.bus ∧ (workAtInv a0 s).ctl = s.ctl
    ∧ (workAtInv a0 s).config = s.config ∧ (workAtInv a0 s).pending = s.pending ∧ (workAtInv a0 s).out = s.out
    ∧ (workAtInv a0 s).freeIndex = s.freeIndex := by
  simp only [workAtInv]
  (repeat' split) <;> simp

@[simp] theorem workAtMrg_frame (a0 : Sheet) (s : State) : (workAtMrg a0 s).transport = s.transport
    ∧ (workAtMrg a0 s).clock.running = s.clock.running ∧ (workAtMrg a0 s).clock.pitch = s.clock.pitch
    ∧ (workAtMrg a0 s).clock.boundary = s.clock.boundary ∧ (workAtMrg a0 s).clock.lastFinal = s.clock.lastFinal
    ∧ (workAtMrg a0 s).clock.loopUnusable = s.clock.loopUnusable ∧ (workAtMrg a0 s).fetch = s.fetch
    ∧ (workAtMrg a0 s).mail = s.mail ∧ (workAtMrg a0 s).launch = s.launch
    ∧ (workAtMrg a0 s).track.queues = s.track.queues ∧ (workAtMrg a0 s).track.fifo = s.track.fifo
    ∧ (workAtMrg a0 s).track.tracking = s.track.tracking ∧ (workAtMrg a0 s).track.d1 = s.track.d1
    ∧ (workAtMrg a0 s).track.nextId = s.track.nextId ∧ (workAtMrg a0 s).exit = s.exit
    ∧ (workAtMrg a0 s).retire = s.retire ∧ (workAtMrg a0 s).jam = s.jam ∧ (workAtMrg a0 s).mem = s.mem
    ∧ (workAtMrg a0 s).ctl = s.ctl ∧ (workAtMrg a0 s).config = s.config ∧ (workAtMrg a0 s).pending = s.pending
    ∧ (workAtMrg a0 s).out = s.out ∧ (workAtMrg a0 s).freeIndex = s.freeIndex := by
  simp only [workAtMrg]
  (repeat' split) <;> simp

@[simp] theorem checkpointWork_frame (a0 : Checkpoint) (a1 : Sheet) (s : State) :
    (checkpointWork a0 a1 s).transport = s.transport
    ∧ (checkpointWork a0 a1 s).clock.running = s.clock.running ∧ (checkpointWork a0 a1 s).clock.pitch = s.clock.pitch
    ∧ (checkpointWork a0 a1 s).clock.boundary = s.clock.boundary
    ∧ (checkpointWork a0 a1 s).clock.lastFinal = s.clock.lastFinal
    ∧ (checkpointWork a0 a1 s).clock.loopUnusable = s.clock.loopUnusable
    ∧ (checkpointWork a0 a1 s).fetch.pos = s.fetch.pos ∧ (checkpointWork a0 a1 s).fetch.stack = s.fetch.stack
    ∧ (checkpointWork a0 a1 s).fetch.outer = s.fetch.outer ∧ (checkpointWork a0 a1 s).fetch.chain = s.fetch.chain
    ∧ (checkpointWork a0 a1 s).fetch.resync = s.fetch.resync ∧ (checkpointWork a0 a1 s).fetch.read = s.fetch.read
    ∧ (checkpointWork a0 a1 s).fetch.rereadAsked = s.fetch.rereadAsked
    ∧ (checkpointWork a0 a1 s).fetch.nextId = s.fetch.nextId
    ∧ (checkpointWork a0 a1 s).mail.purgeCount = s.mail.purgeCount
    ∧ (checkpointWork a0 a1 s).mail.purgeFull = s.mail.purgeFull
    ∧ (checkpointWork a0 a1 s).mail.binWaitArm = s.mail.binWaitArm
    ∧ (checkpointWork a0 a1 s).mail.waitingOpen = s.mail.waitingOpen
    ∧ (checkpointWork a0 a1 s).mail.nextId = s.mail.nextId
    ∧ (checkpointWork a0 a1 s).launch.schedule = s.launch.schedule
    ∧ (checkpointWork a0 a1 s).launch.candRead = s.launch.candRead
    ∧ (checkpointWork a0 a1 s).launch.emptyCount = s.launch.emptyCount
    ∧ (checkpointWork a0 a1 s).launch.starvedArm = s.launch.starvedArm
    ∧ (checkpointWork a0 a1 s).launch.trayArm = s.launch.trayArm
    ∧ (checkpointWork a0 a1 s).launch.trays = s.launch.trays
    ∧ (checkpointWork a0 a1 s).launch.wakeAsked = s.launch.wakeAsked
    ∧ (checkpointWork a0 a1 s).track.queues = s.track.queues
    ∧ (checkpointWork a0 a1 s).track.tracking = s.track.tracking
    ∧ (checkpointWork a0 a1 s).track.nextId = s.track.nextId ∧ (checkpointWork a0 a1 s).exit = s.exit
    ∧ (checkpointWork a0 a1 s).retire = s.retire ∧ (checkpointWork a0 a1 s).jam = s.jam
    ∧ (checkpointWork a0 a1 s).mem.windowLength = s.mem.windowLength
    ∧ (checkpointWork a0 a1 s).mem.queue = s.mem.queue ∧ (checkpointWork a0 a1 s).mem.held = s.mem.held
    ∧ (checkpointWork a0 a1 s).mem.bus = s.mem.bus ∧ (checkpointWork a0 a1 s).ctl = s.ctl
    ∧ (checkpointWork a0 a1 s).config = s.config ∧ (checkpointWork a0 a1 s).pending = s.pending
    ∧ (checkpointWork a0 a1 s).freeIndex = s.freeIndex := by
  simp only [checkpointWork]
  (repeat' split) <;> simp

@[simp] theorem reanchor_frame (a0 : Installed) (a1 : Checkpoint) (a2 : Nat) (a3 : PerSection Pos) (s : State) :
    (reanchor a0 a1 a2 a3 s).transport.count = s.transport.count
    ∧ (reanchor a0 a1 a2 a3 s).transport.run = s.transport.run
    ∧ (reanchor a0 a1 a2 a3 s).transport.state = s.transport.state
    ∧ (reanchor a0 a1 a2 a3 s).transport.heldRunUp = s.transport.heldRunUp
    ∧ (reanchor a0 a1 a2 a3 s).transport.sensors = s.transport.sensors
    ∧ (reanchor a0 a1 a2 a3 s).transport.ref = s.transport.ref
    ∧ (reanchor a0 a1 a2 a3 s).transport.below = s.transport.below
    ∧ (reanchor a0 a1 a2 a3 s).transport.allInBand = s.transport.allInBand
    ∧ (reanchor a0 a1 a2 a3 s).transport.runUpTimer = s.transport.runUpTimer
    ∧ (reanchor a0 a1 a2 a3 s).transport.samplePeriod = s.transport.samplePeriod
    ∧ (reanchor a0 a1 a2 a3 s).transport.speedDeviation = s.transport.speedDeviation
    ∧ (reanchor a0 a1 a2 a3 s).clock = s.clock ∧ (reanchor a0 a1 a2 a3 s).fetch = s.fetch
    ∧ (reanchor a0 a1 a2 a3 s).mail = s.mail ∧ (reanchor a0 a1 a2 a3 s).launch = s.launch
    ∧ (reanchor a0 a1 a2 a3 s).track.fifo = s.track.fifo ∧ (reanchor a0 a1 a2 a3 s).track.tracking = s.track.tracking
    ∧ (reanchor a0 a1 a2 a3 s).track.d1 = s.track.d1 ∧ (reanchor a0 a1 a2 a3 s).track.nextId = s.track.nextId
    ∧ (reanchor a0 a1 a2 a3 s).exit = s.exit ∧ (reanchor a0 a1 a2 a3 s).retire = s.retire
    ∧ (reanchor a0 a1 a2 a3 s).jam = s.jam ∧ (reanchor a0 a1 a2 a3 s).mem = s.mem
    ∧ (reanchor a0 a1 a2 a3 s).ctl = s.ctl ∧ (reanchor a0 a1 a2 a3 s).config = s.config
    ∧ (reanchor a0 a1 a2 a3 s).pending = s.pending ∧ (reanchor a0 a1 a2 a3 s).out = s.out
    ∧ (reanchor a0 a1 a2 a3 s).freeIndex = s.freeIndex := by
  simp only [reanchor]
  (repeat' split) <;> simp

@[simp] theorem setSensor_frame (a0 : Checkpoint) (a1 : Bool) (s : State) :
    (setSensor a0 a1 s).transport.count = s.transport.count
    ∧ (setSensor a0 a1 s).transport.run = s.transport.run ∧ (setSensor a0 a1 s).transport.state = s.transport.state
    ∧ (setSensor a0 a1 s).transport.heldRunUp = s.transport.heldRunUp
    ∧ (setSensor a0 a1 s).transport.ref = s.transport.ref ∧ (setSensor a0 a1 s).transport.below = s.transport.below
    ∧ (setSensor a0 a1 s).transport.allInBand = s.transport.allInBand
    ∧ (setSensor a0 a1 s).transport.runUpTimer = s.transport.runUpTimer
    ∧ (setSensor a0 a1 s).transport.samplePeriod = s.transport.samplePeriod
    ∧ (setSensor a0 a1 s).transport.compares = s.transport.compares
    ∧ (setSensor a0 a1 s).transport.speedDeviation = s.transport.speedDeviation ∧ (setSensor a0 a1 s).clock = s.clock
    ∧ (setSensor a0 a1 s).fetch = s.fetch ∧ (setSensor a0 a1 s).mail = s.mail ∧ (setSensor a0 a1 s).launch = s.launch
    ∧ (setSensor a0 a1 s).track = s.track ∧ (setSensor a0 a1 s).exit = s.exit ∧ (setSensor a0 a1 s).retire = s.retire
    ∧ (setSensor a0 a1 s).jam = s.jam ∧ (setSensor a0 a1 s).mem = s.mem ∧ (setSensor a0 a1 s).ctl = s.ctl
    ∧ (setSensor a0 a1 s).config = s.config ∧ (setSensor a0 a1 s).pending = s.pending
    ∧ (setSensor a0 a1 s).out = s.out ∧ (setSensor a0 a1 s).freeIndex = s.freeIndex := by
  simp [setSensor]

@[simp] theorem stepCounter_frame (a0 : Section) (s : State) : (stepCounter a0 s).transport.run = s.transport.run
    ∧ (stepCounter a0 s).transport.state = s.transport.state
    ∧ (stepCounter a0 s).transport.heldRunUp = s.transport.heldRunUp
    ∧ (stepCounter a0 s).transport.sensors = s.transport.sensors ∧ (stepCounter a0 s).transport.ref = s.transport.ref
    ∧ (stepCounter a0 s).transport.below = s.transport.below
    ∧ (stepCounter a0 s).transport.allInBand = s.transport.allInBand
    ∧ (stepCounter a0 s).transport.runUpTimer = s.transport.runUpTimer
    ∧ (stepCounter a0 s).transport.samplePeriod = s.transport.samplePeriod
    ∧ (stepCounter a0 s).transport.speedDeviation = s.transport.speedDeviation ∧ (stepCounter a0 s).clock = s.clock
    ∧ (stepCounter a0 s).fetch = s.fetch ∧ (stepCounter a0 s).mail = s.mail ∧ (stepCounter a0 s).launch = s.launch
    ∧ (stepCounter a0 s).track = s.track ∧ (stepCounter a0 s).exit = s.exit ∧ (stepCounter a0 s).retire = s.retire
    ∧ (stepCounter a0 s).jam = s.jam ∧ (stepCounter a0 s).mem = s.mem ∧ (stepCounter a0 s).ctl = s.ctl
    ∧ (stepCounter a0 s).config = s.config ∧ (stepCounter a0 s).pending = s.pending ∧ (stepCounter a0 s).out = s.out
    ∧ (stepCounter a0 s).freeIndex = s.freeIndex := by
  simp [stepCounter]

@[simp] theorem sampleRunOut_frame (a0 : ConfigBlock) (s : State) :
    (sampleRunOut a0 s).transport.count = s.transport.count
    ∧ (sampleRunOut a0 s).transport.sensors = s.transport.sensors
    ∧ (sampleRunOut a0 s).transport.compares = s.transport.compares
    ∧ (sampleRunOut a0 s).transport.speedDeviation = s.transport.speedDeviation ∧ (sampleRunOut a0 s).clock = s.clock
    ∧ (sampleRunOut a0 s).fetch = s.fetch ∧ (sampleRunOut a0 s).mail.table = s.mail.table
    ∧ (sampleRunOut a0 s).mail.bins = s.mail.bins ∧ (sampleRunOut a0 s).mail.purgeCount = s.mail.purgeCount
    ∧ (sampleRunOut a0 s).mail.purgeFull = s.mail.purgeFull
    ∧ (sampleRunOut a0 s).mail.waitingOpen = s.mail.waitingOpen ∧ (sampleRunOut a0 s).mail.nextId = s.mail.nextId
    ∧ (sampleRunOut a0 s).launch.schedule = s.launch.schedule
    ∧ (sampleRunOut a0 s).launch.candidate = s.launch.candidate
    ∧ (sampleRunOut a0 s).launch.candRead = s.launch.candRead ∧ (sampleRunOut a0 s).launch.trays = s.launch.trays
    ∧ (sampleRunOut a0 s).launch.wakeAsked = s.launch.wakeAsked ∧ (sampleRunOut a0 s).track.sheets = s.track.sheets
    ∧ (sampleRunOut a0 s).track.queues = s.track.queues ∧ (sampleRunOut a0 s).track.fifo = s.track.fifo
    ∧ (sampleRunOut a0 s).track.d1 = s.track.d1 ∧ (sampleRunOut a0 s).track.nextId = s.track.nextId
    ∧ (sampleRunOut a0 s).exit = s.exit ∧ (sampleRunOut a0 s).retire = s.retire ∧ (sampleRunOut a0 s).jam = s.jam
    ∧ (sampleRunOut a0 s).mem = s.mem ∧ (sampleRunOut a0 s).ctl = s.ctl ∧ (sampleRunOut a0 s).config = s.config
    ∧ (sampleRunOut a0 s).pending = s.pending ∧ (sampleRunOut a0 s).out = s.out
    ∧ (sampleRunOut a0 s).freeIndex = s.freeIndex := by
  simp only [sampleRunOut]
  (repeat' split) <;> simp

@[simp] theorem answerDone_frame (s : State) : (answerDone s).transport = s.transport ∧ (answerDone s).clock = s.clock
    ∧ (answerDone s).fetch = s.fetch ∧ (answerDone s).mail = s.mail ∧ (answerDone s).launch = s.launch
    ∧ (answerDone s).track.queues = s.track.queues ∧ (answerDone s).track.tracking = s.track.tracking
    ∧ (answerDone s).track.d1 = s.track.d1 ∧ (answerDone s).track.nextId = s.track.nextId
    ∧ (answerDone s).exit = s.exit ∧ (answerDone s).retire = s.retire ∧ (answerDone s).jam = s.jam
    ∧ (answerDone s).mem = s.mem ∧ (answerDone s).ctl = s.ctl ∧ (answerDone s).config = s.config
    ∧ (answerDone s).pending = s.pending ∧ (answerDone s).out = s.out ∧ (answerDone s).freeIndex = s.freeIndex := by
  simp only [answerDone]
  (repeat' split) <;> simp

@[simp] theorem answerFault_frame (s : State) : (answerFault s).transport = s.transport
    ∧ (answerFault s).clock = s.clock ∧ (answerFault s).fetch.pos = s.fetch.pos
    ∧ (answerFault s).fetch.stack = s.fetch.stack ∧ (answerFault s).fetch.outer = s.fetch.outer
    ∧ (answerFault s).fetch.chain = s.fetch.chain ∧ (answerFault s).fetch.resync = s.fetch.resync
    ∧ (answerFault s).fetch.read = s.fetch.read ∧ (answerFault s).fetch.rereadAsked = s.fetch.rereadAsked
    ∧ (answerFault s).fetch.nextId = s.fetch.nextId ∧ (answerFault s).mail.purgeCount = s.mail.purgeCount
    ∧ (answerFault s).mail.purgeFull = s.mail.purgeFull ∧ (answerFault s).mail.binWaitArm = s.mail.binWaitArm
    ∧ (answerFault s).mail.waitingOpen = s.mail.waitingOpen ∧ (answerFault s).mail.nextId = s.mail.nextId
    ∧ (answerFault s).launch.schedule = s.launch.schedule ∧ (answerFault s).launch.candRead = s.launch.candRead
    ∧ (answerFault s).launch.emptyCount = s.launch.emptyCount
    ∧ (answerFault s).launch.starvedArm = s.launch.starvedArm ∧ (answerFault s).launch.trayArm = s.launch.trayArm
    ∧ (answerFault s).launch.trays = s.launch.trays ∧ (answerFault s).launch.wakeAsked = s.launch.wakeAsked
    ∧ (answerFault s).track.queues = s.track.queues ∧ (answerFault s).track.tracking = s.track.tracking
    ∧ (answerFault s).track.d1 = s.track.d1 ∧ (answerFault s).track.nextId = s.track.nextId
    ∧ (answerFault s).exit = s.exit ∧ (answerFault s).retire = s.retire ∧ (answerFault s).jam = s.jam
    ∧ (answerFault s).mem = s.mem ∧ (answerFault s).ctl = s.ctl ∧ (answerFault s).config = s.config
    ∧ (answerFault s).pending = s.pending ∧ (answerFault s).out = s.out
    ∧ (answerFault s).freeIndex = s.freeIndex := by
  simp only [answerFault]
  (repeat' split) <;> simp

@[simp] theorem grant_frame (s : State) : (grant s).transport = s.transport ∧ (grant s).clock = s.clock
    ∧ (grant s).fetch = s.fetch ∧ (grant s).mail = s.mail ∧ (grant s).launch = s.launch ∧ (grant s).track = s.track
    ∧ (grant s).exit = s.exit ∧ (grant s).retire = s.retire ∧ (grant s).jam = s.jam
    ∧ (grant s).mem.windowLength = s.mem.windowLength ∧ (grant s).mem.queue = s.mem.queue
    ∧ (grant s).mem.held = s.mem.held ∧ (grant s).ctl = s.ctl ∧ (grant s).config = s.config
    ∧ (grant s).pending = s.pending ∧ (grant s).out = s.out ∧ (grant s).freeIndex = s.freeIndex := by
  simp only [grant]
  (repeat' split) <;> simp

@[simp] theorem freeBus_frame (s : State) : (freeBus s).transport = s.transport ∧ (freeBus s).clock = s.clock
    ∧ (freeBus s).fetch = s.fetch ∧ (freeBus s).mail = s.mail ∧ (freeBus s).launch = s.launch
    ∧ (freeBus s).track = s.track ∧ (freeBus s).exit = s.exit ∧ (freeBus s).retire = s.retire
    ∧ (freeBus s).jam = s.jam ∧ (freeBus s).mem.windowLength = s.mem.windowLength
    ∧ (freeBus s).mem.queue = s.mem.queue ∧ (freeBus s).mem.held = s.mem.held
    ∧ (freeBus s).mem.waiting = s.mem.waiting ∧ (freeBus s).ctl = s.ctl ∧ (freeBus s).config = s.config
    ∧ (freeBus s).pending = s.pending ∧ (freeBus s).out = s.out ∧ (freeBus s).freeIndex = s.freeIndex := by
  simp [freeBus]

@[simp] theorem announceWrite_frame (a0 : WriteTag) (s : State) : (announceWrite a0 s).transport = s.transport
    ∧ (announceWrite a0 s).clock = s.clock ∧ (announceWrite a0 s).fetch = s.fetch ∧ (announceWrite a0 s).mail = s.mail
    ∧ (announceWrite a0 s).launch = s.launch ∧ (announceWrite a0 s).track = s.track
    ∧ (announceWrite a0 s).exit = s.exit ∧ (announceWrite a0 s).retire = s.retire ∧ (announceWrite a0 s).jam = s.jam
    ∧ (announceWrite a0 s).mem = s.mem ∧ (announceWrite a0 s).ctl.area = s.ctl.area
    ∧ (announceWrite a0 s).ctl.state = s.ctl.state ∧ (announceWrite a0 s).ctl.cmd = s.ctl.cmd
    ∧ (announceWrite a0 s).ctl.lastCommand = s.ctl.lastCommand
    ∧ (announceWrite a0 s).ctl.lastOutcome = s.ctl.lastOutcome
    ∧ (announceWrite a0 s).ctl.validation = s.ctl.validation ∧ (announceWrite a0 s).ctl.lastSkip = s.ctl.lastSkip
    ∧ (announceWrite a0 s).ctl.amask = s.ctl.amask ∧ (announceWrite a0 s).ctl.pauseRec = s.ctl.pauseRec
    ∧ (announceWrite a0 s).config = s.config ∧ (announceWrite a0 s).pending = s.pending
    ∧ (announceWrite a0 s).out = s.out ∧ (announceWrite a0 s).freeIndex = s.freeIndex := by
  simp only [announceWrite]
  (repeat' split) <;> simp

@[simp] theorem takeCandidateReady_frame (a0 : Word) (s : State) : (takeCandidateReady a0 s).transport = s.transport
    ∧ (takeCandidateReady a0 s).clock = s.clock ∧ (takeCandidateReady a0 s).fetch.pos = s.fetch.pos
    ∧ (takeCandidateReady a0 s).fetch.stack = s.fetch.stack ∧ (takeCandidateReady a0 s).fetch.outer = s.fetch.outer
    ∧ (takeCandidateReady a0 s).fetch.chain = s.fetch.chain ∧ (takeCandidateReady a0 s).fetch.resync = s.fetch.resync
    ∧ (takeCandidateReady a0 s).fetch.read = s.fetch.read
    ∧ (takeCandidateReady a0 s).fetch.rereadAsked = s.fetch.rereadAsked
    ∧ (takeCandidateReady a0 s).fetch.nextId = s.fetch.nextId ∧ (takeCandidateReady a0 s).mail = s.mail
    ∧ (takeCandidateReady a0 s).launch.schedule = s.launch.schedule
    ∧ (takeCandidateReady a0 s).launch.candidate = s.launch.candidate
    ∧ (takeCandidateReady a0 s).launch.emptyCount = s.launch.emptyCount
    ∧ (takeCandidateReady a0 s).launch.starvedArm = s.launch.starvedArm
    ∧ (takeCandidateReady a0 s).launch.trayArm = s.launch.trayArm
    ∧ (takeCandidateReady a0 s).launch.trays = s.launch.trays ∧ (takeCandidateReady a0 s).track = s.track
    ∧ (takeCandidateReady a0 s).exit = s.exit ∧ (takeCandidateReady a0 s).retire = s.retire
    ∧ (takeCandidateReady a0 s).jam = s.jam ∧ (takeCandidateReady a0 s).mem = s.mem
    ∧ (takeCandidateReady a0 s).ctl = s.ctl ∧ (takeCandidateReady a0 s).config = s.config
    ∧ (takeCandidateReady a0 s).pending = s.pending ∧ (takeCandidateReady a0 s).out = s.out
    ∧ (takeCandidateReady a0 s).freeIndex = s.freeIndex := by
  simp only [takeCandidateReady]
  (repeat' split) <;> simp

@[simp] theorem takeInvReady_frame (a0 : Nat) (a1 : Word) (s : State) : (takeInvReady a0 a1 s).transport = s.transport
    ∧ (takeInvReady a0 a1 s).clock = s.clock ∧ (takeInvReady a0 a1 s).fetch = s.fetch
    ∧ (takeInvReady a0 a1 s).mail = s.mail ∧ (takeInvReady a0 a1 s).launch = s.launch
    ∧ (takeInvReady a0 a1 s).track.queues = s.track.queues ∧ (takeInvReady a0 a1 s).track.fifo = s.track.fifo
    ∧ (takeInvReady a0 a1 s).track.tracking = s.track.tracking ∧ (takeInvReady a0 a1 s).track.d1 = s.track.d1
    ∧ (takeInvReady a0 a1 s).track.nextId = s.track.nextId ∧ (takeInvReady a0 a1 s).exit = s.exit
    ∧ (takeInvReady a0 a1 s).retire = s.retire ∧ (takeInvReady a0 a1 s).jam = s.jam
    ∧ (takeInvReady a0 a1 s).mem = s.mem ∧ (takeInvReady a0 a1 s).ctl = s.ctl
    ∧ (takeInvReady a0 a1 s).config = s.config ∧ (takeInvReady a0 a1 s).pending = s.pending
    ∧ (takeInvReady a0 a1 s).out = s.out ∧ (takeInvReady a0 a1 s).freeIndex = s.freeIndex := by
  simp [takeInvReady]

@[simp] theorem takeWindowLength_frame (a0 : Word) (s : State) : (takeWindowLength a0 s).transport = s.transport
    ∧ (takeWindowLength a0 s).clock = s.clock ∧ (takeWindowLength a0 s).fetch = s.fetch
    ∧ (takeWindowLength a0 s).mail = s.mail ∧ (takeWindowLength a0 s).launch = s.launch
    ∧ (takeWindowLength a0 s).track = s.track ∧ (takeWindowLength a0 s).exit = s.exit
    ∧ (takeWindowLength a0 s).retire = s.retire ∧ (takeWindowLength a0 s).jam = s.jam
    ∧ (takeWindowLength a0 s).mem.queue = s.mem.queue ∧ (takeWindowLength a0 s).mem.held = s.mem.held
    ∧ (takeWindowLength a0 s).mem.bus = s.mem.bus ∧ (takeWindowLength a0 s).ctl.area = s.ctl.area
    ∧ (takeWindowLength a0 s).ctl.state = s.ctl.state ∧ (takeWindowLength a0 s).ctl.lastCommand = s.ctl.lastCommand
    ∧ (takeWindowLength a0 s).ctl.lastOutcome = s.ctl.lastOutcome
    ∧ (takeWindowLength a0 s).ctl.validation = s.ctl.validation
    ∧ (takeWindowLength a0 s).ctl.lastSkip = s.ctl.lastSkip ∧ (takeWindowLength a0 s).ctl.attn = s.ctl.attn
    ∧ (takeWindowLength a0 s).ctl.amask = s.ctl.amask ∧ (takeWindowLength a0 s).ctl.pauseRec = s.ctl.pauseRec
    ∧ (takeWindowLength a0 s).config = s.config ∧ (takeWindowLength a0 s).pending = s.pending
    ∧ (takeWindowLength a0 s).out = s.out ∧ (takeWindowLength a0 s).freeIndex = s.freeIndex := by
  simp only [takeWindowLength]
  (repeat' split) <;> simp

@[simp] theorem endLoad_frame (a0 : Option Validation) (s : State) : (endLoad a0 s).transport = s.transport
    ∧ (endLoad a0 s).clock = s.clock ∧ (endLoad a0 s).fetch = s.fetch ∧ (endLoad a0 s).mail = s.mail
    ∧ (endLoad a0 s).launch = s.launch ∧ (endLoad a0 s).track = s.track ∧ (endLoad a0 s).exit = s.exit
    ∧ (endLoad a0 s).retire = s.retire ∧ (endLoad a0 s).jam = s.jam ∧ (endLoad a0 s).mem = s.mem
    ∧ (endLoad a0 s).ctl.area = s.ctl.area ∧ (endLoad a0 s).ctl.state = s.ctl.state
    ∧ (endLoad a0 s).ctl.lastSkip = s.ctl.lastSkip ∧ (endLoad a0 s).ctl.amask = s.ctl.amask
    ∧ (endLoad a0 s).ctl.pauseRec = s.ctl.pauseRec ∧ (endLoad a0 s).config = s.config
    ∧ (endLoad a0 s).pending = s.pending ∧ (endLoad a0 s).out = s.out ∧ (endLoad a0 s).freeIndex = s.freeIndex := by
  simp [endLoad]

@[simp] theorem takeConfigAddress_frame (a0 : Word) (s : State) : (takeConfigAddress a0 s).transport = s.transport
    ∧ (takeConfigAddress a0 s).clock = s.clock ∧ (takeConfigAddress a0 s).fetch = s.fetch
    ∧ (takeConfigAddress a0 s).mail = s.mail ∧ (takeConfigAddress a0 s).launch = s.launch
    ∧ (takeConfigAddress a0 s).track = s.track ∧ (takeConfigAddress a0 s).exit = s.exit
    ∧ (takeConfigAddress a0 s).retire = s.retire ∧ (takeConfigAddress a0 s).jam = s.jam
    ∧ (takeConfigAddress a0 s).mem.windowLength = s.mem.windowLength
    ∧ (takeConfigAddress a0 s).mem.queue = s.mem.queue ∧ (takeConfigAddress a0 s).mem.held = s.mem.held
    ∧ (takeConfigAddress a0 s).mem.bus = s.mem.bus ∧ (takeConfigAddress a0 s).ctl.area = s.ctl.area
    ∧ (takeConfigAddress a0 s).ctl.state = s.ctl.state ∧ (takeConfigAddress a0 s).ctl.lastSkip = s.ctl.lastSkip
    ∧ (takeConfigAddress a0 s).ctl.amask = s.ctl.amask ∧ (takeConfigAddress a0 s).ctl.pauseRec = s.ctl.pauseRec
    ∧ (takeConfigAddress a0 s).config = s.config ∧ (takeConfigAddress a0 s).pending = s.pending
    ∧ (takeConfigAddress a0 s).out = s.out ∧ (takeConfigAddress a0 s).freeIndex = s.freeIndex := by
  simp only [takeConfigAddress]
  (repeat' split) <;> simp

@[simp] theorem install_frame (a0 : ConfigBlock) (s : State) : (install a0 s).transport = s.transport
    ∧ (install a0 s).clock.running = s.clock.running ∧ (install a0 s).clock.pitch = s.clock.pitch
    ∧ (install a0 s).clock.boundary = s.clock.boundary ∧ (install a0 s).clock.ring = s.clock.ring
    ∧ (install a0 s).clock.lastFinal = s.clock.lastFinal ∧ (install a0 s).fetch = s.fetch
    ∧ (install a0 s).mail.table = s.mail.table ∧ (install a0 s).mail.bins = s.mail.bins
    ∧ (install a0 s).mail.purgeCount = s.mail.purgeCount ∧ (install a0 s).mail.binWaitArm = s.mail.binWaitArm
    ∧ (install a0 s).mail.waitingOpen = s.mail.waitingOpen ∧ (install a0 s).mail.nextId = s.mail.nextId
    ∧ (install a0 s).launch = s.launch ∧ (install a0 s).track = s.track ∧ (install a0 s).exit = s.exit
    ∧ (install a0 s).retire.step = s.retire.step ∧ (install a0 s).retire.retired = s.retire.retired
    ∧ (install a0 s).retire.launched = s.retire.launched ∧ (install a0 s).retire.stacked = s.retire.stacked
    ∧ (install a0 s).retire.purged = s.retire.purged ∧ (install a0 s).retire.lost = s.retire.lost
    ∧ (install a0 s).retire.skipped = s.retire.skipped ∧ (install a0 s).jam = s.jam ∧ (install a0 s).mem = s.mem
    ∧ (install a0 s).ctl.area = s.ctl.area ∧ (install a0 s).ctl.cmd = s.ctl.cmd
    ∧ (install a0 s).ctl.lastCommand = s.ctl.lastCommand ∧ (install a0 s).ctl.lastOutcome = s.ctl.lastOutcome
    ∧ (install a0 s).ctl.validation = s.ctl.validation ∧ (install a0 s).ctl.lastSkip = s.ctl.lastSkip
    ∧ (install a0 s).ctl.amask = s.ctl.amask ∧ (install a0 s).ctl.pauseRec = s.ctl.pauseRec
    ∧ (install a0 s).pending = s.pending ∧ (install a0 s).out = s.out ∧ (install a0 s).freeIndex = s.freeIndex := by
  simp only [install]
  (repeat' split) <;> simp

@[simp] theorem takeMainHead_frame (a0 : Word) (s : State) : (takeMainHead a0 s).transport = s.transport
    ∧ (takeMainHead a0 s).clock = s.clock ∧ (takeMainHead a0 s).fetch.window = s.fetch.window
    ∧ (takeMainHead a0 s).fetch.stack = s.fetch.stack ∧ (takeMainHead a0 s).fetch.outer = s.fetch.outer
    ∧ (takeMainHead a0 s).fetch.chain = s.fetch.chain ∧ (takeMainHead a0 s).fetch.resync = s.fetch.resync
    ∧ (takeMainHead a0 s).fetch.read = s.fetch.read ∧ (takeMainHead a0 s).fetch.rereadAsked = s.fetch.rereadAsked
    ∧ (takeMainHead a0 s).fetch.nextId = s.fetch.nextId ∧ (takeMainHead a0 s).mail = s.mail
    ∧ (takeMainHead a0 s).launch = s.launch ∧ (takeMainHead a0 s).track = s.track ∧ (takeMainHead a0 s).exit = s.exit
    ∧ (takeMainHead a0 s).retire = s.retire ∧ (takeMainHead a0 s).jam = s.jam
    ∧ (takeMainHead a0 s).mem.windowLength = s.mem.windowLength ∧ (takeMainHead a0 s).mem.waiting = s.mem.waiting
    ∧ (takeMainHead a0 s).mem.bus = s.mem.bus ∧ (takeMainHead a0 s).ctl.area = s.ctl.area
    ∧ (takeMainHead a0 s).ctl.state = s.ctl.state ∧ (takeMainHead a0 s).ctl.validation = s.ctl.validation
    ∧ (takeMainHead a0 s).ctl.amask = s.ctl.amask ∧ (takeMainHead a0 s).ctl.pauseRec = s.ctl.pauseRec
    ∧ (takeMainHead a0 s).config = s.config ∧ (takeMainHead a0 s).pending = s.pending
    ∧ (takeMainHead a0 s).out = s.out ∧ (takeMainHead a0 s).freeIndex = s.freeIndex := by
  simp only [takeMainHead]
  (repeat' split) <;> simp

@[simp] theorem takeRecoveryHead_frame (a0 : Word) (s : State) : (takeRecoveryHead a0 s).transport = s.transport
    ∧ (takeRecoveryHead a0 s).clock = s.clock ∧ (takeRecoveryHead a0 s).fetch.window = s.fetch.window
    ∧ (takeRecoveryHead a0 s).fetch.stack = s.fetch.stack ∧ (takeRecoveryHead a0 s).fetch.outer = s.fetch.outer
    ∧ (takeRecoveryHead a0 s).fetch.read = s.fetch.read
    ∧ (takeRecoveryHead a0 s).fetch.rereadAsked = s.fetch.rereadAsked
    ∧ (takeRecoveryHead a0 s).fetch.nextId = s.fetch.nextId ∧ (takeRecoveryHead a0 s).mail = s.mail
    ∧ (takeRecoveryHead a0 s).launch = s.launch ∧ (takeRecoveryHead a0 s).track = s.track
    ∧ (takeRecoveryHead a0 s).exit = s.exit ∧ (takeRecoveryHead a0 s).retire = s.retire
    ∧ (takeRecoveryHead a0 s).jam = s.jam ∧ (takeRecoveryHead a0 s).mem.windowLength = s.mem.windowLength
    ∧ (takeRecoveryHead a0 s).mem.waiting = s.mem.waiting ∧ (takeRecoveryHead a0 s).mem.bus = s.mem.bus
    ∧ (takeRecoveryHead a0 s).ctl.area = s.ctl.area ∧ (takeRecoveryHead a0 s).ctl.state = s.ctl.state
    ∧ (takeRecoveryHead a0 s).ctl.validation = s.ctl.validation ∧ (takeRecoveryHead a0 s).ctl.amask = s.ctl.amask
    ∧ (takeRecoveryHead a0 s).ctl.pauseRec = s.ctl.pauseRec ∧ (takeRecoveryHead a0 s).config = s.config
    ∧ (takeRecoveryHead a0 s).pending = s.pending ∧ (takeRecoveryHead a0 s).out = s.out
    ∧ (takeRecoveryHead a0 s).freeIndex = s.freeIndex := by
  simp only [takeRecoveryHead]
  (repeat' split) <;> simp

@[simp] theorem takeLoadConfig_frame (s : State) : (takeLoadConfig s).transport = s.transport
    ∧ (takeLoadConfig s).clock = s.clock ∧ (takeLoadConfig s).fetch = s.fetch ∧ (takeLoadConfig s).mail = s.mail
    ∧ (takeLoadConfig s).launch = s.launch ∧ (takeLoadConfig s).track = s.track ∧ (takeLoadConfig s).exit = s.exit
    ∧ (takeLoadConfig s).retire = s.retire ∧ (takeLoadConfig s).jam = s.jam
    ∧ (takeLoadConfig s).mem.windowLength = s.mem.windowLength ∧ (takeLoadConfig s).mem.queue = s.mem.queue
    ∧ (takeLoadConfig s).mem.held = s.mem.held ∧ (takeLoadConfig s).mem.bus = s.mem.bus
    ∧ (takeLoadConfig s).ctl.area = s.ctl.area ∧ (takeLoadConfig s).ctl.state = s.ctl.state
    ∧ (takeLoadConfig s).ctl.validation = s.ctl.validation ∧ (takeLoadConfig s).ctl.lastSkip = s.ctl.lastSkip
    ∧ (takeLoadConfig s).ctl.amask = s.ctl.amask ∧ (takeLoadConfig s).ctl.pauseRec = s.ctl.pauseRec
    ∧ (takeLoadConfig s).config = s.config ∧ (takeLoadConfig s).pending = s.pending ∧ (takeLoadConfig s).out = s.out
    ∧ (takeLoadConfig s).freeIndex = s.freeIndex := by
  simp only [takeLoadConfig]
  (repeat' split) <;> simp

@[simp] theorem emptyForRun_frame (s : State) : (emptyForRun s).transport.count = s.transport.count
    ∧ (emptyForRun s).transport.run = s.transport.run ∧ (emptyForRun s).transport.state = s.transport.state
    ∧ (emptyForRun s).transport.heldRunUp = s.transport.heldRunUp
    ∧ (emptyForRun s).transport.sensors = s.transport.sensors ∧ (emptyForRun s).transport.ref = s.transport.ref
    ∧ (emptyForRun s).transport.below = s.transport.below
    ∧ (emptyForRun s).transport.allInBand = s.transport.allInBand
    ∧ (emptyForRun s).transport.runUpTimer = s.transport.runUpTimer
    ∧ (emptyForRun s).transport.samplePeriod = s.transport.samplePeriod
    ∧ (emptyForRun s).transport.speedDeviation = s.transport.speedDeviation ∧ (emptyForRun s).clock = s.clock
    ∧ (emptyForRun s).fetch.nextId = s.fetch.nextId ∧ (emptyForRun s).mail.bins = s.mail.bins
    ∧ (emptyForRun s).mail.purgeCount = s.mail.purgeCount ∧ (emptyForRun s).mail.purgeFull = s.mail.purgeFull
    ∧ (emptyForRun s).mail.binWaitArm = s.mail.binWaitArm ∧ (emptyForRun s).mail.nextId = s.mail.nextId
    ∧ (emptyForRun s).launch.candRead = s.launch.candRead ∧ (emptyForRun s).launch.emptyCount = s.launch.emptyCount
    ∧ (emptyForRun s).launch.starvedArm = s.launch.starvedArm ∧ (emptyForRun s).launch.trayArm = s.launch.trayArm
    ∧ (emptyForRun s).launch.trays = s.launch.trays ∧ (emptyForRun s).launch.wakeAsked = s.launch.wakeAsked
    ∧ (emptyForRun s).track = s.track ∧ (emptyForRun s).exit = s.exit
    ∧ (emptyForRun s).retire.retired = s.retire.retired ∧ (emptyForRun s).retire.launched = s.retire.launched
    ∧ (emptyForRun s).retire.stacked = s.retire.stacked ∧ (emptyForRun s).retire.purged = s.retire.purged
    ∧ (emptyForRun s).retire.lost = s.retire.lost ∧ (emptyForRun s).retire.skipped = s.retire.skipped
    ∧ (emptyForRun s).retire.batching = s.retire.batching ∧ (emptyForRun s).jam = s.jam ∧ (emptyForRun s).mem = s.mem
    ∧ (emptyForRun s).ctl = s.ctl ∧ (emptyForRun s).config = s.config ∧ (emptyForRun s).pending = s.pending
    ∧ (emptyForRun s).out = s.out ∧ (emptyForRun s).freeIndex = s.freeIndex := by
  simp [emptyForRun]

@[simp] theorem clearResume_frame (s : State) : (clearResume s).transport = s.transport
    ∧ (clearResume s).clock = s.clock ∧ (clearResume s).fetch = s.fetch ∧ (clearResume s).mail = s.mail
    ∧ (clearResume s).launch = s.launch ∧ (clearResume s).track = s.track ∧ (clearResume s).exit = s.exit
    ∧ (clearResume s).retire = s.retire ∧ (clearResume s).jam.seq = s.jam.seq
    ∧ (clearResume s).jam.primary = s.jam.primary ∧ (clearResume s).jam.secondary = s.jam.secondary
    ∧ (clearResume s).jam.lastSecondary = s.jam.lastSecondary ∧ (clearResume s).jam.stranded = s.jam.stranded
    ∧ (clearResume s).jam.interrupted = s.jam.interrupted ∧ (clearResume s).jam.recordDue = s.jam.recordDue
    ∧ (clearResume s).jam.recordIssued = s.jam.recordIssued ∧ (clearResume s).mem = s.mem
    ∧ (clearResume s).ctl = s.ctl ∧ (clearResume s).config = s.config ∧ (clearResume s).pending = s.pending
    ∧ (clearResume s).out = s.out ∧ (clearResume s).freeIndex = s.freeIndex := by
  simp [clearResume]

@[simp] theorem takeRun_frame (s : State) : (takeRun s).transport.count = s.transport.count
    ∧ (takeRun s).transport.sensors = s.transport.sensors
    ∧ (takeRun s).transport.speedDeviation = s.transport.speedDeviation ∧ (takeRun s).clock = s.clock
    ∧ (takeRun s).fetch.nextId = s.fetch.nextId ∧ (takeRun s).mail.bins = s.mail.bins
    ∧ (takeRun s).mail.purgeCount = s.mail.purgeCount ∧ (takeRun s).mail.purgeFull = s.mail.purgeFull
    ∧ (takeRun s).mail.nextId = s.mail.nextId ∧ (takeRun s).launch.candRead = s.launch.candRead
    ∧ (takeRun s).launch.trays = s.launch.trays ∧ (takeRun s).launch.wakeAsked = s.launch.wakeAsked
    ∧ (takeRun s).track.sheets = s.track.sheets ∧ (takeRun s).track.queues = s.track.queues
    ∧ (takeRun s).track.fifo = s.track.fifo ∧ (takeRun s).track.d1 = s.track.d1
    ∧ (takeRun s).track.nextId = s.track.nextId ∧ (takeRun s).exit = s.exit
    ∧ (takeRun s).retire.retired = s.retire.retired ∧ (takeRun s).retire.launched = s.retire.launched
    ∧ (takeRun s).retire.stacked = s.retire.stacked ∧ (takeRun s).retire.purged = s.retire.purged
    ∧ (takeRun s).retire.lost = s.retire.lost ∧ (takeRun s).retire.skipped = s.retire.skipped
    ∧ (takeRun s).retire.batching = s.retire.batching ∧ (takeRun s).jam.seq = s.jam.seq
    ∧ (takeRun s).jam.primary = s.jam.primary ∧ (takeRun s).jam.secondary = s.jam.secondary
    ∧ (takeRun s).jam.lastSecondary = s.jam.lastSecondary ∧ (takeRun s).jam.stranded = s.jam.stranded
    ∧ (takeRun s).jam.interrupted = s.jam.interrupted ∧ (takeRun s).jam.recordDue = s.jam.recordDue
    ∧ (takeRun s).jam.recordIssued = s.jam.recordIssued ∧ (takeRun s).mem.windowLength = s.mem.windowLength
    ∧ (takeRun s).mem.queue = s.mem.queue ∧ (takeRun s).mem.held = s.mem.held ∧ (takeRun s).mem.bus = s.mem.bus
    ∧ (takeRun s).ctl.area = s.ctl.area ∧ (takeRun s).ctl.validation = s.ctl.validation
    ∧ (takeRun s).ctl.lastSkip = s.ctl.lastSkip ∧ (takeRun s).ctl.amask = s.ctl.amask
    ∧ (takeRun s).ctl.pauseRec = s.ctl.pauseRec ∧ (takeRun s).config = s.config ∧ (takeRun s).pending = s.pending
    ∧ (takeRun s).out = s.out ∧ (takeRun s).freeIndex = s.freeIndex := by
  simp only [takeRun]
  (repeat' split) <;> simp

@[simp] theorem takeHalt_frame (s : State) : (takeHalt s).transport.count = s.transport.count
    ∧ (takeHalt s).transport.sensors = s.transport.sensors ∧ (takeHalt s).transport.ref = s.transport.ref
    ∧ (takeHalt s).transport.below = s.transport.below ∧ (takeHalt s).transport.allInBand = s.transport.allInBand
    ∧ (takeHalt s).transport.samplePeriod = s.transport.samplePeriod ∧ (takeHalt s).clock.pitch = s.clock.pitch
    ∧ (takeHalt s).clock.boundary = s.clock.boundary ∧ (takeHalt s).clock.ring = s.clock.ring
    ∧ (takeHalt s).clock.lastFinal = s.clock.lastFinal ∧ (takeHalt s).clock.loopUnusable = s.clock.loopUnusable
    ∧ (takeHalt s).fetch.pos = s.fetch.pos ∧ (takeHalt s).fetch.stack = s.fetch.stack
    ∧ (takeHalt s).fetch.outer = s.fetch.outer ∧ (takeHalt s).fetch.chain = s.fetch.chain
    ∧ (takeHalt s).fetch.resync = s.fetch.resync ∧ (takeHalt s).fetch.read = s.fetch.read
    ∧ (takeHalt s).fetch.rereadAsked = s.fetch.rereadAsked ∧ (takeHalt s).fetch.nextId = s.fetch.nextId
    ∧ (takeHalt s).mail = s.mail ∧ (takeHalt s).launch = s.launch ∧ (takeHalt s).track.sheets = s.track.sheets
    ∧ (takeHalt s).track.queues = s.track.queues ∧ (takeHalt s).track.fifo = s.track.fifo
    ∧ (takeHalt s).track.d1 = s.track.d1 ∧ (takeHalt s).track.nextId = s.track.nextId ∧ (takeHalt s).exit = s.exit
    ∧ (takeHalt s).retire = s.retire ∧ (takeHalt s).jam = s.jam ∧ (takeHalt s).mem = s.mem
    ∧ (takeHalt s).ctl.area = s.ctl.area ∧ (takeHalt s).ctl.validation = s.ctl.validation
    ∧ (takeHalt s).ctl.lastSkip = s.ctl.lastSkip ∧ (takeHalt s).ctl.amask = s.ctl.amask
    ∧ (takeHalt s).config = s.config ∧ (takeHalt s).pending = s.pending ∧ (takeHalt s).out = s.out
    ∧ (takeHalt s).freeIndex = s.freeIndex := by
  simp only [takeHalt]
  (repeat' split) <;> simp

@[simp] theorem restart_frame (s : State) : (restart s).transport.count = s.transport.count
    ∧ (restart s).transport.sensors = s.transport.sensors ∧ (restart s).transport.compares = s.transport.compares
    ∧ (restart s).transport.speedDeviation = s.transport.speedDeviation ∧ (restart s).clock = s.clock
    ∧ (restart s).fetch = s.fetch ∧ (restart s).mail.table = s.mail.table ∧ (restart s).mail.bins = s.mail.bins
    ∧ (restart s).mail.purgeCount = s.mail.purgeCount ∧ (restart s).mail.purgeFull = s.mail.purgeFull
    ∧ (restart s).mail.waitingOpen = s.mail.waitingOpen ∧ (restart s).mail.nextId = s.mail.nextId
    ∧ (restart s).launch.schedule = s.launch.schedule ∧ (restart s).launch.candidate = s.launch.candidate
    ∧ (restart s).launch.candRead = s.launch.candRead ∧ (restart s).launch.trays = s.launch.trays
    ∧ (restart s).launch.wakeAsked = s.launch.wakeAsked ∧ (restart s).track.sheets = s.track.sheets
    ∧ (restart s).track.queues = s.track.queues ∧ (restart s).track.fifo = s.track.fifo
    ∧ (restart s).track.d1 = s.track.d1 ∧ (restart s).track.nextId = s.track.nextId ∧ (restart s).exit = s.exit
    ∧ (restart s).retire = s.retire ∧ (restart s).jam.seq = s.jam.seq ∧ (restart s).jam.primary = s.jam.primary
    ∧ (restart s).jam.secondary = s.jam.secondary ∧ (restart s).jam.lastSecondary = s.jam.lastSecondary
    ∧ (restart s).jam.stranded = s.jam.stranded ∧ (restart s).jam.interrupted = s.jam.interrupted
    ∧ (restart s).jam.mainResume = s.jam.mainResume ∧ (restart s).jam.mainResync = s.jam.mainResync
    ∧ (restart s).jam.recoveryResume = s.jam.recoveryResume ∧ (restart s).jam.recordDue = s.jam.recordDue
    ∧ (restart s).jam.recordIssued = s.jam.recordIssued ∧ (restart s).mem = s.mem ∧ (restart s).ctl.area = s.ctl.area
    ∧ (restart s).ctl.cmd = s.ctl.cmd ∧ (restart s).ctl.lastCommand = s.ctl.lastCommand
    ∧ (restart s).ctl.lastOutcome = s.ctl.lastOutcome ∧ (restart s).ctl.validation = s.ctl.validation
    ∧ (restart s).ctl.lastSkip = s.ctl.lastSkip ∧ (restart s).ctl.attn = s.ctl.attn
    ∧ (restart s).ctl.amask = s.ctl.amask ∧ (restart s).ctl.pauseRec = s.ctl.pauseRec ∧ (restart s).config = s.config
    ∧ (restart s).pending = s.pending ∧ (restart s).out = s.out ∧ (restart s).freeIndex = s.freeIndex := by
  simp [restart]

@[simp] theorem takeResume_frame (s : State) : (takeResume s).transport.count = s.transport.count
    ∧ (takeResume s).transport.sensors = s.transport.sensors
    ∧ (takeResume s).transport.compares = s.transport.compares
    ∧ (takeResume s).transport.speedDeviation = s.transport.speedDeviation ∧ (takeResume s).clock = s.clock
    ∧ (takeResume s).fetch.window = s.fetch.window ∧ (takeResume s).fetch.nextId = s.fetch.nextId
    ∧ (takeResume s).mail.table = s.mail.table ∧ (takeResume s).mail.bins = s.mail.bins
    ∧ (takeResume s).mail.purgeCount = s.mail.purgeCount ∧ (takeResume s).mail.purgeFull = s.mail.purgeFull
    ∧ (takeResume s).mail.waitingOpen = s.mail.waitingOpen ∧ (takeResume s).mail.nextId = s.mail.nextId
    ∧ (takeResume s).launch.schedule = s.launch.schedule ∧ (takeResume s).launch.candidate = s.launch.candidate
    ∧ (takeResume s).launch.candRead = s.launch.candRead ∧ (takeResume s).launch.trays = s.launch.trays
    ∧ (takeResume s).launch.wakeAsked = s.launch.wakeAsked ∧ (takeResume s).track.sheets = s.track.sheets
    ∧ (takeResume s).track.queues = s.track.queues ∧ (takeResume s).track.fifo = s.track.fifo
    ∧ (takeResume s).track.d1 = s.track.d1 ∧ (takeResume s).track.nextId = s.track.nextId
    ∧ (takeResume s).exit = s.exit ∧ (takeResume s).retire = s.retire ∧ (takeResume s).jam.seq = s.jam.seq
    ∧ (takeResume s).jam.primary = s.jam.primary ∧ (takeResume s).jam.secondary = s.jam.secondary
    ∧ (takeResume s).jam.lastSecondary = s.jam.lastSecondary ∧ (takeResume s).jam.stranded = s.jam.stranded
    ∧ (takeResume s).jam.interrupted = s.jam.interrupted ∧ (takeResume s).jam.mainResume = s.jam.mainResume
    ∧ (takeResume s).jam.mainResync = s.jam.mainResync ∧ (takeResume s).jam.recoveryResume = s.jam.recoveryResume
    ∧ (takeResume s).jam.recordDue = s.jam.recordDue ∧ (takeResume s).jam.recordIssued = s.jam.recordIssued
    ∧ (takeResume s).mem.windowLength = s.mem.windowLength ∧ (takeResume s).mem.waiting = s.mem.waiting
    ∧ (takeResume s).mem.bus = s.mem.bus ∧ (takeResume s).ctl.area = s.ctl.area
    ∧ (takeResume s).ctl.validation = s.ctl.validation ∧ (takeResume s).ctl.amask = s.ctl.amask
    ∧ (takeResume s).ctl.pauseRec = s.ctl.pauseRec ∧ (takeResume s).config = s.config
    ∧ (takeResume s).pending = s.pending ∧ (takeResume s).out = s.out ∧ (takeResume s).freeIndex = s.freeIndex := by
  simp only [takeResume]
  (repeat' split) <;> simp

@[simp] theorem takeRecover_frame (s : State) : (takeRecover s).transport.count = s.transport.count
    ∧ (takeRecover s).transport.sensors = s.transport.sensors
    ∧ (takeRecover s).transport.compares = s.transport.compares
    ∧ (takeRecover s).transport.speedDeviation = s.transport.speedDeviation ∧ (takeRecover s).clock = s.clock
    ∧ (takeRecover s).fetch.window = s.fetch.window ∧ (takeRecover s).fetch.nextId = s.fetch.nextId
    ∧ (takeRecover s).mail.table = s.mail.table ∧ (takeRecover s).mail.bins = s.mail.bins
    ∧ (takeRecover s).mail.purgeCount = s.mail.purgeCount ∧ (takeRecover s).mail.purgeFull = s.mail.purgeFull
    ∧ (takeRecover s).mail.waitingOpen = s.mail.waitingOpen ∧ (takeRecover s).mail.nextId = s.mail.nextId
    ∧ (takeRecover s).launch.schedule = s.launch.schedule ∧ (takeRecover s).launch.candidate = s.launch.candidate
    ∧ (takeRecover s).launch.candRead = s.launch.candRead ∧ (takeRecover s).launch.trays = s.launch.trays
    ∧ (takeRecover s).launch.wakeAsked = s.launch.wakeAsked ∧ (takeRecover s).track.sheets = s.track.sheets
    ∧ (takeRecover s).track.queues = s.track.queues ∧ (takeRecover s).track.fifo = s.track.fifo
    ∧ (takeRecover s).track.d1 = s.track.d1 ∧ (takeRecover s).track.nextId = s.track.nextId
    ∧ (takeRecover s).exit = s.exit ∧ (takeRecover s).retire = s.retire ∧ (takeRecover s).jam.seq = s.jam.seq
    ∧ (takeRecover s).jam.primary = s.jam.primary ∧ (takeRecover s).jam.secondary = s.jam.secondary
    ∧ (takeRecover s).jam.lastSecondary = s.jam.lastSecondary ∧ (takeRecover s).jam.stranded = s.jam.stranded
    ∧ (takeRecover s).jam.interrupted = s.jam.interrupted ∧ (takeRecover s).jam.mainResume = s.jam.mainResume
    ∧ (takeRecover s).jam.mainResync = s.jam.mainResync ∧ (takeRecover s).jam.recoveryResume = s.jam.recoveryResume
    ∧ (takeRecover s).jam.recordDue = s.jam.recordDue ∧ (takeRecover s).jam.recordIssued = s.jam.recordIssued
    ∧ (takeRecover s).mem.windowLength = s.mem.windowLength ∧ (takeRecover s).mem.bus = s.mem.bus
    ∧ (takeRecover s).ctl.area = s.ctl.area ∧ (takeRecover s).ctl.validation = s.ctl.validation
    ∧ (takeRecover s).ctl.amask = s.ctl.amask ∧ (takeRecover s).ctl.pauseRec = s.ctl.pauseRec
    ∧ (takeRecover s).config = s.config ∧ (takeRecover s).pending = s.pending ∧ (takeRecover s).out = s.out
    ∧ (takeRecover s).freeIndex = s.freeIndex := by
  simp only [takeRecover]
  (repeat' split) <;> simp

@[simp] theorem takeExtend_frame (s : State) : (takeExtend s).transport = s.transport ∧ (takeExtend s).clock = s.clock
    ∧ (takeExtend s).fetch.window = s.fetch.window ∧ (takeExtend s).fetch.stack = s.fetch.stack
    ∧ (takeExtend s).fetch.outer = s.fetch.outer ∧ (takeExtend s).fetch.chain = s.fetch.chain
    ∧ (takeExtend s).fetch.resync = s.fetch.resync ∧ (takeExtend s).fetch.read = s.fetch.read
    ∧ (takeExtend s).fetch.nextId = s.fetch.nextId ∧ (takeExtend s).mail = s.mail
    ∧ (takeExtend s).launch.schedule = s.launch.schedule ∧ (takeExtend s).launch.candidate = s.launch.candidate
    ∧ (takeExtend s).launch.emptyCount = s.launch.emptyCount ∧ (takeExtend s).launch.starvedArm = s.launch.starvedArm
    ∧ (takeExtend s).launch.trayArm = s.launch.trayArm ∧ (takeExtend s).launch.trays = s.launch.trays
    ∧ (takeExtend s).track = s.track ∧ (takeExtend s).exit = s.exit ∧ (takeExtend s).retire = s.retire
    ∧ (takeExtend s).jam = s.jam ∧ (takeExtend s).mem.windowLength = s.mem.windowLength
    ∧ (takeExtend s).mem.bus = s.mem.bus ∧ (takeExtend s).ctl.area = s.ctl.area
    ∧ (takeExtend s).ctl.state = s.ctl.state ∧ (takeExtend s).ctl.validation = s.ctl.validation
    ∧ (takeExtend s).ctl.amask = s.ctl.amask ∧ (takeExtend s).ctl.pauseRec = s.ctl.pauseRec
    ∧ (takeExtend s).config = s.config ∧ (takeExtend s).pending = s.pending ∧ (takeExtend s).out = s.out
    ∧ (takeExtend s).freeIndex = s.freeIndex := by
  simp only [takeExtend]
  (repeat' split) <;> simp

@[simp] theorem clearPath_frame (s : State) : (clearPath s).transport.count = s.transport.count
    ∧ (clearPath s).transport.run = s.transport.run ∧ (clearPath s).transport.state = s.transport.state
    ∧ (clearPath s).transport.heldRunUp = s.transport.heldRunUp
    ∧ (clearPath s).transport.sensors = s.transport.sensors ∧ (clearPath s).transport.ref = s.transport.ref
    ∧ (clearPath s).transport.below = s.transport.below ∧ (clearPath s).transport.allInBand = s.transport.allInBand
    ∧ (clearPath s).transport.runUpTimer = s.transport.runUpTimer
    ∧ (clearPath s).transport.samplePeriod = s.transport.samplePeriod
    ∧ (clearPath s).transport.speedDeviation = s.transport.speedDeviation
    ∧ (clearPath s).clock.running = s.clock.running ∧ (clearPath s).clock.pitch = s.clock.pitch
    ∧ (clearPath s).clock.boundary = s.clock.boundary ∧ (clearPath s).clock.lastFinal = s.clock.lastFinal
    ∧ (clearPath s).clock.loopUnusable = s.clock.loopUnusable ∧ (clearPath s).fetch = s.fetch
    ∧ (clearPath s).mail = s.mail ∧ (clearPath s).launch.candidate = s.launch.candidate
    ∧ (clearPath s).launch.candRead = s.launch.candRead ∧ (clearPath s).launch.emptyCount = s.launch.emptyCount
    ∧ (clearPath s).launch.starvedArm = s.launch.starvedArm ∧ (clearPath s).launch.trayArm = s.launch.trayArm
    ∧ (clearPath s).launch.trays = s.launch.trays ∧ (clearPath s).launch.wakeAsked = s.launch.wakeAsked
    ∧ (clearPath s).track.d1 = s.track.d1 ∧ (clearPath s).track.nextId = s.track.nextId ∧ (clearPath s).exit = s.exit
    ∧ (clearPath s).retire = s.retire ∧ (clearPath s).jam = s.jam ∧ (clearPath s).mem = s.mem
    ∧ (clearPath s).ctl = s.ctl ∧ (clearPath s).config = s.config ∧ (clearPath s).pending = s.pending
    ∧ (clearPath s).out = s.out ∧ (clearPath s).freeIndex = s.freeIndex := by
  simp [clearPath]

@[simp] theorem takePathReset_frame (s : State) : (takePathReset s).transport.count = s.transport.count
    ∧ (takePathReset s).transport.sensors = s.transport.sensors ∧ (takePathReset s).transport.ref = s.transport.ref
    ∧ (takePathReset s).transport.below = s.transport.below
    ∧ (takePathReset s).transport.allInBand = s.transport.allInBand
    ∧ (takePathReset s).transport.samplePeriod = s.transport.samplePeriod
    ∧ (takePathReset s).clock.pitch = s.clock.pitch ∧ (takePathReset s).clock.boundary = s.clock.boundary
    ∧ (takePathReset s).clock.lastFinal = s.clock.lastFinal
    ∧ (takePathReset s).clock.loopUnusable = s.clock.loopUnusable ∧ (takePathReset s).fetch.pos = s.fetch.pos
    ∧ (takePathReset s).fetch.stack = s.fetch.stack ∧ (takePathReset s).fetch.outer = s.fetch.outer
    ∧ (takePathReset s).fetch.chain = s.fetch.chain ∧ (takePathReset s).fetch.resync = s.fetch.resync
    ∧ (takePathReset s).fetch.read = s.fetch.read ∧ (takePathReset s).fetch.rereadAsked = s.fetch.rereadAsked
    ∧ (takePathReset s).fetch.nextId = s.fetch.nextId ∧ (takePathReset s).mail = s.mail
    ∧ (takePathReset s).launch.candidate = s.launch.candidate ∧ (takePathReset s).launch.candRead = s.launch.candRead
    ∧ (takePathReset s).launch.emptyCount = s.launch.emptyCount
    ∧ (takePathReset s).launch.starvedArm = s.launch.starvedArm ∧ (takePathReset s).launch.trayArm = s.launch.trayArm
    ∧ (takePathReset s).launch.trays = s.launch.trays ∧ (takePathReset s).launch.wakeAsked = s.launch.wakeAsked
    ∧ (takePathReset s).track.d1 = s.track.d1 ∧ (takePathReset s).track.nextId = s.track.nextId
    ∧ (takePathReset s).exit = s.exit ∧ (takePathReset s).retire = s.retire ∧ (takePathReset s).jam.seq = s.jam.seq
    ∧ (takePathReset s).jam.primary = s.jam.primary ∧ (takePathReset s).jam.secondary = s.jam.secondary
    ∧ (takePathReset s).jam.lastSecondary = s.jam.lastSecondary ∧ (takePathReset s).jam.stranded = s.jam.stranded
    ∧ (takePathReset s).jam.interrupted = s.jam.interrupted ∧ (takePathReset s).jam.mainResume = s.jam.mainResume
    ∧ (takePathReset s).jam.mainResync = s.jam.mainResync
    ∧ (takePathReset s).jam.recoveryResume = s.jam.recoveryResume ∧ (takePathReset s).jam.recordDue = s.jam.recordDue
    ∧ (takePathReset s).jam.recordIssued = s.jam.recordIssued ∧ (takePathReset s).mem = s.mem
    ∧ (takePathReset s).ctl.area = s.ctl.area ∧ (takePathReset s).ctl.validation = s.ctl.validation
    ∧ (takePathReset s).ctl.lastSkip = s.ctl.lastSkip ∧ (takePathReset s).ctl.amask = s.ctl.amask
    ∧ (takePathReset s).config = s.config ∧ (takePathReset s).pending = s.pending ∧ (takePathReset s).out = s.out
    ∧ (takePathReset s).freeIndex = s.freeIndex := by
  simp only [takePathReset]
  (repeat' split) <;> simp

theorem retireMove_frame (s s' : State) (h : s.retireMove = some s') :
    s'.transport = s.transport ∧ s'.clock = s.clock ∧ s'.fetch.pos = s.fetch.pos ∧ s'.fetch.stack = s.fetch.stack ∧
    s'.fetch.outer = s.fetch.outer ∧ s'.fetch.chain = s.fetch.chain ∧ s'.fetch.resync = s.fetch.resync ∧
    s'.fetch.read = s.fetch.read ∧ s'.fetch.rereadAsked = s.fetch.rereadAsked ∧ s'.fetch.nextId = s.fetch.nextId ∧
    s'.mail.bins = s.mail.bins ∧ s'.mail.purgeCount = s.mail.purgeCount ∧ s'.mail.purgeFull = s.mail.purgeFull ∧
    s'.mail.binWaitArm = s.mail.binWaitArm ∧ s'.mail.waitingOpen = s.mail.waitingOpen
        ∧ s'.mail.nextId = s.mail.nextId ∧
    s'.launch.schedule = s.launch.schedule ∧ s'.launch.candidate = s.launch.candidate
        ∧ s'.launch.candRead = s.launch.candRead ∧
    s'.launch.emptyCount = s.launch.emptyCount ∧ s'.launch.starvedArm = s.launch.starvedArm
        ∧ s'.launch.trayArm = s.launch.trayArm ∧
    s'.launch.trays = s.launch.trays ∧ s'.track = s.track ∧ s'.exit = s.exit
        ∧ s'.retire.launched = s.retire.launched ∧
    s'.retire.stacked = s.retire.stacked ∧ s'.retire.purged = s.retire.purged ∧ s'.retire.lost = s.retire.lost ∧
    s'.retire.skipped = s.retire.skipped ∧ s'.jam = s.jam ∧ s'.mem.windowLength = s.mem.windowLength ∧
    s'.mem.waiting = s.mem.waiting ∧ s'.mem.bus = s.mem.bus ∧ s'.ctl = s.ctl ∧ s'.config = s.config ∧
    s'.pending = s.pending ∧ s'.out = s.out ∧ s'.freeIndex = s.freeIndex := by
  unfold retireMove at h
  (repeat' split at h) <;> first | (simp at h; done) | (simp only [Option.some.injEq] at h; subst h; simp [removeHead, askWake, retireAdvance, issueWrite]; (repeat' split) <;> simp)

@[simp] theorem retireLoop_frame (n : Nat) (s : State) :
    (s.retireLoop n).transport = s.transport ∧ (s.retireLoop n).clock = s.clock
        ∧ (s.retireLoop n).fetch.pos = s.fetch.pos ∧ (s.retireLoop n).fetch.stack = s.fetch.stack ∧
    (s.retireLoop n).fetch.outer = s.fetch.outer ∧ (s.retireLoop n).fetch.chain = s.fetch.chain
        ∧ (s.retireLoop n).fetch.resync = s.fetch.resync ∧
    (s.retireLoop n).fetch.read = s.fetch.read ∧ (s.retireLoop n).fetch.rereadAsked = s.fetch.rereadAsked
        ∧ (s.retireLoop n).fetch.nextId = s.fetch.nextId ∧
    (s.retireLoop n).mail.bins = s.mail.bins ∧ (s.retireLoop n).mail.purgeCount = s.mail.purgeCount
        ∧ (s.retireLoop n).mail.purgeFull = s.mail.purgeFull ∧
    (s.retireLoop n).mail.binWaitArm = s.mail.binWaitArm ∧ (s.retireLoop n).mail.waitingOpen = s.mail.waitingOpen
        ∧ (s.retireLoop n).mail.nextId = s.mail.nextId ∧
    (s.retireLoop n).launch.schedule = s.launch.schedule ∧ (s.retireLoop n).launch.candidate = s.launch.candidate
        ∧ (s.retireLoop n).launch.candRead = s.launch.candRead ∧
    (s.retireLoop n).launch.emptyCount = s.launch.emptyCount
        ∧ (s.retireLoop n).launch.starvedArm = s.launch.starvedArm
        ∧ (s.retireLoop n).launch.trayArm = s.launch.trayArm ∧
    (s.retireLoop n).launch.trays = s.launch.trays ∧ (s.retireLoop n).track = s.track ∧ (s.retireLoop n).exit = s.exit
        ∧ (s.retireLoop n).retire.launched = s.retire.launched ∧
    (s.retireLoop n).retire.stacked = s.retire.stacked ∧ (s.retireLoop n).retire.purged = s.retire.purged
        ∧ (s.retireLoop n).retire.lost = s.retire.lost ∧
    (s.retireLoop n).retire.skipped = s.retire.skipped ∧ (s.retireLoop n).jam = s.jam
        ∧ (s.retireLoop n).mem.windowLength = s.mem.windowLength ∧
    (s.retireLoop n).mem.waiting = s.mem.waiting ∧ (s.retireLoop n).mem.bus = s.mem.bus ∧ (s.retireLoop n).ctl = s.ctl
        ∧ (s.retireLoop n).config = s.config ∧
    (s.retireLoop n).pending = s.pending ∧ (s.retireLoop n).out = s.out
        ∧ (s.retireLoop n).freeIndex = s.freeIndex := by
  induction n generalizing s with
  | zero => simp [retireLoop]
  | succ n ih =>
    rw [retireLoop]
    cases h : s.retireMove with
    | none => simp
    | some s' => simp only [ih]; exact retireMove_frame s s' h

end Sys2Proof.Machine.State
end

