-- ==== Sys2Proof/Laws/FrameEvents.lean ====
section
/-! SUPPORT. What the longer operations, up to the end of an event, leave unchanged. -/

namespace Sys2Proof.Machine.State

set_option Elab.async false

@[simp] theorem retireAll_frame (s : State) : (retireAll s).transport = s.transport ∧ (retireAll s).clock = s.clock
    ∧ (retireAll s).fetch.pos = s.fetch.pos ∧ (retireAll s).fetch.stack = s.fetch.stack
    ∧ (retireAll s).fetch.outer = s.fetch.outer ∧ (retireAll s).fetch.chain = s.fetch.chain
    ∧ (retireAll s).fetch.resync = s.fetch.resync ∧ (retireAll s).fetch.read = s.fetch.read
    ∧ (retireAll s).fetch.rereadAsked = s.fetch.rereadAsked ∧ (retireAll s).fetch.nextId = s.fetch.nextId
    ∧ (retireAll s).mail.bins = s.mail.bins ∧ (retireAll s).mail.purgeCount = s.mail.purgeCount
    ∧ (retireAll s).mail.purgeFull = s.mail.purgeFull ∧ (retireAll s).mail.binWaitArm = s.mail.binWaitArm
    ∧ (retireAll s).mail.waitingOpen = s.mail.waitingOpen ∧ (retireAll s).mail.nextId = s.mail.nextId
    ∧ (retireAll s).launch.schedule = s.launch.schedule ∧ (retireAll s).launch.candidate = s.launch.candidate
    ∧ (retireAll s).launch.candRead = s.launch.candRead ∧ (retireAll s).launch.emptyCount = s.launch.emptyCount
    ∧ (retireAll s).launch.starvedArm = s.launch.starvedArm ∧ (retireAll s).launch.trayArm = s.launch.trayArm
    ∧ (retireAll s).launch.trays = s.launch.trays ∧ (retireAll s).track = s.track ∧ (retireAll s).exit = s.exit
    ∧ (retireAll s).retire.launched = s.retire.launched ∧ (retireAll s).retire.stacked = s.retire.stacked
    ∧ (retireAll s).retire.purged = s.retire.purged ∧ (retireAll s).retire.lost = s.retire.lost
    ∧ (retireAll s).retire.skipped = s.retire.skipped ∧ (retireAll s).jam = s.jam
    ∧ (retireAll s).mem.windowLength = s.mem.windowLength ∧ (retireAll s).mem.waiting = s.mem.waiting
    ∧ (retireAll s).mem.bus = s.mem.bus ∧ (retireAll s).ctl = s.ctl ∧ (retireAll s).config = s.config
    ∧ (retireAll s).pending = s.pending ∧ (retireAll s).out = s.out ∧ (retireAll s).freeIndex = s.freeIndex := by
  simp [retireAll]

@[simp] theorem decideLaunch_frame (a0 : Installed) (a1 : Word) (s : State) :
    (decideLaunch a0 a1 s).transport.count = s.transport.count
    ∧ (decideLaunch a0 a1 s).transport.sensors = s.transport.sensors
    ∧ (decideLaunch a0 a1 s).transport.ref = s.transport.ref
    ∧ (decideLaunch a0 a1 s).transport.below = s.transport.below
    ∧ (decideLaunch a0 a1 s).transport.allInBand = s.transport.allInBand
    ∧ (decideLaunch a0 a1 s).transport.samplePeriod = s.transport.samplePeriod
    ∧ (decideLaunch a0 a1 s).clock.pitch = s.clock.pitch ∧ (decideLaunch a0 a1 s).clock.boundary = s.clock.boundary
    ∧ (decideLaunch a0 a1 s).clock.loopUnusable = s.clock.loopUnusable
    ∧ (decideLaunch a0 a1 s).fetch.pos = s.fetch.pos ∧ (decideLaunch a0 a1 s).fetch.stack = s.fetch.stack
    ∧ (decideLaunch a0 a1 s).fetch.outer = s.fetch.outer ∧ (decideLaunch a0 a1 s).fetch.chain = s.fetch.chain
    ∧ (decideLaunch a0 a1 s).fetch.resync = s.fetch.resync ∧ (decideLaunch a0 a1 s).fetch.read = s.fetch.read
    ∧ (decideLaunch a0 a1 s).fetch.nextId = s.fetch.nextId
    ∧ (decideLaunch a0 a1 s).mail.purgeCount = s.mail.purgeCount
    ∧ (decideLaunch a0 a1 s).mail.purgeFull = s.mail.purgeFull
    ∧ (decideLaunch a0 a1 s).mail.waitingOpen = s.mail.waitingOpen
    ∧ (decideLaunch a0 a1 s).mail.nextId = s.mail.nextId ∧ (decideLaunch a0 a1 s).launch.trays = s.launch.trays
    ∧ (decideLaunch a0 a1 s).launch.wakeAsked = s.launch.wakeAsked
    ∧ (decideLaunch a0 a1 s).track.queues = s.track.queues ∧ (decideLaunch a0 a1 s).track.fifo = s.track.fifo
    ∧ (decideLaunch a0 a1 s).track.d1 = s.track.d1
    ∧ (decideLaunch a0 a1 s).exit = s.exit ∧ (decideLaunch a0 a1 s).retire.step = s.retire.step
    ∧ (decideLaunch a0 a1 s).retire.retired = s.retire.retired
    ∧ (decideLaunch a0 a1 s).retire.stacked = s.retire.stacked
    ∧ (decideLaunch a0 a1 s).retire.purged = s.retire.purged ∧ (decideLaunch a0 a1 s).retire.lost = s.retire.lost
    ∧ (decideLaunch a0 a1 s).retire.batching = s.retire.batching ∧ (decideLaunch a0 a1 s).jam = s.jam
    ∧ (decideLaunch a0 a1 s).mem.windowLength = s.mem.windowLength ∧ (decideLaunch a0 a1 s).mem.queue = s.mem.queue
    ∧ (decideLaunch a0 a1 s).mem.held = s.mem.held ∧ (decideLaunch a0 a1 s).mem.bus = s.mem.bus
    ∧ (decideLaunch a0 a1 s).ctl.area = s.ctl.area ∧ (decideLaunch a0 a1 s).ctl.cmd = s.ctl.cmd
    ∧ (decideLaunch a0 a1 s).ctl.lastCommand = s.ctl.lastCommand
    ∧ (decideLaunch a0 a1 s).ctl.lastOutcome = s.ctl.lastOutcome
    ∧ (decideLaunch a0 a1 s).ctl.validation = s.ctl.validation ∧ (decideLaunch a0 a1 s).ctl.amask = s.ctl.amask
    ∧ (decideLaunch a0 a1 s).ctl.pauseRec = s.ctl.pauseRec ∧ (decideLaunch a0 a1 s).config = s.config
    ∧ (decideLaunch a0 a1 s).pending = s.pending ∧ (decideLaunch a0 a1 s).out = s.out
    ∧ (decideLaunch a0 a1 s).freeIndex = s.freeIndex := by
  simp only [decideLaunch]
  (repeat' split) <;> simp

@[simp] theorem launchDecision_frame (s : State) : (launchDecision s).transport.count = s.transport.count
    ∧ (launchDecision s).transport.sensors = s.transport.sensors ∧ (launchDecision s).transport.ref = s.transport.ref
    ∧ (launchDecision s).transport.below = s.transport.below
    ∧ (launchDecision s).transport.allInBand = s.transport.allInBand
    ∧ (launchDecision s).transport.samplePeriod = s.transport.samplePeriod
    ∧ (launchDecision s).clock.pitch = s.clock.pitch ∧ (launchDecision s).clock.boundary = s.clock.boundary
    ∧ (launchDecision s).clock.loopUnusable = s.clock.loopUnusable ∧ (launchDecision s).fetch.pos = s.fetch.pos
    ∧ (launchDecision s).fetch.stack = s.fetch.stack ∧ (launchDecision s).fetch.outer = s.fetch.outer
    ∧ (launchDecision s).fetch.chain = s.fetch.chain ∧ (launchDecision s).fetch.resync = s.fetch.resync
    ∧ (launchDecision s).fetch.read = s.fetch.read ∧ (launchDecision s).fetch.nextId = s.fetch.nextId
    ∧ (launchDecision s).mail.purgeCount = s.mail.purgeCount ∧ (launchDecision s).mail.purgeFull = s.mail.purgeFull
    ∧ (launchDecision s).mail.waitingOpen = s.mail.waitingOpen ∧ (launchDecision s).mail.nextId = s.mail.nextId
    ∧ (launchDecision s).launch.trays = s.launch.trays ∧ (launchDecision s).launch.wakeAsked = s.launch.wakeAsked
    ∧ (launchDecision s).track.queues = s.track.queues ∧ (launchDecision s).track.fifo = s.track.fifo
    ∧ (launchDecision s).track.d1 = s.track.d1
    ∧ (launchDecision s).exit = s.exit ∧ (launchDecision s).retire.step = s.retire.step
    ∧ (launchDecision s).retire.retired = s.retire.retired ∧ (launchDecision s).retire.stacked = s.retire.stacked
    ∧ (launchDecision s).retire.purged = s.retire.purged ∧ (launchDecision s).retire.lost = s.retire.lost
    ∧ (launchDecision s).retire.batching = s.retire.batching ∧ (launchDecision s).jam = s.jam
    ∧ (launchDecision s).mem.windowLength = s.mem.windowLength ∧ (launchDecision s).mem.queue = s.mem.queue
    ∧ (launchDecision s).mem.held = s.mem.held ∧ (launchDecision s).mem.bus = s.mem.bus
    ∧ (launchDecision s).ctl.area = s.ctl.area ∧ (launchDecision s).ctl.cmd = s.ctl.cmd
    ∧ (launchDecision s).ctl.lastCommand = s.ctl.lastCommand ∧ (launchDecision s).ctl.lastOutcome = s.ctl.lastOutcome
    ∧ (launchDecision s).ctl.validation = s.ctl.validation ∧ (launchDecision s).ctl.amask = s.ctl.amask
    ∧ (launchDecision s).ctl.pauseRec = s.ctl.pauseRec ∧ (launchDecision s).config = s.config
    ∧ (launchDecision s).pending = s.pending ∧ (launchDecision s).out = s.out
    ∧ (launchDecision s).freeIndex = s.freeIndex := by
  simp only [launchDecision]
  (repeat' split) <;> simp

@[simp] theorem evaluateWake_frame (s : State) : (evaluateWake s).transport.count = s.transport.count
    ∧ (evaluateWake s).transport.sensors = s.transport.sensors
    ∧ (evaluateWake s).transport.compares = s.transport.compares
    ∧ (evaluateWake s).transport.speedDeviation = s.transport.speedDeviation ∧ (evaluateWake s).clock = s.clock
    ∧ (evaluateWake s).fetch = s.fetch ∧ (evaluateWake s).mail.purgeCount = s.mail.purgeCount
    ∧ (evaluateWake s).mail.purgeFull = s.mail.purgeFull ∧ (evaluateWake s).mail.waitingOpen = s.mail.waitingOpen
    ∧ (evaluateWake s).mail.nextId = s.mail.nextId ∧ (evaluateWake s).launch.schedule = s.launch.schedule
    ∧ (evaluateWake s).launch.candidate = s.launch.candidate ∧ (evaluateWake s).launch.candRead = s.launch.candRead
    ∧ (evaluateWake s).launch.trays = s.launch.trays ∧ (evaluateWake s).track.sheets = s.track.sheets
    ∧ (evaluateWake s).track.queues = s.track.queues ∧ (evaluateWake s).track.fifo = s.track.fifo
    ∧ (evaluateWake s).track.d1 = s.track.d1 ∧ (evaluateWake s).track.nextId = s.track.nextId
    ∧ (evaluateWake s).exit = s.exit ∧ (evaluateWake s).retire = s.retire ∧ (evaluateWake s).jam = s.jam
    ∧ (evaluateWake s).mem = s.mem ∧ (evaluateWake s).ctl.area = s.ctl.area ∧ (evaluateWake s).ctl.cmd = s.ctl.cmd
    ∧ (evaluateWake s).ctl.lastCommand = s.ctl.lastCommand ∧ (evaluateWake s).ctl.lastOutcome = s.ctl.lastOutcome
    ∧ (evaluateWake s).ctl.validation = s.ctl.validation ∧ (evaluateWake s).ctl.lastSkip = s.ctl.lastSkip
    ∧ (evaluateWake s).ctl.attn = s.ctl.attn ∧ (evaluateWake s).ctl.amask = s.ctl.amask
    ∧ (evaluateWake s).ctl.pauseRec = s.ctl.pauseRec ∧ (evaluateWake s).config = s.config
    ∧ (evaluateWake s).pending = s.pending ∧ (evaluateWake s).out = s.out
    ∧ (evaluateWake s).freeIndex = s.freeIndex := by
  simp only [evaluateWake]
  (repeat' split) <;> simp

@[simp] theorem enterAtSpeed_frame (s : State) : (enterAtSpeed s).transport.count = s.transport.count
    ∧ (enterAtSpeed s).transport.sensors = s.transport.sensors ∧ (enterAtSpeed s).transport.ref = s.transport.ref
    ∧ (enterAtSpeed s).transport.below = s.transport.below
    ∧ (enterAtSpeed s).transport.allInBand = s.transport.allInBand
    ∧ (enterAtSpeed s).transport.samplePeriod = s.transport.samplePeriod
    ∧ (enterAtSpeed s).clock.loopUnusable = s.clock.loopUnusable ∧ (enterAtSpeed s).fetch.pos = s.fetch.pos
    ∧ (enterAtSpeed s).fetch.stack = s.fetch.stack ∧ (enterAtSpeed s).fetch.outer = s.fetch.outer
    ∧ (enterAtSpeed s).fetch.chain = s.fetch.chain ∧ (enterAtSpeed s).fetch.resync = s.fetch.resync
    ∧ (enterAtSpeed s).fetch.read = s.fetch.read ∧ (enterAtSpeed s).fetch.nextId = s.fetch.nextId
    ∧ (enterAtSpeed s).mail.purgeCount = s.mail.purgeCount ∧ (enterAtSpeed s).mail.purgeFull = s.mail.purgeFull
    ∧ (enterAtSpeed s).mail.waitingOpen = s.mail.waitingOpen ∧ (enterAtSpeed s).mail.nextId = s.mail.nextId
    ∧ (enterAtSpeed s).launch.trays = s.launch.trays ∧ (enterAtSpeed s).launch.wakeAsked = s.launch.wakeAsked
    ∧ (enterAtSpeed s).track.queues = s.track.queues ∧ (enterAtSpeed s).track.fifo = s.track.fifo
    ∧ (enterAtSpeed s).track.d1 = s.track.d1
    ∧ (enterAtSpeed s).exit = s.exit ∧ (enterAtSpeed s).retire.step = s.retire.step
    ∧ (enterAtSpeed s).retire.retired = s.retire.retired ∧ (enterAtSpeed s).retire.stacked = s.retire.stacked
    ∧ (enterAtSpeed s).retire.purged = s.retire.purged ∧ (enterAtSpeed s).retire.lost = s.retire.lost
    ∧ (enterAtSpeed s).retire.batching = s.retire.batching ∧ (enterAtSpeed s).jam = s.jam
    ∧ (enterAtSpeed s).mem.windowLength = s.mem.windowLength ∧ (enterAtSpeed s).mem.queue = s.mem.queue
    ∧ (enterAtSpeed s).mem.held = s.mem.held ∧ (enterAtSpeed s).mem.bus = s.mem.bus
    ∧ (enterAtSpeed s).ctl.area = s.ctl.area ∧ (enterAtSpeed s).ctl.cmd = s.ctl.cmd
    ∧ (enterAtSpeed s).ctl.lastCommand = s.ctl.lastCommand ∧ (enterAtSpeed s).ctl.lastOutcome = s.ctl.lastOutcome
    ∧ (enterAtSpeed s).ctl.validation = s.ctl.validation ∧ (enterAtSpeed s).ctl.amask = s.ctl.amask
    ∧ (enterAtSpeed s).ctl.pauseRec = s.ctl.pauseRec ∧ (enterAtSpeed s).config = s.config
    ∧ (enterAtSpeed s).pending = s.pending ∧ (enterAtSpeed s).out = s.out
    ∧ (enterAtSpeed s).freeIndex = s.freeIndex := by
  simp [enterAtSpeed]

@[simp] theorem sampleRunUp_frame (a0 : ConfigBlock) (s : State) :
    (sampleRunUp a0 s).transport.count = s.transport.count
    ∧ (sampleRunUp a0 s).transport.sensors = s.transport.sensors
    ∧ (sampleRunUp a0 s).clock.loopUnusable = s.clock.loopUnusable ∧ (sampleRunUp a0 s).fetch.pos = s.fetch.pos
    ∧ (sampleRunUp a0 s).fetch.stack = s.fetch.stack ∧ (sampleRunUp a0 s).fetch.outer = s.fetch.outer
    ∧ (sampleRunUp a0 s).fetch.chain = s.fetch.chain ∧ (sampleRunUp a0 s).fetch.resync = s.fetch.resync
    ∧ (sampleRunUp a0 s).fetch.read = s.fetch.read ∧ (sampleRunUp a0 s).fetch.nextId = s.fetch.nextId
    ∧ (sampleRunUp a0 s).mail.purgeCount = s.mail.purgeCount ∧ (sampleRunUp a0 s).mail.purgeFull = s.mail.purgeFull
    ∧ (sampleRunUp a0 s).mail.waitingOpen = s.mail.waitingOpen ∧ (sampleRunUp a0 s).mail.nextId = s.mail.nextId
    ∧ (sampleRunUp a0 s).launch.trays = s.launch.trays ∧ (sampleRunUp a0 s).launch.wakeAsked = s.launch.wakeAsked
    ∧ (sampleRunUp a0 s).track.queues = s.track.queues ∧ (sampleRunUp a0 s).track.fifo = s.track.fifo
    ∧ (sampleRunUp a0 s).track.d1 = s.track.d1
    ∧ (sampleRunUp a0 s).exit = s.exit ∧ (sampleRunUp a0 s).retire.step = s.retire.step
    ∧ (sampleRunUp a0 s).retire.retired = s.retire.retired ∧ (sampleRunUp a0 s).retire.stacked = s.retire.stacked
    ∧ (sampleRunUp a0 s).retire.purged = s.retire.purged ∧ (sampleRunUp a0 s).retire.lost = s.retire.lost
    ∧ (sampleRunUp a0 s).retire.batching = s.retire.batching ∧ (sampleRunUp a0 s).jam = s.jam
    ∧ (sampleRunUp a0 s).mem.windowLength = s.mem.windowLength ∧ (sampleRunUp a0 s).mem.queue = s.mem.queue
    ∧ (sampleRunUp a0 s).mem.held = s.mem.held ∧ (sampleRunUp a0 s).mem.bus = s.mem.bus
    ∧ (sampleRunUp a0 s).ctl.area = s.ctl.area ∧ (sampleRunUp a0 s).ctl.cmd = s.ctl.cmd
    ∧ (sampleRunUp a0 s).ctl.lastCommand = s.ctl.lastCommand ∧ (sampleRunUp a0 s).ctl.lastOutcome = s.ctl.lastOutcome
    ∧ (sampleRunUp a0 s).ctl.validation = s.ctl.validation ∧ (sampleRunUp a0 s).ctl.amask = s.ctl.amask
    ∧ (sampleRunUp a0 s).ctl.pauseRec = s.ctl.pauseRec ∧ (sampleRunUp a0 s).config = s.config
    ∧ (sampleRunUp a0 s).pending = s.pending ∧ (sampleRunUp a0 s).out = s.out
    ∧ (sampleRunUp a0 s).freeIndex = s.freeIndex := by
  simp only [sampleRunUp]
  (repeat' split) <;> simp

@[simp] theorem settleBooks_frame (s : State) : (settleBooks s).transport = s.transport
    ∧ (settleBooks s).clock = s.clock ∧ (settleBooks s).fetch.pos = s.fetch.pos
    ∧ (settleBooks s).fetch.stack = s.fetch.stack ∧ (settleBooks s).fetch.outer = s.fetch.outer
    ∧ (settleBooks s).fetch.chain = s.fetch.chain ∧ (settleBooks s).fetch.resync = s.fetch.resync
    ∧ (settleBooks s).fetch.read = s.fetch.read ∧ (settleBooks s).fetch.rereadAsked = s.fetch.rereadAsked
    ∧ (settleBooks s).fetch.nextId = s.fetch.nextId ∧ (settleBooks s).mail.bins = s.mail.bins
    ∧ (settleBooks s).mail.purgeCount = s.mail.purgeCount ∧ (settleBooks s).mail.purgeFull = s.mail.purgeFull
    ∧ (settleBooks s).mail.binWaitArm = s.mail.binWaitArm ∧ (settleBooks s).mail.waitingOpen = s.mail.waitingOpen
    ∧ (settleBooks s).mail.nextId = s.mail.nextId ∧ (settleBooks s).launch.schedule = s.launch.schedule
    ∧ (settleBooks s).launch.candidate = s.launch.candidate ∧ (settleBooks s).launch.candRead = s.launch.candRead
    ∧ (settleBooks s).launch.emptyCount = s.launch.emptyCount
    ∧ (settleBooks s).launch.starvedArm = s.launch.starvedArm ∧ (settleBooks s).launch.trayArm = s.launch.trayArm
    ∧ (settleBooks s).launch.trays = s.launch.trays ∧ (settleBooks s).track = s.track ∧ (settleBooks s).exit = s.exit
    ∧ (settleBooks s).retire.launched = s.retire.launched ∧ (settleBooks s).retire.stacked = s.retire.stacked
    ∧ (settleBooks s).retire.purged = s.retire.purged ∧ (settleBooks s).retire.lost = s.retire.lost
    ∧ (settleBooks s).retire.skipped = s.retire.skipped ∧ (settleBooks s).jam.seq = s.jam.seq
    ∧ (settleBooks s).jam.primary = s.jam.primary ∧ (settleBooks s).jam.secondary = s.jam.secondary
    ∧ (settleBooks s).jam.lastSecondary = s.jam.lastSecondary ∧ (settleBooks s).jam.stranded = s.jam.stranded
    ∧ (settleBooks s).jam.interrupted = s.jam.interrupted ∧ (settleBooks s).jam.mainResume = s.jam.mainResume
    ∧ (settleBooks s).jam.mainResync = s.jam.mainResync ∧ (settleBooks s).jam.recoveryResume = s.jam.recoveryResume
    ∧ (settleBooks s).jam.recoveryPending = s.jam.recoveryPending
    ∧ (settleBooks s).mem.windowLength = s.mem.windowLength ∧ (settleBooks s).mem.waiting = s.mem.waiting
    ∧ (settleBooks s).mem.bus = s.mem.bus ∧ (settleBooks s).ctl = s.ctl ∧ (settleBooks s).config = s.config
    ∧ (settleBooks s).pending = s.pending ∧ (settleBooks s).out = s.out
    ∧ (settleBooks s).freeIndex = s.freeIndex := by
  simp [settleBooks]

@[simp] theorem settleLost_frame (s : State) (a1 : Sheet) : (settleLost s a1).transport.count = s.transport.count
    ∧ (settleLost s a1).transport.run = s.transport.run ∧ (settleLost s a1).transport.state = s.transport.state
    ∧ (settleLost s a1).transport.heldRunUp = s.transport.heldRunUp
    ∧ (settleLost s a1).transport.sensors = s.transport.sensors ∧ (settleLost s a1).transport.ref = s.transport.ref
    ∧ (settleLost s a1).transport.below = s.transport.below
    ∧ (settleLost s a1).transport.allInBand = s.transport.allInBand
    ∧ (settleLost s a1).transport.runUpTimer = s.transport.runUpTimer
    ∧ (settleLost s a1).transport.samplePeriod = s.transport.samplePeriod
    ∧ (settleLost s a1).transport.speedDeviation = s.transport.speedDeviation
    ∧ (settleLost s a1).clock.running = s.clock.running ∧ (settleLost s a1).clock.pitch = s.clock.pitch
    ∧ (settleLost s a1).clock.boundary = s.clock.boundary ∧ (settleLost s a1).clock.lastFinal = s.clock.lastFinal
    ∧ (settleLost s a1).clock.loopUnusable = s.clock.loopUnusable ∧ (settleLost s a1).fetch.pos = s.fetch.pos
    ∧ (settleLost s a1).fetch.stack = s.fetch.stack ∧ (settleLost s a1).fetch.outer = s.fetch.outer
    ∧ (settleLost s a1).fetch.chain = s.fetch.chain ∧ (settleLost s a1).fetch.resync = s.fetch.resync
    ∧ (settleLost s a1).fetch.read = s.fetch.read ∧ (settleLost s a1).fetch.rereadAsked = s.fetch.rereadAsked
    ∧ (settleLost s a1).fetch.nextId = s.fetch.nextId ∧ (settleLost s a1).mail.purgeCount = s.mail.purgeCount
    ∧ (settleLost s a1).mail.purgeFull = s.mail.purgeFull ∧ (settleLost s a1).mail.binWaitArm = s.mail.binWaitArm
    ∧ (settleLost s a1).mail.waitingOpen = s.mail.waitingOpen ∧ (settleLost s a1).mail.nextId = s.mail.nextId
    ∧ (settleLost s a1).launch = s.launch ∧ (settleLost s a1).track.tracking = s.track.tracking
    ∧ (settleLost s a1).track.d1 = s.track.d1 ∧ (settleLost s a1).track.nextId = s.track.nextId
    ∧ (settleLost s a1).exit = s.exit ∧ (settleLost s a1).retire.step = s.retire.step
    ∧ (settleLost s a1).retire.retired = s.retire.retired ∧ (settleLost s a1).retire.launched = s.retire.launched
    ∧ (settleLost s a1).retire.stacked = s.retire.stacked ∧ (settleLost s a1).retire.purged = s.retire.purged
    ∧ (settleLost s a1).retire.skipped = s.retire.skipped ∧ (settleLost s a1).retire.batching = s.retire.batching
    ∧ (settleLost s a1).jam.seq = s.jam.seq ∧ (settleLost s a1).jam.primary = s.jam.primary
    ∧ (settleLost s a1).jam.secondary = s.jam.secondary ∧ (settleLost s a1).jam.lastSecondary = s.jam.lastSecondary
    ∧ (settleLost s a1).jam.interrupted = s.jam.interrupted ∧ (settleLost s a1).jam.mainResume = s.jam.mainResume
    ∧ (settleLost s a1).jam.mainResync = s.jam.mainResync
    ∧ (settleLost s a1).jam.recoveryResume = s.jam.recoveryResume
    ∧ (settleLost s a1).jam.recoveryPending = s.jam.recoveryPending
    ∧ (settleLost s a1).jam.recordDue = s.jam.recordDue ∧ (settleLost s a1).jam.recordIssued = s.jam.recordIssued
    ∧ (settleLost s a1).mem = s.mem ∧ (settleLost s a1).ctl = s.ctl ∧ (settleLost s a1).config = s.config
    ∧ (settleLost s a1).pending = s.pending ∧ (settleLost s a1).out = s.out
    ∧ (settleLost s a1).freeIndex = s.freeIndex := by
  simp [settleLost]

@[simp] theorem settleAllLost_frame (s : State) : (settleAllLost s).transport.count = s.transport.count
    ∧ (settleAllLost s).transport.run = s.transport.run ∧ (settleAllLost s).transport.state = s.transport.state
    ∧ (settleAllLost s).transport.heldRunUp = s.transport.heldRunUp
    ∧ (settleAllLost s).transport.sensors = s.transport.sensors ∧ (settleAllLost s).transport.ref = s.transport.ref
    ∧ (settleAllLost s).transport.below = s.transport.below
    ∧ (settleAllLost s).transport.allInBand = s.transport.allInBand
    ∧ (settleAllLost s).transport.runUpTimer = s.transport.runUpTimer
    ∧ (settleAllLost s).transport.samplePeriod = s.transport.samplePeriod
    ∧ (settleAllLost s).transport.speedDeviation = s.transport.speedDeviation
    ∧ (settleAllLost s).clock.running = s.clock.running ∧ (settleAllLost s).clock.pitch = s.clock.pitch
    ∧ (settleAllLost s).clock.boundary = s.clock.boundary ∧ (settleAllLost s).clock.lastFinal = s.clock.lastFinal
    ∧ (settleAllLost s).clock.loopUnusable = s.clock.loopUnusable ∧ (settleAllLost s).fetch.pos = s.fetch.pos
    ∧ (settleAllLost s).fetch.stack = s.fetch.stack ∧ (settleAllLost s).fetch.outer = s.fetch.outer
    ∧ (settleAllLost s).fetch.chain = s.fetch.chain ∧ (settleAllLost s).fetch.resync = s.fetch.resync
    ∧ (settleAllLost s).fetch.read = s.fetch.read ∧ (settleAllLost s).fetch.rereadAsked = s.fetch.rereadAsked
    ∧ (settleAllLost s).fetch.nextId = s.fetch.nextId ∧ (settleAllLost s).mail.purgeCount = s.mail.purgeCount
    ∧ (settleAllLost s).mail.purgeFull = s.mail.purgeFull ∧ (settleAllLost s).mail.binWaitArm = s.mail.binWaitArm
    ∧ (settleAllLost s).mail.waitingOpen = s.mail.waitingOpen ∧ (settleAllLost s).mail.nextId = s.mail.nextId
    ∧ (settleAllLost s).launch = s.launch ∧ (settleAllLost s).track.tracking = s.track.tracking
    ∧ (settleAllLost s).track.d1 = s.track.d1 ∧ (settleAllLost s).track.nextId = s.track.nextId
    ∧ (settleAllLost s).exit = s.exit ∧ (settleAllLost s).retire.step = s.retire.step
    ∧ (settleAllLost s).retire.retired = s.retire.retired ∧ (settleAllLost s).retire.launched = s.retire.launched
    ∧ (settleAllLost s).retire.stacked = s.retire.stacked ∧ (settleAllLost s).retire.purged = s.retire.purged
    ∧ (settleAllLost s).retire.skipped = s.retire.skipped ∧ (settleAllLost s).retire.batching = s.retire.batching
    ∧ (settleAllLost s).jam.seq = s.jam.seq ∧ (settleAllLost s).jam.primary = s.jam.primary
    ∧ (settleAllLost s).jam.secondary = s.jam.secondary ∧ (settleAllLost s).jam.lastSecondary = s.jam.lastSecondary
    ∧ (settleAllLost s).jam.interrupted = s.jam.interrupted ∧ (settleAllLost s).jam.mainResume = s.jam.mainResume
    ∧ (settleAllLost s).jam.mainResync = s.jam.mainResync
    ∧ (settleAllLost s).jam.recoveryResume = s.jam.recoveryResume
    ∧ (settleAllLost s).jam.recoveryPending = s.jam.recoveryPending
    ∧ (settleAllLost s).jam.recordDue = s.jam.recordDue ∧ (settleAllLost s).jam.recordIssued = s.jam.recordIssued
    ∧ (settleAllLost s).mem = s.mem ∧ (settleAllLost s).ctl = s.ctl ∧ (settleAllLost s).config = s.config
    ∧ (settleAllLost s).pending = s.pending ∧ (settleAllLost s).out = s.out
    ∧ (settleAllLost s).freeIndex = s.freeIndex := by
  simp [settleAllLost]

@[simp] theorem jammedEntry_frame (s : State) : (jammedEntry s).transport.count = s.transport.count
    ∧ (jammedEntry s).transport.sensors = s.transport.sensors ∧ (jammedEntry s).transport.ref = s.transport.ref
    ∧ (jammedEntry s).transport.below = s.transport.below
    ∧ (jammedEntry s).transport.allInBand = s.transport.allInBand
    ∧ (jammedEntry s).transport.samplePeriod = s.transport.samplePeriod ∧ (jammedEntry s).clock.pitch = s.clock.pitch
    ∧ (jammedEntry s).clock.boundary = s.clock.boundary ∧ (jammedEntry s).clock.lastFinal = s.clock.lastFinal
    ∧ (jammedEntry s).clock.loopUnusable = s.clock.loopUnusable ∧ (jammedEntry s).fetch.chain = s.fetch.chain
    ∧ (jammedEntry s).fetch.resync = s.fetch.resync ∧ (jammedEntry s).fetch.nextId = s.fetch.nextId
    ∧ (jammedEntry s).mail.purgeCount = s.mail.purgeCount ∧ (jammedEntry s).mail.purgeFull = s.mail.purgeFull
    ∧ (jammedEntry s).mail.binWaitArm = s.mail.binWaitArm ∧ (jammedEntry s).mail.nextId = s.mail.nextId
    ∧ (jammedEntry s).launch.schedule = s.launch.schedule ∧ (jammedEntry s).launch.candRead = s.launch.candRead
    ∧ (jammedEntry s).launch.emptyCount = s.launch.emptyCount
    ∧ (jammedEntry s).launch.starvedArm = s.launch.starvedArm ∧ (jammedEntry s).launch.trayArm = s.launch.trayArm
    ∧ (jammedEntry s).launch.trays = s.launch.trays ∧ (jammedEntry s).launch.wakeAsked = s.launch.wakeAsked
    ∧ (jammedEntry s).track.d1 = s.track.d1 ∧ (jammedEntry s).track.nextId = s.track.nextId
    ∧ (jammedEntry s).exit = s.exit ∧ (jammedEntry s).retire.step = s.retire.step
    ∧ (jammedEntry s).retire.retired = s.retire.retired ∧ (jammedEntry s).retire.launched = s.retire.launched
    ∧ (jammedEntry s).retire.stacked = s.retire.stacked ∧ (jammedEntry s).retire.purged = s.retire.purged
    ∧ (jammedEntry s).retire.skipped = s.retire.skipped ∧ (jammedEntry s).retire.batching = s.retire.batching
    ∧ (jammedEntry s).jam.seq = s.jam.seq ∧ (jammedEntry s).jam.primary = s.jam.primary
    ∧ (jammedEntry s).jam.secondary = s.jam.secondary ∧ (jammedEntry s).jam.lastSecondary = s.jam.lastSecondary
    ∧ (jammedEntry s).jam.recoveryPending = s.jam.recoveryPending
    ∧ (jammedEntry s).mem.windowLength = s.mem.windowLength ∧ (jammedEntry s).mem.queue = s.mem.queue
    ∧ (jammedEntry s).mem.waiting = s.mem.waiting ∧ (jammedEntry s).mem.bus = s.mem.bus
    ∧ (jammedEntry s).ctl.area = s.ctl.area ∧ (jammedEntry s).ctl.cmd = s.ctl.cmd
    ∧ (jammedEntry s).ctl.lastCommand = s.ctl.lastCommand ∧ (jammedEntry s).ctl.lastOutcome = s.ctl.lastOutcome
    ∧ (jammedEntry s).ctl.validation = s.ctl.validation ∧ (jammedEntry s).ctl.lastSkip = s.ctl.lastSkip
    ∧ (jammedEntry s).ctl.attn = s.ctl.attn ∧ (jammedEntry s).ctl.amask = s.ctl.amask
    ∧ (jammedEntry s).ctl.pauseRec = s.ctl.pauseRec ∧ (jammedEntry s).config = s.config
    ∧ (jammedEntry s).pending = s.pending ∧ (jammedEntry s).out = s.out
    ∧ (jammedEntry s).freeIndex = s.freeIndex := by
  simp [jammedEntry]

@[simp] theorem endOfDrain_frame (s : State) : (endOfDrain s).transport.count = s.transport.count
    ∧ (endOfDrain s).transport.sensors = s.transport.sensors ∧ (endOfDrain s).transport.ref = s.transport.ref
    ∧ (endOfDrain s).transport.below = s.transport.below ∧ (endOfDrain s).transport.allInBand = s.transport.allInBand
    ∧ (endOfDrain s).transport.samplePeriod = s.transport.samplePeriod ∧ (endOfDrain s).clock.pitch = s.clock.pitch
    ∧ (endOfDrain s).clock.boundary = s.clock.boundary ∧ (endOfDrain s).clock.lastFinal = s.clock.lastFinal
    ∧ (endOfDrain s).clock.loopUnusable = s.clock.loopUnusable ∧ (endOfDrain s).fetch.chain = s.fetch.chain
    ∧ (endOfDrain s).fetch.resync = s.fetch.resync ∧ (endOfDrain s).fetch.nextId = s.fetch.nextId
    ∧ (endOfDrain s).mail.purgeCount = s.mail.purgeCount ∧ (endOfDrain s).mail.purgeFull = s.mail.purgeFull
    ∧ (endOfDrain s).mail.binWaitArm = s.mail.binWaitArm ∧ (endOfDrain s).mail.nextId = s.mail.nextId
    ∧ (endOfDrain s).launch.schedule = s.launch.schedule ∧ (endOfDrain s).launch.candRead = s.launch.candRead
    ∧ (endOfDrain s).launch.emptyCount = s.launch.emptyCount ∧ (endOfDrain s).launch.starvedArm = s.launch.starvedArm
    ∧ (endOfDrain s).launch.trayArm = s.launch.trayArm ∧ (endOfDrain s).launch.trays = s.launch.trays
    ∧ (endOfDrain s).launch.wakeAsked = s.launch.wakeAsked ∧ (endOfDrain s).track.d1 = s.track.d1
    ∧ (endOfDrain s).track.nextId = s.track.nextId ∧ (endOfDrain s).exit = s.exit
    ∧ (endOfDrain s).retire.step = s.retire.step ∧ (endOfDrain s).retire.retired = s.retire.retired
    ∧ (endOfDrain s).retire.launched = s.retire.launched ∧ (endOfDrain s).retire.stacked = s.retire.stacked
    ∧ (endOfDrain s).retire.purged = s.retire.purged ∧ (endOfDrain s).retire.skipped = s.retire.skipped
    ∧ (endOfDrain s).retire.batching = s.retire.batching ∧ (endOfDrain s).jam.seq = s.jam.seq
    ∧ (endOfDrain s).jam.primary = s.jam.primary ∧ (endOfDrain s).jam.secondary = s.jam.secondary
    ∧ (endOfDrain s).jam.lastSecondary = s.jam.lastSecondary
    ∧ (endOfDrain s).jam.recoveryPending = s.jam.recoveryPending
    ∧ (endOfDrain s).mem.windowLength = s.mem.windowLength ∧ (endOfDrain s).mem.queue = s.mem.queue
    ∧ (endOfDrain s).mem.waiting = s.mem.waiting ∧ (endOfDrain s).mem.bus = s.mem.bus
    ∧ (endOfDrain s).ctl.area = s.ctl.area ∧ (endOfDrain s).ctl.cmd = s.ctl.cmd
    ∧ (endOfDrain s).ctl.lastCommand = s.ctl.lastCommand ∧ (endOfDrain s).ctl.lastOutcome = s.ctl.lastOutcome
    ∧ (endOfDrain s).ctl.validation = s.ctl.validation ∧ (endOfDrain s).ctl.lastSkip = s.ctl.lastSkip
    ∧ (endOfDrain s).ctl.attn = s.ctl.attn ∧ (endOfDrain s).ctl.amask = s.ctl.amask
    ∧ (endOfDrain s).ctl.pauseRec = s.ctl.pauseRec ∧ (endOfDrain s).config = s.config
    ∧ (endOfDrain s).pending = s.pending ∧ (endOfDrain s).out = s.out ∧ (endOfDrain s).freeIndex = s.freeIndex := by
  simp only [endOfDrain]
  (repeat' split) <;> simp

@[simp] theorem primaryJam_frame (a0 : Report) (s : State) : (primaryJam a0 s).transport.count = s.transport.count
    ∧ (primaryJam a0 s).transport.sensors = s.transport.sensors ∧ (primaryJam a0 s).transport.ref = s.transport.ref
    ∧ (primaryJam a0 s).transport.below = s.transport.below
    ∧ (primaryJam a0 s).transport.allInBand = s.transport.allInBand
    ∧ (primaryJam a0 s).transport.samplePeriod = s.transport.samplePeriod
    ∧ (primaryJam a0 s).clock.pitch = s.clock.pitch ∧ (primaryJam a0 s).clock.boundary = s.clock.boundary
    ∧ (primaryJam a0 s).clock.lastFinal = s.clock.lastFinal
    ∧ (primaryJam a0 s).clock.loopUnusable = s.clock.loopUnusable ∧ (primaryJam a0 s).fetch.chain = s.fetch.chain
    ∧ (primaryJam a0 s).fetch.resync = s.fetch.resync ∧ (primaryJam a0 s).fetch.nextId = s.fetch.nextId
    ∧ (primaryJam a0 s).mail.purgeCount = s.mail.purgeCount ∧ (primaryJam a0 s).mail.purgeFull = s.mail.purgeFull
    ∧ (primaryJam a0 s).mail.binWaitArm = s.mail.binWaitArm ∧ (primaryJam a0 s).mail.nextId = s.mail.nextId
    ∧ (primaryJam a0 s).launch.candRead = s.launch.candRead
    ∧ (primaryJam a0 s).launch.emptyCount = s.launch.emptyCount
    ∧ (primaryJam a0 s).launch.starvedArm = s.launch.starvedArm ∧ (primaryJam a0 s).launch.trayArm = s.launch.trayArm
    ∧ (primaryJam a0 s).launch.trays = s.launch.trays ∧ (primaryJam a0 s).launch.wakeAsked = s.launch.wakeAsked
    ∧ (primaryJam a0 s).track.d1 = s.track.d1 ∧ (primaryJam a0 s).track.nextId = s.track.nextId
    ∧ (primaryJam a0 s).exit = s.exit ∧ (primaryJam a0 s).retire.step = s.retire.step
    ∧ (primaryJam a0 s).retire.retired = s.retire.retired ∧ (primaryJam a0 s).retire.stacked = s.retire.stacked
    ∧ (primaryJam a0 s).retire.purged = s.retire.purged ∧ (primaryJam a0 s).retire.skipped = s.retire.skipped
    ∧ (primaryJam a0 s).retire.batching = s.retire.batching
    ∧ (primaryJam a0 s).jam.recoveryPending = s.jam.recoveryPending
    ∧ (primaryJam a0 s).mem.windowLength = s.mem.windowLength ∧ (primaryJam a0 s).mem.waiting = s.mem.waiting
    ∧ (primaryJam a0 s).mem.bus = s.mem.bus ∧ (primaryJam a0 s).ctl.area = s.ctl.area
    ∧ (primaryJam a0 s).ctl.cmd = s.ctl.cmd ∧ (primaryJam a0 s).ctl.lastCommand = s.ctl.lastCommand
    ∧ (primaryJam a0 s).ctl.lastOutcome = s.ctl.lastOutcome ∧ (primaryJam a0 s).ctl.validation = s.ctl.validation
    ∧ (primaryJam a0 s).ctl.lastSkip = s.ctl.lastSkip ∧ (primaryJam a0 s).ctl.amask = s.ctl.amask
    ∧ (primaryJam a0 s).config = s.config ∧ (primaryJam a0 s).pending = s.pending ∧ (primaryJam a0 s).out = s.out
    ∧ (primaryJam a0 s).freeIndex = s.freeIndex := by
  simp [primaryJam]

@[simp] theorem secondaryJam_frame (a0 : Report) (s : State) : (secondaryJam a0 s).transport.count = s.transport.count
    ∧ (secondaryJam a0 s).transport.sensors = s.transport.sensors
    ∧ (secondaryJam a0 s).transport.ref = s.transport.ref ∧ (secondaryJam a0 s).transport.below = s.transport.below
    ∧ (secondaryJam a0 s).transport.allInBand = s.transport.allInBand
    ∧ (secondaryJam a0 s).transport.samplePeriod = s.transport.samplePeriod
    ∧ (secondaryJam a0 s).clock.pitch = s.clock.pitch ∧ (secondaryJam a0 s).clock.boundary = s.clock.boundary
    ∧ (secondaryJam a0 s).clock.lastFinal = s.clock.lastFinal
    ∧ (secondaryJam a0 s).clock.loopUnusable = s.clock.loopUnusable ∧ (secondaryJam a0 s).fetch.chain = s.fetch.chain
    ∧ (secondaryJam a0 s).fetch.resync = s.fetch.resync ∧ (secondaryJam a0 s).fetch.nextId = s.fetch.nextId
    ∧ (secondaryJam a0 s).mail.purgeCount = s.mail.purgeCount ∧ (secondaryJam a0 s).mail.purgeFull = s.mail.purgeFull
    ∧ (secondaryJam a0 s).mail.binWaitArm = s.mail.binWaitArm ∧ (secondaryJam a0 s).mail.nextId = s.mail.nextId
    ∧ (secondaryJam a0 s).launch.schedule = s.launch.schedule
    ∧ (secondaryJam a0 s).launch.candRead = s.launch.candRead
    ∧ (secondaryJam a0 s).launch.emptyCount = s.launch.emptyCount
    ∧ (secondaryJam a0 s).launch.starvedArm = s.launch.starvedArm
    ∧ (secondaryJam a0 s).launch.trayArm = s.launch.trayArm ∧ (secondaryJam a0 s).launch.trays = s.launch.trays
    ∧ (secondaryJam a0 s).launch.wakeAsked = s.launch.wakeAsked ∧ (secondaryJam a0 s).track.d1 = s.track.d1
    ∧ (secondaryJam a0 s).track.nextId = s.track.nextId ∧ (secondaryJam a0 s).exit = s.exit
    ∧ (secondaryJam a0 s).retire.step = s.retire.step ∧ (secondaryJam a0 s).retire.retired = s.retire.retired
    ∧ (secondaryJam a0 s).retire.launched = s.retire.launched ∧ (secondaryJam a0 s).retire.stacked = s.retire.stacked
    ∧ (secondaryJam a0 s).retire.purged = s.retire.purged ∧ (secondaryJam a0 s).retire.skipped = s.retire.skipped
    ∧ (secondaryJam a0 s).retire.batching = s.retire.batching ∧ (secondaryJam a0 s).jam.seq = s.jam.seq
    ∧ (secondaryJam a0 s).jam.primary = s.jam.primary
    ∧ (secondaryJam a0 s).jam.recoveryPending = s.jam.recoveryPending
    ∧ (secondaryJam a0 s).mem.windowLength = s.mem.windowLength ∧ (secondaryJam a0 s).mem.queue = s.mem.queue
    ∧ (secondaryJam a0 s).mem.waiting = s.mem.waiting ∧ (secondaryJam a0 s).mem.bus = s.mem.bus
    ∧ (secondaryJam a0 s).ctl.area = s.ctl.area ∧ (secondaryJam a0 s).ctl.cmd = s.ctl.cmd
    ∧ (secondaryJam a0 s).ctl.lastCommand = s.ctl.lastCommand
    ∧ (secondaryJam a0 s).ctl.lastOutcome = s.ctl.lastOutcome ∧ (secondaryJam a0 s).ctl.validation = s.ctl.validation
    ∧ (secondaryJam a0 s).ctl.lastSkip = s.ctl.lastSkip ∧ (secondaryJam a0 s).ctl.attn = s.ctl.attn
    ∧ (secondaryJam a0 s).ctl.amask = s.ctl.amask ∧ (secondaryJam a0 s).ctl.pauseRec = s.ctl.pauseRec
    ∧ (secondaryJam a0 s).config = s.config ∧ (secondaryJam a0 s).pending = s.pending
    ∧ (secondaryJam a0 s).out = s.out ∧ (secondaryJam a0 s).freeIndex = s.freeIndex := by
  simp [secondaryJam]

@[simp] theorem report_frame (a0 : Report) (s : State) : (report a0 s).transport.count = s.transport.count
    ∧ (report a0 s).transport.sensors = s.transport.sensors ∧ (report a0 s).transport.ref = s.transport.ref
    ∧ (report a0 s).transport.below = s.transport.below ∧ (report a0 s).transport.allInBand = s.transport.allInBand
    ∧ (report a0 s).transport.samplePeriod = s.transport.samplePeriod ∧ (report a0 s).clock.pitch = s.clock.pitch
    ∧ (report a0 s).clock.boundary = s.clock.boundary ∧ (report a0 s).clock.lastFinal = s.clock.lastFinal
    ∧ (report a0 s).clock.loopUnusable = s.clock.loopUnusable ∧ (report a0 s).fetch.chain = s.fetch.chain
    ∧ (report a0 s).fetch.resync = s.fetch.resync ∧ (report a0 s).fetch.nextId = s.fetch.nextId
    ∧ (report a0 s).mail.purgeCount = s.mail.purgeCount ∧ (report a0 s).mail.purgeFull = s.mail.purgeFull
    ∧ (report a0 s).mail.binWaitArm = s.mail.binWaitArm ∧ (report a0 s).mail.nextId = s.mail.nextId
    ∧ (report a0 s).launch.candRead = s.launch.candRead ∧ (report a0 s).launch.emptyCount = s.launch.emptyCount
    ∧ (report a0 s).launch.starvedArm = s.launch.starvedArm ∧ (report a0 s).launch.trayArm = s.launch.trayArm
    ∧ (report a0 s).launch.trays = s.launch.trays ∧ (report a0 s).launch.wakeAsked = s.launch.wakeAsked
    ∧ (report a0 s).track.d1 = s.track.d1 ∧ (report a0 s).track.nextId = s.track.nextId ∧ (report a0 s).exit = s.exit
    ∧ (report a0 s).retire.step = s.retire.step ∧ (report a0 s).retire.retired = s.retire.retired
    ∧ (report a0 s).retire.stacked = s.retire.stacked ∧ (report a0 s).retire.purged = s.retire.purged
    ∧ (report a0 s).retire.skipped = s.retire.skipped ∧ (report a0 s).retire.batching = s.retire.batching
    ∧ (report a0 s).jam.recoveryPending = s.jam.recoveryPending ∧ (report a0 s).mem.windowLength = s.mem.windowLength
    ∧ (report a0 s).mem.waiting = s.mem.waiting ∧ (report a0 s).mem.bus = s.mem.bus
    ∧ (report a0 s).ctl.area = s.ctl.area ∧ (report a0 s).ctl.cmd = s.ctl.cmd
    ∧ (report a0 s).ctl.lastCommand = s.ctl.lastCommand ∧ (report a0 s).ctl.lastOutcome = s.ctl.lastOutcome
    ∧ (report a0 s).ctl.validation = s.ctl.validation ∧ (report a0 s).ctl.lastSkip = s.ctl.lastSkip
    ∧ (report a0 s).ctl.amask = s.ctl.amask ∧ (report a0 s).config = s.config ∧ (report a0 s).pending = s.pending
    ∧ (report a0 s).out = s.out ∧ (report a0 s).freeIndex = s.freeIndex := by
  simp only [report]
  (repeat' split) <;> simp

@[simp] theorem pathFault_frame (a0 : Cause) (a1 : Checkpoint) (a2 : Option Nat) (a3 : PerSection Pos) (s : State) :
    (pathFault a0 a1 a2 a3 s).transport.count = s.transport.count
    ∧ (pathFault a0 a1 a2 a3 s).transport.sensors = s.transport.sensors
    ∧ (pathFault a0 a1 a2 a3 s).transport.ref = s.transport.ref
    ∧ (pathFault a0 a1 a2 a3 s).transport.below = s.transport.below
    ∧ (pathFault a0 a1 a2 a3 s).transport.allInBand = s.transport.allInBand
    ∧ (pathFault a0 a1 a2 a3 s).transport.samplePeriod = s.transport.samplePeriod
    ∧ (pathFault a0 a1 a2 a3 s).clock.pitch = s.clock.pitch
    ∧ (pathFault a0 a1 a2 a3 s).clock.boundary = s.clock.boundary
    ∧ (pathFault a0 a1 a2 a3 s).clock.lastFinal = s.clock.lastFinal
    ∧ (pathFault a0 a1 a2 a3 s).clock.loopUnusable = s.clock.loopUnusable
    ∧ (pathFault a0 a1 a2 a3 s).fetch.chain = s.fetch.chain ∧ (pathFault a0 a1 a2 a3 s).fetch.resync = s.fetch.resync
    ∧ (pathFault a0 a1 a2 a3 s).fetch.nextId = s.fetch.nextId
    ∧ (pathFault a0 a1 a2 a3 s).mail.purgeCount = s.mail.purgeCount
    ∧ (pathFault a0 a1 a2 a3 s).mail.purgeFull = s.mail.purgeFull
    ∧ (pathFault a0 a1 a2 a3 s).mail.binWaitArm = s.mail.binWaitArm
    ∧ (pathFault a0 a1 a2 a3 s).mail.nextId = s.mail.nextId
    ∧ (pathFault a0 a1 a2 a3 s).launch.candRead = s.launch.candRead
    ∧ (pathFault a0 a1 a2 a3 s).launch.emptyCount = s.launch.emptyCount
    ∧ (pathFault a0 a1 a2 a3 s).launch.starvedArm = s.launch.starvedArm
    ∧ (pathFault a0 a1 a2 a3 s).launch.trayArm = s.launch.trayArm
    ∧ (pathFault a0 a1 a2 a3 s).launch.trays = s.launch.trays
    ∧ (pathFault a0 a1 a2 a3 s).launch.wakeAsked = s.launch.wakeAsked
    ∧ (pathFault a0 a1 a2 a3 s).track.d1 = s.track.d1 ∧ (pathFault a0 a1 a2 a3 s).track.nextId = s.track.nextId
    ∧ (pathFault a0 a1 a2 a3 s).exit = s.exit ∧ (pathFault a0 a1 a2 a3 s).retire.step = s.retire.step
    ∧ (pathFault a0 a1 a2 a3 s).retire.retired = s.retire.retired
    ∧ (pathFault a0 a1 a2 a3 s).retire.stacked = s.retire.stacked
    ∧ (pathFault a0 a1 a2 a3 s).retire.purged = s.retire.purged
    ∧ (pathFault a0 a1 a2 a3 s).retire.skipped = s.retire.skipped
    ∧ (pathFault a0 a1 a2 a3 s).retire.batching = s.retire.batching
    ∧ (pathFault a0 a1 a2 a3 s).jam.recoveryPending = s.jam.recoveryPending
    ∧ (pathFault a0 a1 a2 a3 s).mem.windowLength = s.mem.windowLength
    ∧ (pathFault a0 a1 a2 a3 s).mem.waiting = s.mem.waiting ∧ (pathFault a0 a1 a2 a3 s).mem.bus = s.mem.bus
    ∧ (pathFault a0 a1 a2 a3 s).ctl.area = s.ctl.area ∧ (pathFault a0 a1 a2 a3 s).ctl.cmd = s.ctl.cmd
    ∧ (pathFault a0 a1 a2 a3 s).ctl.lastCommand = s.ctl.lastCommand
    ∧ (pathFault a0 a1 a2 a3 s).ctl.lastOutcome = s.ctl.lastOutcome
    ∧ (pathFault a0 a1 a2 a3 s).ctl.validation = s.ctl.validation
    ∧ (pathFault a0 a1 a2 a3 s).ctl.lastSkip = s.ctl.lastSkip ∧ (pathFault a0 a1 a2 a3 s).ctl.amask = s.ctl.amask
    ∧ (pathFault a0 a1 a2 a3 s).config = s.config ∧ (pathFault a0 a1 a2 a3 s).pending = s.pending
    ∧ (pathFault a0 a1 a2 a3 s).out = s.out ∧ (pathFault a0 a1 a2 a3 s).freeIndex = s.freeIndex := by
  simp [pathFault]

@[simp] theorem afterSettlement_frame (a0 : Bool) (s : State) :
    (afterSettlement a0 s).transport.count = s.transport.count
    ∧ (afterSettlement a0 s).transport.sensors = s.transport.sensors
    ∧ (afterSettlement a0 s).transport.ref = s.transport.ref
    ∧ (afterSettlement a0 s).transport.below = s.transport.below
    ∧ (afterSettlement a0 s).transport.allInBand = s.transport.allInBand
    ∧ (afterSettlement a0 s).transport.samplePeriod = s.transport.samplePeriod
    ∧ (afterSettlement a0 s).clock.pitch = s.clock.pitch ∧ (afterSettlement a0 s).clock.boundary = s.clock.boundary
    ∧ (afterSettlement a0 s).clock.lastFinal = s.clock.lastFinal
    ∧ (afterSettlement a0 s).clock.loopUnusable = s.clock.loopUnusable
    ∧ (afterSettlement a0 s).fetch.chain = s.fetch.chain ∧ (afterSettlement a0 s).fetch.resync = s.fetch.resync
    ∧ (afterSettlement a0 s).fetch.nextId = s.fetch.nextId
    ∧ (afterSettlement a0 s).mail.purgeCount = s.mail.purgeCount
    ∧ (afterSettlement a0 s).mail.purgeFull = s.mail.purgeFull
    ∧ (afterSettlement a0 s).mail.binWaitArm = s.mail.binWaitArm ∧ (afterSettlement a0 s).mail.nextId = s.mail.nextId
    ∧ (afterSettlement a0 s).launch.schedule = s.launch.schedule
    ∧ (afterSettlement a0 s).launch.candRead = s.launch.candRead
    ∧ (afterSettlement a0 s).launch.emptyCount = s.launch.emptyCount
    ∧ (afterSettlement a0 s).launch.starvedArm = s.launch.starvedArm
    ∧ (afterSettlement a0 s).launch.trayArm = s.launch.trayArm ∧ (afterSettlement a0 s).launch.trays = s.launch.trays
    ∧ (afterSettlement a0 s).launch.wakeAsked = s.launch.wakeAsked ∧ (afterSettlement a0 s).track.d1 = s.track.d1
    ∧ (afterSettlement a0 s).track.nextId = s.track.nextId ∧ (afterSettlement a0 s).exit = s.exit
    ∧ (afterSettlement a0 s).retire.step = s.retire.step ∧ (afterSettlement a0 s).retire.retired = s.retire.retired
    ∧ (afterSettlement a0 s).retire.launched = s.retire.launched
    ∧ (afterSettlement a0 s).retire.stacked = s.retire.stacked
    ∧ (afterSettlement a0 s).retire.purged = s.retire.purged
    ∧ (afterSettlement a0 s).retire.skipped = s.retire.skipped
    ∧ (afterSettlement a0 s).retire.batching = s.retire.batching ∧ (afterSettlement a0 s).jam.seq = s.jam.seq
    ∧ (afterSettlement a0 s).jam.primary = s.jam.primary ∧ (afterSettlement a0 s).jam.secondary = s.jam.secondary
    ∧ (afterSettlement a0 s).jam.lastSecondary = s.jam.lastSecondary
    ∧ (afterSettlement a0 s).jam.recoveryPending = s.jam.recoveryPending
    ∧ (afterSettlement a0 s).mem.windowLength = s.mem.windowLength ∧ (afterSettlement a0 s).mem.queue = s.mem.queue
    ∧ (afterSettlement a0 s).mem.waiting = s.mem.waiting ∧ (afterSettlement a0 s).mem.bus = s.mem.bus
    ∧ (afterSettlement a0 s).ctl.area = s.ctl.area ∧ (afterSettlement a0 s).ctl.cmd = s.ctl.cmd
    ∧ (afterSettlement a0 s).ctl.lastCommand = s.ctl.lastCommand
    ∧ (afterSettlement a0 s).ctl.lastOutcome = s.ctl.lastOutcome
    ∧ (afterSettlement a0 s).ctl.validation = s.ctl.validation ∧ (afterSettlement a0 s).ctl.lastSkip = s.ctl.lastSkip
    ∧ (afterSettlement a0 s).ctl.amask = s.ctl.amask ∧ (afterSettlement a0 s).config = s.config
    ∧ (afterSettlement a0 s).pending = s.pending ∧ (afterSettlement a0 s).out = s.out
    ∧ (afterSettlement a0 s).freeIndex = s.freeIndex := by
  simp only [afterSettlement]
  (repeat' split) <;> simp

@[simp] theorem settleSheetOrder_frame (a0 : Sheet) (a1 : Dest) (s : State) :
    (settleSheetOrder a0 a1 s).transport = s.transport
    ∧ (settleSheetOrder a0 a1 s).clock = s.clock ∧ (settleSheetOrder a0 a1 s).fetch.pos = s.fetch.pos
    ∧ (settleSheetOrder a0 a1 s).fetch.stack = s.fetch.stack ∧ (settleSheetOrder a0 a1 s).fetch.outer = s.fetch.outer
    ∧ (settleSheetOrder a0 a1 s).fetch.chain = s.fetch.chain
    ∧ (settleSheetOrder a0 a1 s).fetch.resync = s.fetch.resync ∧ (settleSheetOrder a0 a1 s).fetch.read = s.fetch.read
    ∧ (settleSheetOrder a0 a1 s).fetch.rereadAsked = s.fetch.rereadAsked
    ∧ (settleSheetOrder a0 a1 s).fetch.nextId = s.fetch.nextId ∧ (settleSheetOrder a0 a1 s).mail = s.mail
    ∧ (settleSheetOrder a0 a1 s).launch = s.launch ∧ (settleSheetOrder a0 a1 s).track = s.track
    ∧ (settleSheetOrder a0 a1 s).exit = s.exit ∧ (settleSheetOrder a0 a1 s).retire = s.retire
    ∧ (settleSheetOrder a0 a1 s).jam = s.jam ∧ (settleSheetOrder a0 a1 s).mem = s.mem
    ∧ (settleSheetOrder a0 a1 s).ctl = s.ctl ∧ (settleSheetOrder a0 a1 s).config = s.config
    ∧ (settleSheetOrder a0 a1 s).pending = s.pending ∧ (settleSheetOrder a0 a1 s).out = s.out
    ∧ (settleSheetOrder a0 a1 s).freeIndex = s.freeIndex := by
  simp only [settleSheetOrder]
  (repeat' split) <;> simp

@[simp] theorem settleSheet_frame (a0 : Sheet) (a1 : Dest) (s : State) :
    (settleSheet a0 a1 s).transport.count = s.transport.count
    ∧ (settleSheet a0 a1 s).transport.sensors = s.transport.sensors
    ∧ (settleSheet a0 a1 s).transport.ref = s.transport.ref
    ∧ (settleSheet a0 a1 s).transport.below = s.transport.below
    ∧ (settleSheet a0 a1 s).transport.allInBand = s.transport.allInBand
    ∧ (settleSheet a0 a1 s).transport.samplePeriod = s.transport.samplePeriod
    ∧ (settleSheet a0 a1 s).clock.pitch = s.clock.pitch ∧ (settleSheet a0 a1 s).clock.boundary = s.clock.boundary
    ∧ (settleSheet a0 a1 s).clock.lastFinal = s.clock.lastFinal
    ∧ (settleSheet a0 a1 s).clock.loopUnusable = s.clock.loopUnusable
    ∧ (settleSheet a0 a1 s).fetch.chain = s.fetch.chain ∧ (settleSheet a0 a1 s).fetch.resync = s.fetch.resync
    ∧ (settleSheet a0 a1 s).fetch.nextId = s.fetch.nextId ∧ (settleSheet a0 a1 s).mail.binWaitArm = s.mail.binWaitArm
    ∧ (settleSheet a0 a1 s).mail.nextId = s.mail.nextId ∧ (settleSheet a0 a1 s).launch.schedule = s.launch.schedule
    ∧ (settleSheet a0 a1 s).launch.candRead = s.launch.candRead
    ∧ (settleSheet a0 a1 s).launch.emptyCount = s.launch.emptyCount
    ∧ (settleSheet a0 a1 s).launch.starvedArm = s.launch.starvedArm
    ∧ (settleSheet a0 a1 s).launch.trayArm = s.launch.trayArm ∧ (settleSheet a0 a1 s).launch.trays = s.launch.trays
    ∧ (settleSheet a0 a1 s).launch.wakeAsked = s.launch.wakeAsked ∧ (settleSheet a0 a1 s).track.d1 = s.track.d1
    ∧ (settleSheet a0 a1 s).track.nextId = s.track.nextId ∧ (settleSheet a0 a1 s).exit = s.exit
    ∧ (settleSheet a0 a1 s).retire.step = s.retire.step ∧ (settleSheet a0 a1 s).retire.retired = s.retire.retired
    ∧ (settleSheet a0 a1 s).retire.launched = s.retire.launched
    ∧ (settleSheet a0 a1 s).retire.skipped = s.retire.skipped
    ∧ (settleSheet a0 a1 s).retire.batching = s.retire.batching ∧ (settleSheet a0 a1 s).jam.seq = s.jam.seq
    ∧ (settleSheet a0 a1 s).jam.primary = s.jam.primary ∧ (settleSheet a0 a1 s).jam.secondary = s.jam.secondary
    ∧ (settleSheet a0 a1 s).jam.lastSecondary = s.jam.lastSecondary
    ∧ (settleSheet a0 a1 s).jam.recoveryPending = s.jam.recoveryPending
    ∧ (settleSheet a0 a1 s).mem.windowLength = s.mem.windowLength ∧ (settleSheet a0 a1 s).mem.queue = s.mem.queue
    ∧ (settleSheet a0 a1 s).mem.waiting = s.mem.waiting ∧ (settleSheet a0 a1 s).mem.bus = s.mem.bus
    ∧ (settleSheet a0 a1 s).ctl.area = s.ctl.area ∧ (settleSheet a0 a1 s).ctl.cmd = s.ctl.cmd
    ∧ (settleSheet a0 a1 s).ctl.lastCommand = s.ctl.lastCommand
    ∧ (settleSheet a0 a1 s).ctl.lastOutcome = s.ctl.lastOutcome
    ∧ (settleSheet a0 a1 s).ctl.validation = s.ctl.validation ∧ (settleSheet a0 a1 s).ctl.lastSkip = s.ctl.lastSkip
    ∧ (settleSheet a0 a1 s).ctl.amask = s.ctl.amask ∧ (settleSheet a0 a1 s).config = s.config
    ∧ (settleSheet a0 a1 s).pending = s.pending ∧ (settleSheet a0 a1 s).out = s.out := by
  simp only [settleSheet]
  (repeat' split) <;> simp

@[simp] theorem checkCommitted_frame (a0 : Checkpoint) (a1 : Nat) (a2 : PerSection Pos) (s : State) :
    (checkCommitted a0 a1 a2 s).transport.count = s.transport.count
    ∧ (checkCommitted a0 a1 a2 s).transport.sensors = s.transport.sensors
    ∧ (checkCommitted a0 a1 a2 s).transport.ref = s.transport.ref
    ∧ (checkCommitted a0 a1 a2 s).transport.below = s.transport.below
    ∧ (checkCommitted a0 a1 a2 s).transport.allInBand = s.transport.allInBand
    ∧ (checkCommitted a0 a1 a2 s).transport.samplePeriod = s.transport.samplePeriod
    ∧ (checkCommitted a0 a1 a2 s).clock.pitch = s.clock.pitch
    ∧ (checkCommitted a0 a1 a2 s).clock.boundary = s.clock.boundary
    ∧ (checkCommitted a0 a1 a2 s).clock.lastFinal = s.clock.lastFinal
    ∧ (checkCommitted a0 a1 a2 s).clock.loopUnusable = s.clock.loopUnusable
    ∧ (checkCommitted a0 a1 a2 s).fetch.chain = s.fetch.chain
    ∧ (checkCommitted a0 a1 a2 s).fetch.resync = s.fetch.resync
    ∧ (checkCommitted a0 a1 a2 s).fetch.nextId = s.fetch.nextId
    ∧ (checkCommitted a0 a1 a2 s).mail.purgeCount = s.mail.purgeCount
    ∧ (checkCommitted a0 a1 a2 s).mail.purgeFull = s.mail.purgeFull
    ∧ (checkCommitted a0 a1 a2 s).mail.binWaitArm = s.mail.binWaitArm
    ∧ (checkCommitted a0 a1 a2 s).mail.nextId = s.mail.nextId
    ∧ (checkCommitted a0 a1 a2 s).launch.candRead = s.launch.candRead
    ∧ (checkCommitted a0 a1 a2 s).launch.emptyCount = s.launch.emptyCount
    ∧ (checkCommitted a0 a1 a2 s).launch.starvedArm = s.launch.starvedArm
    ∧ (checkCommitted a0 a1 a2 s).launch.trayArm = s.launch.trayArm
    ∧ (checkCommitted a0 a1 a2 s).launch.trays = s.launch.trays
    ∧ (checkCommitted a0 a1 a2 s).launch.wakeAsked = s.launch.wakeAsked
    ∧ (checkCommitted a0 a1 a2 s).track.d1 = s.track.d1 ∧ (checkCommitted a0 a1 a2 s).track.nextId = s.track.nextId
    ∧ (checkCommitted a0 a1 a2 s).exit = s.exit ∧ (checkCommitted a0 a1 a2 s).retire.step = s.retire.step
    ∧ (checkCommitted a0 a1 a2 s).retire.retired = s.retire.retired
    ∧ (checkCommitted a0 a1 a2 s).retire.stacked = s.retire.stacked
    ∧ (checkCommitted a0 a1 a2 s).retire.purged = s.retire.purged
    ∧ (checkCommitted a0 a1 a2 s).retire.skipped = s.retire.skipped
    ∧ (checkCommitted a0 a1 a2 s).retire.batching = s.retire.batching
    ∧ (checkCommitted a0 a1 a2 s).jam.recoveryPending = s.jam.recoveryPending
    ∧ (checkCommitted a0 a1 a2 s).mem.windowLength = s.mem.windowLength
    ∧ (checkCommitted a0 a1 a2 s).mem.waiting = s.mem.waiting ∧ (checkCommitted a0 a1 a2 s).mem.bus = s.mem.bus
    ∧ (checkCommitted a0 a1 a2 s).ctl.area = s.ctl.area ∧ (checkCommitted a0 a1 a2 s).ctl.cmd = s.ctl.cmd
    ∧ (checkCommitted a0 a1 a2 s).ctl.lastCommand = s.ctl.lastCommand
    ∧ (checkCommitted a0 a1 a2 s).ctl.lastOutcome = s.ctl.lastOutcome
    ∧ (checkCommitted a0 a1 a2 s).ctl.validation = s.ctl.validation
    ∧ (checkCommitted a0 a1 a2 s).ctl.lastSkip = s.ctl.lastSkip ∧ (checkCommitted a0 a1 a2 s).ctl.amask = s.ctl.amask
    ∧ (checkCommitted a0 a1 a2 s).config = s.config ∧ (checkCommitted a0 a1 a2 s).pending = s.pending
    ∧ (checkCommitted a0 a1 a2 s).out = s.out ∧ (checkCommitted a0 a1 a2 s).freeIndex = s.freeIndex := by
  simp only [checkCommitted]
  (repeat' split) <;> simp

@[simp] theorem onTime_frame (a0 : Installed) (a1 : Checkpoint) (a2 : Sheet) (a3 : PerSection Pos) (s : State) :
    (onTime a0 a1 a2 a3 s).transport.count = s.transport.count
    ∧ (onTime a0 a1 a2 a3 s).transport.sensors = s.transport.sensors
    ∧ (onTime a0 a1 a2 a3 s).transport.ref = s.transport.ref
    ∧ (onTime a0 a1 a2 a3 s).transport.below = s.transport.below
    ∧ (onTime a0 a1 a2 a3 s).transport.allInBand = s.transport.allInBand
    ∧ (onTime a0 a1 a2 a3 s).transport.samplePeriod = s.transport.samplePeriod
    ∧ (onTime a0 a1 a2 a3 s).clock.pitch = s.clock.pitch ∧ (onTime a0 a1 a2 a3 s).clock.boundary = s.clock.boundary
    ∧ (onTime a0 a1 a2 a3 s).clock.lastFinal = s.clock.lastFinal
    ∧ (onTime a0 a1 a2 a3 s).clock.loopUnusable = s.clock.loopUnusable
    ∧ (onTime a0 a1 a2 a3 s).fetch.chain = s.fetch.chain ∧ (onTime a0 a1 a2 a3 s).fetch.resync = s.fetch.resync
    ∧ (onTime a0 a1 a2 a3 s).fetch.nextId = s.fetch.nextId
    ∧ (onTime a0 a1 a2 a3 s).mail.purgeCount = s.mail.purgeCount
    ∧ (onTime a0 a1 a2 a3 s).mail.purgeFull = s.mail.purgeFull
    ∧ (onTime a0 a1 a2 a3 s).mail.binWaitArm = s.mail.binWaitArm ∧ (onTime a0 a1 a2 a3 s).mail.nextId = s.mail.nextId
    ∧ (onTime a0 a1 a2 a3 s).launch.candRead = s.launch.candRead
    ∧ (onTime a0 a1 a2 a3 s).launch.emptyCount = s.launch.emptyCount
    ∧ (onTime a0 a1 a2 a3 s).launch.starvedArm = s.launch.starvedArm
    ∧ (onTime a0 a1 a2 a3 s).launch.trayArm = s.launch.trayArm ∧ (onTime a0 a1 a2 a3 s).launch.trays = s.launch.trays
    ∧ (onTime a0 a1 a2 a3 s).launch.wakeAsked = s.launch.wakeAsked
    ∧ (onTime a0 a1 a2 a3 s).track.nextId = s.track.nextId ∧ (onTime a0 a1 a2 a3 s).exit = s.exit
    ∧ (onTime a0 a1 a2 a3 s).retire.step = s.retire.step ∧ (onTime a0 a1 a2 a3 s).retire.retired = s.retire.retired
    ∧ (onTime a0 a1 a2 a3 s).retire.stacked = s.retire.stacked
    ∧ (onTime a0 a1 a2 a3 s).retire.purged = s.retire.purged
    ∧ (onTime a0 a1 a2 a3 s).retire.skipped = s.retire.skipped
    ∧ (onTime a0 a1 a2 a3 s).retire.batching = s.retire.batching
    ∧ (onTime a0 a1 a2 a3 s).jam.recoveryPending = s.jam.recoveryPending
    ∧ (onTime a0 a1 a2 a3 s).mem.windowLength = s.mem.windowLength ∧ (onTime a0 a1 a2 a3 s).mem.bus = s.mem.bus
    ∧ (onTime a0 a1 a2 a3 s).ctl.area = s.ctl.area ∧ (onTime a0 a1 a2 a3 s).ctl.cmd = s.ctl.cmd
    ∧ (onTime a0 a1 a2 a3 s).ctl.lastCommand = s.ctl.lastCommand
    ∧ (onTime a0 a1 a2 a3 s).ctl.lastOutcome = s.ctl.lastOutcome
    ∧ (onTime a0 a1 a2 a3 s).ctl.validation = s.ctl.validation ∧ (onTime a0 a1 a2 a3 s).ctl.lastSkip = s.ctl.lastSkip
    ∧ (onTime a0 a1 a2 a3 s).ctl.amask = s.ctl.amask ∧ (onTime a0 a1 a2 a3 s).config = s.config
    ∧ (onTime a0 a1 a2 a3 s).pending = s.pending ∧ (onTime a0 a1 a2 a3 s).freeIndex = s.freeIndex := by
  simp only [onTime]
  (repeat' split) <;> simp

@[simp] theorem matchLeading_frame (a0 : Checkpoint) (a1 : PerSection Pos) (s : State) :
    (matchLeading a0 a1 s).transport.count = s.transport.count
    ∧ (matchLeading a0 a1 s).transport.sensors = s.transport.sensors
    ∧ (matchLeading a0 a1 s).transport.ref = s.transport.ref
    ∧ (matchLeading a0 a1 s).transport.below = s.transport.below
    ∧ (matchLeading a0 a1 s).transport.allInBand = s.transport.allInBand
    ∧ (matchLeading a0 a1 s).transport.samplePeriod = s.transport.samplePeriod
    ∧ (matchLeading a0 a1 s).clock.pitch = s.clock.pitch ∧ (matchLeading a0 a1 s).clock.boundary = s.clock.boundary
    ∧ (matchLeading a0 a1 s).clock.lastFinal = s.clock.lastFinal
    ∧ (matchLeading a0 a1 s).clock.loopUnusable = s.clock.loopUnusable
    ∧ (matchLeading a0 a1 s).fetch.chain = s.fetch.chain ∧ (matchLeading a0 a1 s).fetch.resync = s.fetch.resync
    ∧ (matchLeading a0 a1 s).fetch.nextId = s.fetch.nextId
    ∧ (matchLeading a0 a1 s).mail.purgeCount = s.mail.purgeCount
    ∧ (matchLeading a0 a1 s).mail.purgeFull = s.mail.purgeFull
    ∧ (matchLeading a0 a1 s).mail.binWaitArm = s.mail.binWaitArm ∧ (matchLeading a0 a1 s).mail.nextId = s.mail.nextId
    ∧ (matchLeading a0 a1 s).launch.candRead = s.launch.candRead
    ∧ (matchLeading a0 a1 s).launch.emptyCount = s.launch.emptyCount
    ∧ (matchLeading a0 a1 s).launch.starvedArm = s.launch.starvedArm
    ∧ (matchLeading a0 a1 s).launch.trayArm = s.launch.trayArm ∧ (matchLeading a0 a1 s).launch.trays = s.launch.trays
    ∧ (matchLeading a0 a1 s).launch.wakeAsked = s.launch.wakeAsked
    ∧ (matchLeading a0 a1 s).track.nextId = s.track.nextId ∧ (matchLeading a0 a1 s).exit = s.exit
    ∧ (matchLeading a0 a1 s).retire.step = s.retire.step ∧ (matchLeading a0 a1 s).retire.retired = s.retire.retired
    ∧ (matchLeading a0 a1 s).retire.stacked = s.retire.stacked
    ∧ (matchLeading a0 a1 s).retire.purged = s.retire.purged
    ∧ (matchLeading a0 a1 s).retire.skipped = s.retire.skipped
    ∧ (matchLeading a0 a1 s).retire.batching = s.retire.batching
    ∧ (matchLeading a0 a1 s).jam.recoveryPending = s.jam.recoveryPending
    ∧ (matchLeading a0 a1 s).mem.windowLength = s.mem.windowLength ∧ (matchLeading a0 a1 s).mem.bus = s.mem.bus
    ∧ (matchLeading a0 a1 s).ctl.area = s.ctl.area ∧ (matchLeading a0 a1 s).ctl.cmd = s.ctl.cmd
    ∧ (matchLeading a0 a1 s).ctl.lastCommand = s.ctl.lastCommand
    ∧ (matchLeading a0 a1 s).ctl.lastOutcome = s.ctl.lastOutcome
    ∧ (matchLeading a0 a1 s).ctl.validation = s.ctl.validation ∧ (matchLeading a0 a1 s).ctl.lastSkip = s.ctl.lastSkip
    ∧ (matchLeading a0 a1 s).ctl.amask = s.ctl.amask ∧ (matchLeading a0 a1 s).config = s.config
    ∧ (matchLeading a0 a1 s).pending = s.pending ∧ (matchLeading a0 a1 s).freeIndex = s.freeIndex := by
  simp only [matchLeading]
  (repeat' split) <;> simp

@[simp] theorem leadingEdge_frame (a0 : Checkpoint) (s : State) :
    (leadingEdge a0 s).transport.count = s.transport.count
    ∧ (leadingEdge a0 s).transport.ref = s.transport.ref ∧ (leadingEdge a0 s).transport.below = s.transport.below
    ∧ (leadingEdge a0 s).transport.allInBand = s.transport.allInBand
    ∧ (leadingEdge a0 s).transport.samplePeriod = s.transport.samplePeriod
    ∧ (leadingEdge a0 s).clock.pitch = s.clock.pitch ∧ (leadingEdge a0 s).clock.boundary = s.clock.boundary
    ∧ (leadingEdge a0 s).clock.lastFinal = s.clock.lastFinal
    ∧ (leadingEdge a0 s).clock.loopUnusable = s.clock.loopUnusable ∧ (leadingEdge a0 s).fetch.chain = s.fetch.chain
    ∧ (leadingEdge a0 s).fetch.resync = s.fetch.resync ∧ (leadingEdge a0 s).fetch.nextId = s.fetch.nextId
    ∧ (leadingEdge a0 s).mail.purgeCount = s.mail.purgeCount ∧ (leadingEdge a0 s).mail.purgeFull = s.mail.purgeFull
    ∧ (leadingEdge a0 s).mail.binWaitArm = s.mail.binWaitArm ∧ (leadingEdge a0 s).mail.nextId = s.mail.nextId
    ∧ (leadingEdge a0 s).launch.candRead = s.launch.candRead
    ∧ (leadingEdge a0 s).launch.emptyCount = s.launch.emptyCount
    ∧ (leadingEdge a0 s).launch.starvedArm = s.launch.starvedArm
    ∧ (leadingEdge a0 s).launch.trayArm = s.launch.trayArm ∧ (leadingEdge a0 s).launch.trays = s.launch.trays
    ∧ (leadingEdge a0 s).launch.wakeAsked = s.launch.wakeAsked ∧ (leadingEdge a0 s).track.nextId = s.track.nextId
    ∧ (leadingEdge a0 s).exit = s.exit ∧ (leadingEdge a0 s).retire.step = s.retire.step
    ∧ (leadingEdge a0 s).retire.retired = s.retire.retired ∧ (leadingEdge a0 s).retire.stacked = s.retire.stacked
    ∧ (leadingEdge a0 s).retire.purged = s.retire.purged ∧ (leadingEdge a0 s).retire.skipped = s.retire.skipped
    ∧ (leadingEdge a0 s).retire.batching = s.retire.batching
    ∧ (leadingEdge a0 s).jam.recoveryPending = s.jam.recoveryPending
    ∧ (leadingEdge a0 s).mem.windowLength = s.mem.windowLength ∧ (leadingEdge a0 s).mem.bus = s.mem.bus
    ∧ (leadingEdge a0 s).ctl.area = s.ctl.area ∧ (leadingEdge a0 s).ctl.cmd = s.ctl.cmd
    ∧ (leadingEdge a0 s).ctl.lastCommand = s.ctl.lastCommand ∧ (leadingEdge a0 s).ctl.lastOutcome = s.ctl.lastOutcome
    ∧ (leadingEdge a0 s).ctl.validation = s.ctl.validation ∧ (leadingEdge a0 s).ctl.lastSkip = s.ctl.lastSkip
    ∧ (leadingEdge a0 s).ctl.amask = s.ctl.amask ∧ (leadingEdge a0 s).config = s.config
    ∧ (leadingEdge a0 s).pending = s.pending ∧ (leadingEdge a0 s).freeIndex = s.freeIndex := by
  simp only [leadingEdge]
  (repeat' split) <;> simp

@[simp] theorem afterOccupancy_frame (a0 : Installed) (a1 : Checkpoint) (a2 : Sheet) (a3 : Occupancy) (a4 : PerSection Pos) (s : State) :
    (afterOccupancy a0 a1 a2 a3 a4 s).transport.count = s.transport.count
    ∧ (afterOccupancy a0 a1 a2 a3 a4 s).transport.sensors = s.transport.sensors
    ∧ (afterOccupancy a0 a1 a2 a3 a4 s).transport.ref = s.transport.ref
    ∧ (afterOccupancy a0 a1 a2 a3 a4 s).transport.below = s.transport.below
    ∧ (afterOccupancy a0 a1 a2 a3 a4 s).transport.allInBand = s.transport.allInBand
    ∧ (afterOccupancy a0 a1 a2 a3 a4 s).transport.samplePeriod = s.transport.samplePeriod
    ∧ (afterOccupancy a0 a1 a2 a3 a4 s).clock.pitch = s.clock.pitch
    ∧ (afterOccupancy a0 a1 a2 a3 a4 s).clock.boundary = s.clock.boundary
    ∧ (afterOccupancy a0 a1 a2 a3 a4 s).clock.lastFinal = s.clock.lastFinal
    ∧ (afterOccupancy a0 a1 a2 a3 a4 s).clock.loopUnusable = s.clock.loopUnusable
    ∧ (afterOccupancy a0 a1 a2 a3 a4 s).fetch.chain = s.fetch.chain
    ∧ (afterOccupancy a0 a1 a2 a3 a4 s).fetch.resync = s.fetch.resync
    ∧ (afterOccupancy a0 a1 a2 a3 a4 s).fetch.nextId = s.fetch.nextId
    ∧ (afterOccupancy a0 a1 a2 a3 a4 s).mail.binWaitArm = s.mail.binWaitArm
    ∧ (afterOccupancy a0 a1 a2 a3 a4 s).mail.nextId = s.mail.nextId
    ∧ (afterOccupancy a0 a1 a2 a3 a4 s).launch.candRead = s.launch.candRead
    ∧ (afterOccupancy a0 a1 a2 a3 a4 s).launch.emptyCount = s.launch.emptyCount
    ∧ (afterOccupancy a0 a1 a2 a3 a4 s).launch.starvedArm = s.launch.starvedArm
    ∧ (afterOccupancy a0 a1 a2 a3 a4 s).launch.trayArm = s.launch.trayArm
    ∧ (afterOccupancy a0 a1 a2 a3 a4 s).launch.trays = s.launch.trays
    ∧ (afterOccupancy a0 a1 a2 a3 a4 s).launch.wakeAsked = s.launch.wakeAsked
    ∧ (afterOccupancy a0 a1 a2 a3 a4 s).track.d1 = s.track.d1
    ∧ (afterOccupancy a0 a1 a2 a3 a4 s).track.nextId = s.track.nextId
    ∧ (afterOccupancy a0 a1 a2 a3 a4 s).retire.step = s.retire.step
    ∧ (afterOccupancy a0 a1 a2 a3 a4 s).retire.retired = s.retire.retired
    ∧ (afterOccupancy a0 a1 a2 a3 a4 s).retire.skipped = s.retire.skipped
    ∧ (afterOccupancy a0 a1 a2 a3 a4 s).retire.batching = s.retire.batching
    ∧ (afterOccupancy a0 a1 a2 a3 a4 s).jam.recoveryPending = s.jam.recoveryPending
    ∧ (afterOccupancy a0 a1 a2 a3 a4 s).mem.windowLength = s.mem.windowLength
    ∧ (afterOccupancy a0 a1 a2 a3 a4 s).mem.waiting = s.mem.waiting
    ∧ (afterOccupancy a0 a1 a2 a3 a4 s).mem.bus = s.mem.bus ∧ (afterOccupancy a0 a1 a2 a3 a4 s).ctl.area = s.ctl.area
    ∧ (afterOccupancy a0 a1 a2 a3 a4 s).ctl.cmd = s.ctl.cmd
    ∧ (afterOccupancy a0 a1 a2 a3 a4 s).ctl.lastCommand = s.ctl.lastCommand
    ∧ (afterOccupancy a0 a1 a2 a3 a4 s).ctl.lastOutcome = s.ctl.lastOutcome
    ∧ (afterOccupancy a0 a1 a2 a3 a4 s).ctl.validation = s.ctl.validation
    ∧ (afterOccupancy a0 a1 a2 a3 a4 s).ctl.lastSkip = s.ctl.lastSkip
    ∧ (afterOccupancy a0 a1 a2 a3 a4 s).ctl.amask = s.ctl.amask ∧ (afterOccupancy a0 a1 a2 a3 a4 s).config = s.config
    ∧ (afterOccupancy a0 a1 a2 a3 a4 s).pending = s.pending ∧ (afterOccupancy a0 a1 a2 a3 a4 s).out = s.out := by
  simp only [afterOccupancy]
  (repeat' split) <;> simp

@[simp] theorem matchTrailing_frame (a0 : Checkpoint) (a1 : PerSection Pos) (s : State) :
    (matchTrailing a0 a1 s).transport.count = s.transport.count
    ∧ (matchTrailing a0 a1 s).transport.sensors = s.transport.sensors
    ∧ (matchTrailing a0 a1 s).transport.ref = s.transport.ref
    ∧ (matchTrailing a0 a1 s).transport.below = s.transport.below
    ∧ (matchTrailing a0 a1 s).transport.allInBand = s.transport.allInBand
    ∧ (matchTrailing a0 a1 s).transport.samplePeriod = s.transport.samplePeriod
    ∧ (matchTrailing a0 a1 s).clock.pitch = s.clock.pitch ∧ (matchTrailing a0 a1 s).clock.boundary = s.clock.boundary
    ∧ (matchTrailing a0 a1 s).clock.lastFinal = s.clock.lastFinal
    ∧ (matchTrailing a0 a1 s).clock.loopUnusable = s.clock.loopUnusable
    ∧ (matchTrailing a0 a1 s).fetch.chain = s.fetch.chain ∧ (matchTrailing a0 a1 s).fetch.resync = s.fetch.resync
    ∧ (matchTrailing a0 a1 s).fetch.nextId = s.fetch.nextId
    ∧ (matchTrailing a0 a1 s).mail.binWaitArm = s.mail.binWaitArm
    ∧ (matchTrailing a0 a1 s).mail.nextId = s.mail.nextId
    ∧ (matchTrailing a0 a1 s).launch.candRead = s.launch.candRead
    ∧ (matchTrailing a0 a1 s).launch.emptyCount = s.launch.emptyCount
    ∧ (matchTrailing a0 a1 s).launch.starvedArm = s.launch.starvedArm
    ∧ (matchTrailing a0 a1 s).launch.trayArm = s.launch.trayArm
    ∧ (matchTrailing a0 a1 s).launch.trays = s.launch.trays
    ∧ (matchTrailing a0 a1 s).launch.wakeAsked = s.launch.wakeAsked ∧ (matchTrailing a0 a1 s).track.d1 = s.track.d1
    ∧ (matchTrailing a0 a1 s).track.nextId = s.track.nextId ∧ (matchTrailing a0 a1 s).retire.step = s.retire.step
    ∧ (matchTrailing a0 a1 s).retire.retired = s.retire.retired
    ∧ (matchTrailing a0 a1 s).retire.skipped = s.retire.skipped
    ∧ (matchTrailing a0 a1 s).retire.batching = s.retire.batching
    ∧ (matchTrailing a0 a1 s).jam.recoveryPending = s.jam.recoveryPending
    ∧ (matchTrailing a0 a1 s).mem.windowLength = s.mem.windowLength
    ∧ (matchTrailing a0 a1 s).mem.waiting = s.mem.waiting ∧ (matchTrailing a0 a1 s).mem.bus = s.mem.bus
    ∧ (matchTrailing a0 a1 s).ctl.area = s.ctl.area ∧ (matchTrailing a0 a1 s).ctl.cmd = s.ctl.cmd
    ∧ (matchTrailing a0 a1 s).ctl.lastCommand = s.ctl.lastCommand
    ∧ (matchTrailing a0 a1 s).ctl.lastOutcome = s.ctl.lastOutcome
    ∧ (matchTrailing a0 a1 s).ctl.validation = s.ctl.validation
    ∧ (matchTrailing a0 a1 s).ctl.lastSkip = s.ctl.lastSkip ∧ (matchTrailing a0 a1 s).ctl.amask = s.ctl.amask
    ∧ (matchTrailing a0 a1 s).config = s.config ∧ (matchTrailing a0 a1 s).pending = s.pending
    ∧ (matchTrailing a0 a1 s).out = s.out := by
  simp only [matchTrailing]
  (repeat' split) <;> simp

@[simp] theorem trailingEdge_frame (a0 : Checkpoint) (s : State) :
    (trailingEdge a0 s).transport.count = s.transport.count
    ∧ (trailingEdge a0 s).transport.ref = s.transport.ref ∧ (trailingEdge a0 s).transport.below = s.transport.below
    ∧ (trailingEdge a0 s).transport.allInBand = s.transport.allInBand
    ∧ (trailingEdge a0 s).transport.samplePeriod = s.transport.samplePeriod
    ∧ (trailingEdge a0 s).clock.pitch = s.clock.pitch ∧ (trailingEdge a0 s).clock.boundary = s.clock.boundary
    ∧ (trailingEdge a0 s).clock.lastFinal = s.clock.lastFinal
    ∧ (trailingEdge a0 s).clock.loopUnusable = s.clock.loopUnusable ∧ (trailingEdge a0 s).fetch.chain = s.fetch.chain
    ∧ (trailingEdge a0 s).fetch.resync = s.fetch.resync ∧ (trailingEdge a0 s).fetch.nextId = s.fetch.nextId
    ∧ (trailingEdge a0 s).mail.binWaitArm = s.mail.binWaitArm ∧ (trailingEdge a0 s).mail.nextId = s.mail.nextId
    ∧ (trailingEdge a0 s).launch.candRead = s.launch.candRead
    ∧ (trailingEdge a0 s).launch.emptyCount = s.launch.emptyCount
    ∧ (trailingEdge a0 s).launch.starvedArm = s.launch.starvedArm
    ∧ (trailingEdge a0 s).launch.trayArm = s.launch.trayArm ∧ (trailingEdge a0 s).launch.trays = s.launch.trays
    ∧ (trailingEdge a0 s).launch.wakeAsked = s.launch.wakeAsked ∧ (trailingEdge a0 s).track.d1 = s.track.d1
    ∧ (trailingEdge a0 s).track.nextId = s.track.nextId ∧ (trailingEdge a0 s).retire.step = s.retire.step
    ∧ (trailingEdge a0 s).retire.retired = s.retire.retired ∧ (trailingEdge a0 s).retire.skipped = s.retire.skipped
    ∧ (trailingEdge a0 s).retire.batching = s.retire.batching
    ∧ (trailingEdge a0 s).jam.recoveryPending = s.jam.recoveryPending
    ∧ (trailingEdge a0 s).mem.windowLength = s.mem.windowLength ∧ (trailingEdge a0 s).mem.waiting = s.mem.waiting
    ∧ (trailingEdge a0 s).mem.bus = s.mem.bus ∧ (trailingEdge a0 s).ctl.area = s.ctl.area
    ∧ (trailingEdge a0 s).ctl.cmd = s.ctl.cmd ∧ (trailingEdge a0 s).ctl.lastCommand = s.ctl.lastCommand
    ∧ (trailingEdge a0 s).ctl.lastOutcome = s.ctl.lastOutcome ∧ (trailingEdge a0 s).ctl.validation = s.ctl.validation
    ∧ (trailingEdge a0 s).ctl.lastSkip = s.ctl.lastSkip ∧ (trailingEdge a0 s).ctl.amask = s.ctl.amask
    ∧ (trailingEdge a0 s).config = s.config ∧ (trailingEdge a0 s).pending = s.pending
    ∧ (trailingEdge a0 s).out = s.out := by
  simp only [trailingEdge]
  (repeat' split) <;> simp

@[simp] theorem takeCompare_frame (a0 : CompareOwner) (a1 : PerSection Pos) (s : State) :
    (takeCompare a0 a1 s).transport.count = s.transport.count
    ∧ (takeCompare a0 a1 s).transport.sensors = s.transport.sensors
    ∧ (takeCompare a0 a1 s).transport.ref = s.transport.ref
    ∧ (takeCompare a0 a1 s).transport.below = s.transport.below
    ∧ (takeCompare a0 a1 s).transport.allInBand = s.transport.allInBand
    ∧ (takeCompare a0 a1 s).transport.samplePeriod = s.transport.samplePeriod
    ∧ (takeCompare a0 a1 s).clock.loopUnusable = s.clock.loopUnusable
    ∧ (takeCompare a0 a1 s).fetch.chain = s.fetch.chain ∧ (takeCompare a0 a1 s).fetch.resync = s.fetch.resync
    ∧ (takeCompare a0 a1 s).fetch.nextId = s.fetch.nextId ∧ (takeCompare a0 a1 s).mail.purgeCount = s.mail.purgeCount
    ∧ (takeCompare a0 a1 s).mail.purgeFull = s.mail.purgeFull ∧ (takeCompare a0 a1 s).mail.nextId = s.mail.nextId
    ∧ (takeCompare a0 a1 s).launch.trays = s.launch.trays
    ∧ (takeCompare a0 a1 s).launch.wakeAsked = s.launch.wakeAsked ∧ (takeCompare a0 a1 s).track.d1 = s.track.d1
    ∧ (takeCompare a0 a1 s).exit = s.exit ∧ (takeCompare a0 a1 s).retire.step = s.retire.step
    ∧ (takeCompare a0 a1 s).retire.retired = s.retire.retired
    ∧ (takeCompare a0 a1 s).retire.stacked = s.retire.stacked ∧ (takeCompare a0 a1 s).retire.purged = s.retire.purged
    ∧ (takeCompare a0 a1 s).retire.batching = s.retire.batching
    ∧ (takeCompare a0 a1 s).jam.recoveryPending = s.jam.recoveryPending
    ∧ (takeCompare a0 a1 s).mem.windowLength = s.mem.windowLength ∧ (takeCompare a0 a1 s).mem.bus = s.mem.bus
    ∧ (takeCompare a0 a1 s).ctl.area = s.ctl.area ∧ (takeCompare a0 a1 s).ctl.cmd = s.ctl.cmd
    ∧ (takeCompare a0 a1 s).ctl.lastCommand = s.ctl.lastCommand
    ∧ (takeCompare a0 a1 s).ctl.lastOutcome = s.ctl.lastOutcome
    ∧ (takeCompare a0 a1 s).ctl.validation = s.ctl.validation ∧ (takeCompare a0 a1 s).ctl.amask = s.ctl.amask
    ∧ (takeCompare a0 a1 s).config = s.config ∧ (takeCompare a0 a1 s).pending = s.pending
    ∧ (takeCompare a0 a1 s).freeIndex = s.freeIndex := by
  simp only [takeCompare]
  (repeat' split) <;> simp

@[simp] theorem takeAtOnce_frame (a0 : Nat) (s : State) : (takeAtOnce a0 s).transport.count = s.transport.count
    ∧ (takeAtOnce a0 s).transport.sensors = s.transport.sensors ∧ (takeAtOnce a0 s).transport.ref = s.transport.ref
    ∧ (takeAtOnce a0 s).transport.below = s.transport.below
    ∧ (takeAtOnce a0 s).transport.allInBand = s.transport.allInBand
    ∧ (takeAtOnce a0 s).transport.samplePeriod = s.transport.samplePeriod
    ∧ (takeAtOnce a0 s).clock.loopUnusable = s.clock.loopUnusable ∧ (takeAtOnce a0 s).fetch.chain = s.fetch.chain
    ∧ (takeAtOnce a0 s).fetch.resync = s.fetch.resync ∧ (takeAtOnce a0 s).fetch.nextId = s.fetch.nextId
    ∧ (takeAtOnce a0 s).mail.purgeCount = s.mail.purgeCount ∧ (takeAtOnce a0 s).mail.purgeFull = s.mail.purgeFull
    ∧ (takeAtOnce a0 s).mail.nextId = s.mail.nextId ∧ (takeAtOnce a0 s).launch.trays = s.launch.trays
    ∧ (takeAtOnce a0 s).launch.wakeAsked = s.launch.wakeAsked ∧ (takeAtOnce a0 s).track.d1 = s.track.d1
    ∧ (takeAtOnce a0 s).exit = s.exit ∧ (takeAtOnce a0 s).retire.step = s.retire.step
    ∧ (takeAtOnce a0 s).retire.retired = s.retire.retired ∧ (takeAtOnce a0 s).retire.stacked = s.retire.stacked
    ∧ (takeAtOnce a0 s).retire.purged = s.retire.purged ∧ (takeAtOnce a0 s).retire.batching = s.retire.batching
    ∧ (takeAtOnce a0 s).jam.recoveryPending = s.jam.recoveryPending
    ∧ (takeAtOnce a0 s).mem.windowLength = s.mem.windowLength ∧ (takeAtOnce a0 s).mem.bus = s.mem.bus
    ∧ (takeAtOnce a0 s).ctl.area = s.ctl.area ∧ (takeAtOnce a0 s).ctl.cmd = s.ctl.cmd
    ∧ (takeAtOnce a0 s).ctl.lastCommand = s.ctl.lastCommand ∧ (takeAtOnce a0 s).ctl.lastOutcome = s.ctl.lastOutcome
    ∧ (takeAtOnce a0 s).ctl.validation = s.ctl.validation ∧ (takeAtOnce a0 s).ctl.amask = s.ctl.amask
    ∧ (takeAtOnce a0 s).config = s.config ∧ (takeAtOnce a0 s).pending = s.pending
    ∧ (takeAtOnce a0 s).freeIndex = s.freeIndex := by
  induction a0 generalizing s with
  | zero => simp [takeAtOnce]
  | succ n ih => (simp only [takeAtOnce]; repeat' split) <;> simp [ih]

@[simp] theorem reportStalls_frame (a0 : List Section) (s : State) :
    (reportStalls a0 s).transport.count = s.transport.count
    ∧ (reportStalls a0 s).transport.sensors = s.transport.sensors
    ∧ (reportStalls a0 s).transport.ref = s.transport.ref ∧ (reportStalls a0 s).transport.below = s.transport.below
    ∧ (reportStalls a0 s).transport.allInBand = s.transport.allInBand
    ∧ (reportStalls a0 s).transport.samplePeriod = s.transport.samplePeriod
    ∧ (reportStalls a0 s).clock.pitch = s.clock.pitch ∧ (reportStalls a0 s).clock.boundary = s.clock.boundary
    ∧ (reportStalls a0 s).clock.lastFinal = s.clock.lastFinal
    ∧ (reportStalls a0 s).clock.loopUnusable = s.clock.loopUnusable ∧ (reportStalls a0 s).fetch.chain = s.fetch.chain
    ∧ (reportStalls a0 s).fetch.resync = s.fetch.resync ∧ (reportStalls a0 s).fetch.nextId = s.fetch.nextId
    ∧ (reportStalls a0 s).mail.purgeCount = s.mail.purgeCount ∧ (reportStalls a0 s).mail.purgeFull = s.mail.purgeFull
    ∧ (reportStalls a0 s).mail.binWaitArm = s.mail.binWaitArm ∧ (reportStalls a0 s).mail.nextId = s.mail.nextId
    ∧ (reportStalls a0 s).launch.candRead = s.launch.candRead
    ∧ (reportStalls a0 s).launch.emptyCount = s.launch.emptyCount
    ∧ (reportStalls a0 s).launch.starvedArm = s.launch.starvedArm
    ∧ (reportStalls a0 s).launch.trayArm = s.launch.trayArm ∧ (reportStalls a0 s).launch.trays = s.launch.trays
    ∧ (reportStalls a0 s).launch.wakeAsked = s.launch.wakeAsked ∧ (reportStalls a0 s).track.d1 = s.track.d1
    ∧ (reportStalls a0 s).track.nextId = s.track.nextId ∧ (reportStalls a0 s).exit = s.exit
    ∧ (reportStalls a0 s).retire.step = s.retire.step ∧ (reportStalls a0 s).retire.retired = s.retire.retired
    ∧ (reportStalls a0 s).retire.stacked = s.retire.stacked ∧ (reportStalls a0 s).retire.purged = s.retire.purged
    ∧ (reportStalls a0 s).retire.skipped = s.retire.skipped ∧ (reportStalls a0 s).retire.batching = s.retire.batching
    ∧ (reportStalls a0 s).jam.recoveryPending = s.jam.recoveryPending
    ∧ (reportStalls a0 s).mem.windowLength = s.mem.windowLength ∧ (reportStalls a0 s).mem.waiting = s.mem.waiting
    ∧ (reportStalls a0 s).mem.bus = s.mem.bus ∧ (reportStalls a0 s).ctl.area = s.ctl.area
    ∧ (reportStalls a0 s).ctl.cmd = s.ctl.cmd ∧ (reportStalls a0 s).ctl.lastCommand = s.ctl.lastCommand
    ∧ (reportStalls a0 s).ctl.lastOutcome = s.ctl.lastOutcome ∧ (reportStalls a0 s).ctl.validation = s.ctl.validation
    ∧ (reportStalls a0 s).ctl.lastSkip = s.ctl.lastSkip ∧ (reportStalls a0 s).ctl.amask = s.ctl.amask
    ∧ (reportStalls a0 s).config = s.config ∧ (reportStalls a0 s).pending = s.pending
    ∧ (reportStalls a0 s).out = s.out ∧ (reportStalls a0 s).freeIndex = s.freeIndex := by
  simp [reportStalls]

@[simp] theorem sampleAtSpeed_frame (a0 : ConfigBlock) (s : State) :
    (sampleAtSpeed a0 s).transport.count = s.transport.count
    ∧ (sampleAtSpeed a0 s).transport.sensors = s.transport.sensors
    ∧ (sampleAtSpeed a0 s).transport.allInBand = s.transport.allInBand
    ∧ (sampleAtSpeed a0 s).clock.pitch = s.clock.pitch ∧ (sampleAtSpeed a0 s).clock.boundary = s.clock.boundary
    ∧ (sampleAtSpeed a0 s).clock.lastFinal = s.clock.lastFinal
    ∧ (sampleAtSpeed a0 s).clock.loopUnusable = s.clock.loopUnusable
    ∧ (sampleAtSpeed a0 s).fetch.chain = s.fetch.chain ∧ (sampleAtSpeed a0 s).fetch.resync = s.fetch.resync
    ∧ (sampleAtSpeed a0 s).fetch.nextId = s.fetch.nextId ∧ (sampleAtSpeed a0 s).mail.purgeCount = s.mail.purgeCount
    ∧ (sampleAtSpeed a0 s).mail.purgeFull = s.mail.purgeFull
    ∧ (sampleAtSpeed a0 s).mail.binWaitArm = s.mail.binWaitArm ∧ (sampleAtSpeed a0 s).mail.nextId = s.mail.nextId
    ∧ (sampleAtSpeed a0 s).launch.candRead = s.launch.candRead
    ∧ (sampleAtSpeed a0 s).launch.emptyCount = s.launch.emptyCount
    ∧ (sampleAtSpeed a0 s).launch.starvedArm = s.launch.starvedArm
    ∧ (sampleAtSpeed a0 s).launch.trayArm = s.launch.trayArm ∧ (sampleAtSpeed a0 s).launch.trays = s.launch.trays
    ∧ (sampleAtSpeed a0 s).launch.wakeAsked = s.launch.wakeAsked ∧ (sampleAtSpeed a0 s).track.d1 = s.track.d1
    ∧ (sampleAtSpeed a0 s).track.nextId = s.track.nextId ∧ (sampleAtSpeed a0 s).exit = s.exit
    ∧ (sampleAtSpeed a0 s).retire.step = s.retire.step ∧ (sampleAtSpeed a0 s).retire.retired = s.retire.retired
    ∧ (sampleAtSpeed a0 s).retire.stacked = s.retire.stacked ∧ (sampleAtSpeed a0 s).retire.purged = s.retire.purged
    ∧ (sampleAtSpeed a0 s).retire.skipped = s.retire.skipped
    ∧ (sampleAtSpeed a0 s).retire.batching = s.retire.batching
    ∧ (sampleAtSpeed a0 s).jam.recoveryPending = s.jam.recoveryPending
    ∧ (sampleAtSpeed a0 s).mem.windowLength = s.mem.windowLength ∧ (sampleAtSpeed a0 s).mem.waiting = s.mem.waiting
    ∧ (sampleAtSpeed a0 s).mem.bus = s.mem.bus ∧ (sampleAtSpeed a0 s).ctl.area = s.ctl.area
    ∧ (sampleAtSpeed a0 s).ctl.cmd = s.ctl.cmd ∧ (sampleAtSpeed a0 s).ctl.lastCommand = s.ctl.lastCommand
    ∧ (sampleAtSpeed a0 s).ctl.lastOutcome = s.ctl.lastOutcome
    ∧ (sampleAtSpeed a0 s).ctl.validation = s.ctl.validation ∧ (sampleAtSpeed a0 s).ctl.lastSkip = s.ctl.lastSkip
    ∧ (sampleAtSpeed a0 s).ctl.amask = s.ctl.amask ∧ (sampleAtSpeed a0 s).config = s.config
    ∧ (sampleAtSpeed a0 s).pending = s.pending ∧ (sampleAtSpeed a0 s).out = s.out
    ∧ (sampleAtSpeed a0 s).freeIndex = s.freeIndex := by
  simp [sampleAtSpeed]

@[simp] theorem sample_frame (s : State) : (sample s).transport.count = s.transport.count
    ∧ (sample s).transport.sensors = s.transport.sensors ∧ (sample s).clock.loopUnusable = s.clock.loopUnusable
    ∧ (sample s).fetch.chain = s.fetch.chain ∧ (sample s).fetch.resync = s.fetch.resync
    ∧ (sample s).fetch.nextId = s.fetch.nextId ∧ (sample s).mail.purgeCount = s.mail.purgeCount
    ∧ (sample s).mail.purgeFull = s.mail.purgeFull ∧ (sample s).mail.nextId = s.mail.nextId
    ∧ (sample s).launch.trays = s.launch.trays ∧ (sample s).launch.wakeAsked = s.launch.wakeAsked
    ∧ (sample s).track.d1 = s.track.d1 ∧ (sample s).exit = s.exit ∧ (sample s).retire.step = s.retire.step
    ∧ (sample s).retire.retired = s.retire.retired ∧ (sample s).retire.stacked = s.retire.stacked
    ∧ (sample s).retire.purged = s.retire.purged ∧ (sample s).retire.batching = s.retire.batching
    ∧ (sample s).jam.recoveryPending = s.jam.recoveryPending ∧ (sample s).mem.windowLength = s.mem.windowLength
    ∧ (sample s).mem.bus = s.mem.bus ∧ (sample s).ctl.area = s.ctl.area ∧ (sample s).ctl.cmd = s.ctl.cmd
    ∧ (sample s).ctl.lastCommand = s.ctl.lastCommand ∧ (sample s).ctl.lastOutcome = s.ctl.lastOutcome
    ∧ (sample s).ctl.validation = s.ctl.validation ∧ (sample s).ctl.amask = s.ctl.amask ∧ (sample s).config = s.config
    ∧ (sample s).pending = s.pending ∧ (sample s).out = s.out ∧ (sample s).freeIndex = s.freeIndex := by
  simp only [sample]
  (repeat' split) <;> simp

@[simp] theorem runUpExpiry_frame (s : State) : (runUpExpiry s).transport.count = s.transport.count
    ∧ (runUpExpiry s).transport.sensors = s.transport.sensors ∧ (runUpExpiry s).transport.ref = s.transport.ref
    ∧ (runUpExpiry s).transport.below = s.transport.below
    ∧ (runUpExpiry s).transport.allInBand = s.transport.allInBand
    ∧ (runUpExpiry s).transport.samplePeriod = s.transport.samplePeriod ∧ (runUpExpiry s).clock.pitch = s.clock.pitch
    ∧ (runUpExpiry s).clock.boundary = s.clock.boundary ∧ (runUpExpiry s).clock.lastFinal = s.clock.lastFinal
    ∧ (runUpExpiry s).clock.loopUnusable = s.clock.loopUnusable ∧ (runUpExpiry s).fetch.chain = s.fetch.chain
    ∧ (runUpExpiry s).fetch.resync = s.fetch.resync ∧ (runUpExpiry s).fetch.nextId = s.fetch.nextId
    ∧ (runUpExpiry s).mail.purgeCount = s.mail.purgeCount ∧ (runUpExpiry s).mail.purgeFull = s.mail.purgeFull
    ∧ (runUpExpiry s).mail.binWaitArm = s.mail.binWaitArm ∧ (runUpExpiry s).mail.nextId = s.mail.nextId
    ∧ (runUpExpiry s).launch.candRead = s.launch.candRead ∧ (runUpExpiry s).launch.emptyCount = s.launch.emptyCount
    ∧ (runUpExpiry s).launch.starvedArm = s.launch.starvedArm ∧ (runUpExpiry s).launch.trayArm = s.launch.trayArm
    ∧ (runUpExpiry s).launch.trays = s.launch.trays ∧ (runUpExpiry s).launch.wakeAsked = s.launch.wakeAsked
    ∧ (runUpExpiry s).track.d1 = s.track.d1 ∧ (runUpExpiry s).track.nextId = s.track.nextId
    ∧ (runUpExpiry s).exit = s.exit ∧ (runUpExpiry s).retire.step = s.retire.step
    ∧ (runUpExpiry s).retire.retired = s.retire.retired ∧ (runUpExpiry s).retire.stacked = s.retire.stacked
    ∧ (runUpExpiry s).retire.purged = s.retire.purged ∧ (runUpExpiry s).retire.skipped = s.retire.skipped
    ∧ (runUpExpiry s).retire.batching = s.retire.batching
    ∧ (runUpExpiry s).jam.recoveryPending = s.jam.recoveryPending
    ∧ (runUpExpiry s).mem.windowLength = s.mem.windowLength ∧ (runUpExpiry s).mem.waiting = s.mem.waiting
    ∧ (runUpExpiry s).mem.bus = s.mem.bus ∧ (runUpExpiry s).ctl.area = s.ctl.area
    ∧ (runUpExpiry s).ctl.cmd = s.ctl.cmd ∧ (runUpExpiry s).ctl.lastCommand = s.ctl.lastCommand
    ∧ (runUpExpiry s).ctl.lastOutcome = s.ctl.lastOutcome ∧ (runUpExpiry s).ctl.validation = s.ctl.validation
    ∧ (runUpExpiry s).ctl.lastSkip = s.ctl.lastSkip ∧ (runUpExpiry s).ctl.amask = s.ctl.amask
    ∧ (runUpExpiry s).config = s.config ∧ (runUpExpiry s).pending = s.pending ∧ (runUpExpiry s).out = s.out
    ∧ (runUpExpiry s).freeIndex = s.freeIndex := by
  simp only [runUpExpiry]
  (repeat' split) <;> simp

@[simp] theorem runSteps_frame (a0 : HeldSteps) (s : State) : (runSteps a0 s).transport.count = s.transport.count
    ∧ (runSteps a0 s).transport.sensors = s.transport.sensors ∧ (runSteps a0 s).transport.ref = s.transport.ref
    ∧ (runSteps a0 s).transport.below = s.transport.below
    ∧ (runSteps a0 s).transport.allInBand = s.transport.allInBand
    ∧ (runSteps a0 s).transport.samplePeriod = s.transport.samplePeriod ∧ (runSteps a0 s).clock.pitch = s.clock.pitch
    ∧ (runSteps a0 s).clock.boundary = s.clock.boundary ∧ (runSteps a0 s).clock.lastFinal = s.clock.lastFinal
    ∧ (runSteps a0 s).clock.loopUnusable = s.clock.loopUnusable ∧ (runSteps a0 s).mail.purgeCount = s.mail.purgeCount
    ∧ (runSteps a0 s).mail.purgeFull = s.mail.purgeFull ∧ (runSteps a0 s).mail.binWaitArm = s.mail.binWaitArm
    ∧ (runSteps a0 s).mail.nextId = s.mail.nextId ∧ (runSteps a0 s).launch.schedule = s.launch.schedule
    ∧ (runSteps a0 s).launch.candRead = s.launch.candRead ∧ (runSteps a0 s).launch.emptyCount = s.launch.emptyCount
    ∧ (runSteps a0 s).launch.starvedArm = s.launch.starvedArm ∧ (runSteps a0 s).launch.trayArm = s.launch.trayArm
    ∧ (runSteps a0 s).launch.trays = s.launch.trays ∧ (runSteps a0 s).launch.wakeAsked = s.launch.wakeAsked
    ∧ (runSteps a0 s).track.d1 = s.track.d1 ∧ (runSteps a0 s).track.nextId = s.track.nextId
    ∧ (runSteps a0 s).exit = s.exit ∧ (runSteps a0 s).retire.step = s.retire.step
    ∧ (runSteps a0 s).retire.retired = s.retire.retired ∧ (runSteps a0 s).retire.launched = s.retire.launched
    ∧ (runSteps a0 s).retire.stacked = s.retire.stacked ∧ (runSteps a0 s).retire.purged = s.retire.purged
    ∧ (runSteps a0 s).retire.skipped = s.retire.skipped ∧ (runSteps a0 s).retire.batching = s.retire.batching
    ∧ (runSteps a0 s).jam.seq = s.jam.seq ∧ (runSteps a0 s).jam.primary = s.jam.primary
    ∧ (runSteps a0 s).jam.secondary = s.jam.secondary ∧ (runSteps a0 s).jam.lastSecondary = s.jam.lastSecondary
    ∧ (runSteps a0 s).jam.recoveryPending = s.jam.recoveryPending
    ∧ (runSteps a0 s).mem.windowLength = s.mem.windowLength ∧ (runSteps a0 s).mem.waiting = s.mem.waiting
    ∧ (runSteps a0 s).mem.bus = s.mem.bus ∧ (runSteps a0 s).ctl.area = s.ctl.area
    ∧ (runSteps a0 s).ctl.cmd = s.ctl.cmd ∧ (runSteps a0 s).ctl.lastCommand = s.ctl.lastCommand
    ∧ (runSteps a0 s).ctl.lastOutcome = s.ctl.lastOutcome ∧ (runSteps a0 s).ctl.validation = s.ctl.validation
    ∧ (runSteps a0 s).ctl.amask = s.ctl.amask ∧ (runSteps a0 s).ctl.pauseRec = s.ctl.pauseRec
    ∧ (runSteps a0 s).config = s.config ∧ (runSteps a0 s).pending = s.pending ∧ (runSteps a0 s).out = s.out
    ∧ (runSteps a0 s).freeIndex = s.freeIndex := by
  simp only [runSteps]
  (repeat' split) <;> simp

@[simp] theorem admitHeld_frame (s : State) : (admitHeld s).transport.count = s.transport.count
    ∧ (admitHeld s).transport.sensors = s.transport.sensors ∧ (admitHeld s).transport.ref = s.transport.ref
    ∧ (admitHeld s).transport.below = s.transport.below ∧ (admitHeld s).transport.allInBand = s.transport.allInBand
    ∧ (admitHeld s).transport.samplePeriod = s.transport.samplePeriod ∧ (admitHeld s).clock.pitch = s.clock.pitch
    ∧ (admitHeld s).clock.boundary = s.clock.boundary ∧ (admitHeld s).clock.lastFinal = s.clock.lastFinal
    ∧ (admitHeld s).clock.loopUnusable = s.clock.loopUnusable ∧ (admitHeld s).mail.purgeCount = s.mail.purgeCount
    ∧ (admitHeld s).mail.purgeFull = s.mail.purgeFull ∧ (admitHeld s).mail.binWaitArm = s.mail.binWaitArm
    ∧ (admitHeld s).mail.nextId = s.mail.nextId ∧ (admitHeld s).launch.schedule = s.launch.schedule
    ∧ (admitHeld s).launch.candRead = s.launch.candRead ∧ (admitHeld s).launch.emptyCount = s.launch.emptyCount
    ∧ (admitHeld s).launch.starvedArm = s.launch.starvedArm ∧ (admitHeld s).launch.trayArm = s.launch.trayArm
    ∧ (admitHeld s).launch.trays = s.launch.trays ∧ (admitHeld s).launch.wakeAsked = s.launch.wakeAsked
    ∧ (admitHeld s).track.d1 = s.track.d1 ∧ (admitHeld s).track.nextId = s.track.nextId ∧ (admitHeld s).exit = s.exit
    ∧ (admitHeld s).retire.step = s.retire.step ∧ (admitHeld s).retire.retired = s.retire.retired
    ∧ (admitHeld s).retire.launched = s.retire.launched ∧ (admitHeld s).retire.stacked = s.retire.stacked
    ∧ (admitHeld s).retire.purged = s.retire.purged ∧ (admitHeld s).retire.skipped = s.retire.skipped
    ∧ (admitHeld s).retire.batching = s.retire.batching ∧ (admitHeld s).jam.seq = s.jam.seq
    ∧ (admitHeld s).jam.primary = s.jam.primary ∧ (admitHeld s).jam.secondary = s.jam.secondary
    ∧ (admitHeld s).jam.lastSecondary = s.jam.lastSecondary
    ∧ (admitHeld s).jam.recoveryPending = s.jam.recoveryPending ∧ (admitHeld s).mem.windowLength = s.mem.windowLength
    ∧ (admitHeld s).mem.waiting = s.mem.waiting ∧ (admitHeld s).mem.bus = s.mem.bus
    ∧ (admitHeld s).ctl.area = s.ctl.area ∧ (admitHeld s).ctl.cmd = s.ctl.cmd
    ∧ (admitHeld s).ctl.lastCommand = s.ctl.lastCommand ∧ (admitHeld s).ctl.lastOutcome = s.ctl.lastOutcome
    ∧ (admitHeld s).ctl.validation = s.ctl.validation ∧ (admitHeld s).ctl.amask = s.ctl.amask
    ∧ (admitHeld s).ctl.pauseRec = s.ctl.pauseRec ∧ (admitHeld s).config = s.config
    ∧ (admitHeld s).pending = s.pending ∧ (admitHeld s).out = s.out ∧ (admitHeld s).freeIndex = s.freeIndex := by
  simp only [admitHeld]
  (repeat' split) <;> simp

@[simp] theorem completeWrite_frame (s : State) : (completeWrite s).transport.count = s.transport.count
    ∧ (completeWrite s).transport.sensors = s.transport.sensors ∧ (completeWrite s).transport.ref = s.transport.ref
    ∧ (completeWrite s).transport.below = s.transport.below
    ∧ (completeWrite s).transport.allInBand = s.transport.allInBand
    ∧ (completeWrite s).transport.samplePeriod = s.transport.samplePeriod
    ∧ (completeWrite s).clock.pitch = s.clock.pitch ∧ (completeWrite s).clock.boundary = s.clock.boundary
    ∧ (completeWrite s).clock.lastFinal = s.clock.lastFinal
    ∧ (completeWrite s).clock.loopUnusable = s.clock.loopUnusable
    ∧ (completeWrite s).mail.purgeCount = s.mail.purgeCount ∧ (completeWrite s).mail.purgeFull = s.mail.purgeFull
    ∧ (completeWrite s).mail.binWaitArm = s.mail.binWaitArm ∧ (completeWrite s).mail.nextId = s.mail.nextId
    ∧ (completeWrite s).launch.schedule = s.launch.schedule ∧ (completeWrite s).launch.candRead = s.launch.candRead
    ∧ (completeWrite s).launch.emptyCount = s.launch.emptyCount
    ∧ (completeWrite s).launch.starvedArm = s.launch.starvedArm ∧ (completeWrite s).launch.trayArm = s.launch.trayArm
    ∧ (completeWrite s).launch.trays = s.launch.trays ∧ (completeWrite s).launch.wakeAsked = s.launch.wakeAsked
    ∧ (completeWrite s).track.d1 = s.track.d1 ∧ (completeWrite s).track.nextId = s.track.nextId
    ∧ (completeWrite s).exit = s.exit ∧ (completeWrite s).retire.step = s.retire.step
    ∧ (completeWrite s).retire.retired = s.retire.retired ∧ (completeWrite s).retire.launched = s.retire.launched
    ∧ (completeWrite s).retire.stacked = s.retire.stacked ∧ (completeWrite s).retire.purged = s.retire.purged
    ∧ (completeWrite s).retire.skipped = s.retire.skipped ∧ (completeWrite s).retire.batching = s.retire.batching
    ∧ (completeWrite s).jam.seq = s.jam.seq ∧ (completeWrite s).jam.primary = s.jam.primary
    ∧ (completeWrite s).jam.secondary = s.jam.secondary ∧ (completeWrite s).jam.lastSecondary = s.jam.lastSecondary
    ∧ (completeWrite s).jam.recoveryPending = s.jam.recoveryPending
    ∧ (completeWrite s).mem.windowLength = s.mem.windowLength ∧ (completeWrite s).mem.waiting = s.mem.waiting
    ∧ (completeWrite s).ctl.area = s.ctl.area ∧ (completeWrite s).ctl.cmd = s.ctl.cmd
    ∧ (completeWrite s).ctl.lastCommand = s.ctl.lastCommand ∧ (completeWrite s).ctl.lastOutcome = s.ctl.lastOutcome
    ∧ (completeWrite s).ctl.validation = s.ctl.validation ∧ (completeWrite s).ctl.amask = s.ctl.amask
    ∧ (completeWrite s).ctl.pauseRec = s.ctl.pauseRec ∧ (completeWrite s).config = s.config
    ∧ (completeWrite s).pending = s.pending ∧ (completeWrite s).freeIndex = s.freeIndex := by
  simp only [completeWrite]
  (repeat' split) <;> simp

theorem takeFront_frame (s s' : State) (h : s.takeFront = some s') : s'.transport.count = s.transport.count
    ∧ s'.transport.sensors = s.transport.sensors ∧ s'.transport.ref = s.transport.ref
    ∧ s'.transport.below = s.transport.below ∧ s'.transport.allInBand = s.transport.allInBand
    ∧ s'.transport.samplePeriod = s.transport.samplePeriod ∧ s'.clock.pitch = s.clock.pitch
    ∧ s'.clock.boundary = s.clock.boundary ∧ s'.clock.ring = s.clock.ring ∧ s'.clock.lastFinal = s.clock.lastFinal
    ∧ s'.clock.loopUnusable = s.clock.loopUnusable ∧ s'.fetch.pos = s.fetch.pos ∧ s'.fetch.stack = s.fetch.stack
    ∧ s'.fetch.outer = s.fetch.outer ∧ s'.fetch.chain = s.fetch.chain ∧ s'.fetch.resync = s.fetch.resync
    ∧ s'.fetch.read = s.fetch.read ∧ s'.fetch.rereadAsked = s.fetch.rereadAsked ∧ s'.fetch.nextId = s.fetch.nextId
    ∧ s'.mail.purgeCount = s.mail.purgeCount ∧ s'.mail.purgeFull = s.mail.purgeFull
    ∧ s'.mail.binWaitArm = s.mail.binWaitArm ∧ s'.launch.schedule = s.launch.schedule
    ∧ s'.launch.candRead = s.launch.candRead ∧ s'.launch.emptyCount = s.launch.emptyCount
    ∧ s'.launch.starvedArm = s.launch.starvedArm ∧ s'.launch.trayArm = s.launch.trayArm
    ∧ s'.launch.trays = s.launch.trays ∧ s'.track.queues = s.track.queues ∧ s'.track.fifo = s.track.fifo
    ∧ s'.track.d1 = s.track.d1 ∧ s'.track.nextId = s.track.nextId ∧ s'.exit = s.exit ∧ s'.retire = s.retire
    ∧ s'.jam = s.jam ∧ s'.mem = s.mem ∧ s'.ctl.area = s.ctl.area ∧ s'.ctl.cmd = s.ctl.cmd
    ∧ s'.ctl.lastCommand = s.ctl.lastCommand ∧ s'.ctl.lastOutcome = s.ctl.lastOutcome
    ∧ s'.ctl.validation = s.ctl.validation ∧ s'.ctl.lastSkip = s.ctl.lastSkip ∧ s'.ctl.amask = s.ctl.amask
    ∧ s'.config = s.config ∧ s'.pending = s.pending ∧ s'.out = s.out ∧ s'.freeIndex = s.freeIndex := by
  unfold takeFront at h
  (repeat' split at h) <;> first | (simp at h; done) | (simp only [Option.some.injEq] at h; subst h; simp)
@[simp] theorem frontLoop_frame (n : Nat) (s : State) : (s.frontLoop n).transport.count = s.transport.count
    ∧ (s.frontLoop n).transport.sensors = s.transport.sensors ∧ (s.frontLoop n).transport.ref = s.transport.ref
    ∧ (s.frontLoop n).transport.below = s.transport.below
    ∧ (s.frontLoop n).transport.allInBand = s.transport.allInBand
    ∧ (s.frontLoop n).transport.samplePeriod = s.transport.samplePeriod ∧ (s.frontLoop n).clock.pitch = s.clock.pitch
    ∧ (s.frontLoop n).clock.boundary = s.clock.boundary ∧ (s.frontLoop n).clock.ring = s.clock.ring
    ∧ (s.frontLoop n).clock.lastFinal = s.clock.lastFinal ∧ (s.frontLoop n).clock.loopUnusable = s.clock.loopUnusable
    ∧ (s.frontLoop n).fetch.pos = s.fetch.pos ∧ (s.frontLoop n).fetch.stack = s.fetch.stack
    ∧ (s.frontLoop n).fetch.outer = s.fetch.outer ∧ (s.frontLoop n).fetch.chain = s.fetch.chain
    ∧ (s.frontLoop n).fetch.resync = s.fetch.resync ∧ (s.frontLoop n).fetch.read = s.fetch.read
    ∧ (s.frontLoop n).fetch.rereadAsked = s.fetch.rereadAsked ∧ (s.frontLoop n).fetch.nextId = s.fetch.nextId
    ∧ (s.frontLoop n).mail.purgeCount = s.mail.purgeCount ∧ (s.frontLoop n).mail.purgeFull = s.mail.purgeFull
    ∧ (s.frontLoop n).mail.binWaitArm = s.mail.binWaitArm ∧ (s.frontLoop n).launch.schedule = s.launch.schedule
    ∧ (s.frontLoop n).launch.candRead = s.launch.candRead ∧ (s.frontLoop n).launch.emptyCount = s.launch.emptyCount
    ∧ (s.frontLoop n).launch.starvedArm = s.launch.starvedArm ∧ (s.frontLoop n).launch.trayArm = s.launch.trayArm
    ∧ (s.frontLoop n).launch.trays = s.launch.trays ∧ (s.frontLoop n).track.queues = s.track.queues
    ∧ (s.frontLoop n).track.fifo = s.track.fifo ∧ (s.frontLoop n).track.d1 = s.track.d1
    ∧ (s.frontLoop n).track.nextId = s.track.nextId ∧ (s.frontLoop n).exit = s.exit
    ∧ (s.frontLoop n).retire.launched = s.retire.launched ∧ (s.frontLoop n).retire.stacked = s.retire.stacked
    ∧ (s.frontLoop n).retire.purged = s.retire.purged ∧ (s.frontLoop n).retire.lost = s.retire.lost
    ∧ (s.frontLoop n).retire.skipped = s.retire.skipped ∧ (s.frontLoop n).jam.seq = s.jam.seq
    ∧ (s.frontLoop n).jam.primary = s.jam.primary ∧ (s.frontLoop n).jam.secondary = s.jam.secondary
    ∧ (s.frontLoop n).jam.lastSecondary = s.jam.lastSecondary ∧ (s.frontLoop n).jam.stranded = s.jam.stranded
    ∧ (s.frontLoop n).jam.interrupted = s.jam.interrupted ∧ (s.frontLoop n).jam.mainResume = s.jam.mainResume
    ∧ (s.frontLoop n).jam.mainResync = s.jam.mainResync ∧ (s.frontLoop n).jam.recoveryResume = s.jam.recoveryResume
    ∧ (s.frontLoop n).jam.recoveryPending = s.jam.recoveryPending
    ∧ (s.frontLoop n).mem.windowLength = s.mem.windowLength ∧ (s.frontLoop n).mem.waiting = s.mem.waiting
    ∧ (s.frontLoop n).mem.bus = s.mem.bus ∧ (s.frontLoop n).ctl.area = s.ctl.area
    ∧ (s.frontLoop n).ctl.cmd = s.ctl.cmd ∧ (s.frontLoop n).ctl.lastCommand = s.ctl.lastCommand
    ∧ (s.frontLoop n).ctl.lastOutcome = s.ctl.lastOutcome ∧ (s.frontLoop n).ctl.validation = s.ctl.validation
    ∧ (s.frontLoop n).ctl.lastSkip = s.ctl.lastSkip ∧ (s.frontLoop n).ctl.amask = s.ctl.amask
    ∧ (s.frontLoop n).config = s.config ∧ (s.frontLoop n).pending = s.pending ∧ (s.frontLoop n).out = s.out
    ∧ (s.frontLoop n).freeIndex = s.freeIndex := by
  induction n generalizing s with
  | zero => simp [frontLoop]
  | succ n ih =>
    rw [frontLoop]
    cases h : s.takeFront with
    | none => simp
    | some s' => simp only [ih, settleBooks_frame, takeFront_frame s s' h]; simp
@[simp] theorem validateAndInstall_frame (ws : List Word) (s : State) :
    (s.validateAndInstall ws).transport = s.transport
    ∧ (s.validateAndInstall ws).clock.running = s.clock.running
    ∧ (s.validateAndInstall ws).clock.pitch = s.clock.pitch
    ∧ (s.validateAndInstall ws).clock.boundary = s.clock.boundary
    ∧ (s.validateAndInstall ws).clock.ring = s.clock.ring
    ∧ (s.validateAndInstall ws).clock.lastFinal = s.clock.lastFinal ∧ (s.validateAndInstall ws).fetch = s.fetch
    ∧ (s.validateAndInstall ws).mail.table = s.mail.table ∧ (s.validateAndInstall ws).mail.bins = s.mail.bins
    ∧ (s.validateAndInstall ws).mail.purgeCount = s.mail.purgeCount
    ∧ (s.validateAndInstall ws).mail.binWaitArm = s.mail.binWaitArm
    ∧ (s.validateAndInstall ws).mail.waitingOpen = s.mail.waitingOpen
    ∧ (s.validateAndInstall ws).mail.nextId = s.mail.nextId ∧ (s.validateAndInstall ws).launch = s.launch
    ∧ (s.validateAndInstall ws).track = s.track ∧ (s.validateAndInstall ws).exit = s.exit
    ∧ (s.validateAndInstall ws).retire.step = s.retire.step
    ∧ (s.validateAndInstall ws).retire.retired = s.retire.retired
    ∧ (s.validateAndInstall ws).retire.launched = s.retire.launched
    ∧ (s.validateAndInstall ws).retire.stacked = s.retire.stacked
    ∧ (s.validateAndInstall ws).retire.purged = s.retire.purged
    ∧ (s.validateAndInstall ws).retire.lost = s.retire.lost
    ∧ (s.validateAndInstall ws).retire.skipped = s.retire.skipped ∧ (s.validateAndInstall ws).jam = s.jam
    ∧ (s.validateAndInstall ws).mem = s.mem ∧ (s.validateAndInstall ws).ctl.area = s.ctl.area
    ∧ (s.validateAndInstall ws).ctl.lastSkip = s.ctl.lastSkip ∧ (s.validateAndInstall ws).ctl.amask = s.ctl.amask
    ∧ (s.validateAndInstall ws).ctl.pauseRec = s.ctl.pauseRec ∧ (s.validateAndInstall ws).pending = s.pending
    ∧ (s.validateAndInstall ws).out = s.out ∧ (s.validateAndInstall ws).freeIndex = s.freeIndex := by
  unfold validateAndInstall
  cases (configBlockOf ws).validate <;> simp

@[simp] theorem finish_frame (s : State) : (finish s).transport.count = s.transport.count
    ∧ (finish s).transport.sensors = s.transport.sensors ∧ (finish s).clock.loopUnusable = s.clock.loopUnusable
    ∧ (finish s).fetch.chain = s.fetch.chain ∧ (finish s).fetch.resync = s.fetch.resync
    ∧ (finish s).fetch.nextId = s.fetch.nextId ∧ (finish s).mail.purgeCount = s.mail.purgeCount
    ∧ (finish s).mail.purgeFull = s.mail.purgeFull ∧ (finish s).launch.trays = s.launch.trays
    ∧ (finish s).track.d1 = s.track.d1 ∧ (finish s).exit = s.exit ∧ (finish s).retire.stacked = s.retire.stacked
    ∧ (finish s).retire.purged = s.retire.purged ∧ (finish s).jam.recoveryPending = s.jam.recoveryPending
    ∧ (finish s).mem.windowLength = s.mem.windowLength ∧ (finish s).ctl.area = s.ctl.area
    ∧ (finish s).ctl.cmd = s.ctl.cmd ∧ (finish s).ctl.lastCommand = s.ctl.lastCommand
    ∧ (finish s).ctl.lastOutcome = s.ctl.lastOutcome ∧ (finish s).ctl.validation = s.ctl.validation
    ∧ (finish s).ctl.amask = s.ctl.amask ∧ (finish s).config = s.config ∧ (finish s).pending = s.pending
    ∧ (finish s).freeIndex = s.freeIndex := by
  simp [finish]

@[simp] theorem takeConfigWord_frame (a0 : Word) (s : State) : (takeConfigWord a0 s).transport = s.transport
    ∧ (takeConfigWord a0 s).clock.running = s.clock.running ∧ (takeConfigWord a0 s).clock.pitch = s.clock.pitch
    ∧ (takeConfigWord a0 s).clock.boundary = s.clock.boundary ∧ (takeConfigWord a0 s).clock.ring = s.clock.ring
    ∧ (takeConfigWord a0 s).clock.lastFinal = s.clock.lastFinal ∧ (takeConfigWord a0 s).fetch = s.fetch
    ∧ (takeConfigWord a0 s).mail.table = s.mail.table ∧ (takeConfigWord a0 s).mail.bins = s.mail.bins
    ∧ (takeConfigWord a0 s).mail.purgeCount = s.mail.purgeCount
    ∧ (takeConfigWord a0 s).mail.binWaitArm = s.mail.binWaitArm
    ∧ (takeConfigWord a0 s).mail.waitingOpen = s.mail.waitingOpen ∧ (takeConfigWord a0 s).mail.nextId = s.mail.nextId
    ∧ (takeConfigWord a0 s).launch = s.launch ∧ (takeConfigWord a0 s).track = s.track
    ∧ (takeConfigWord a0 s).exit = s.exit ∧ (takeConfigWord a0 s).retire.step = s.retire.step
    ∧ (takeConfigWord a0 s).retire.retired = s.retire.retired
    ∧ (takeConfigWord a0 s).retire.launched = s.retire.launched
    ∧ (takeConfigWord a0 s).retire.stacked = s.retire.stacked ∧ (takeConfigWord a0 s).retire.purged = s.retire.purged
    ∧ (takeConfigWord a0 s).retire.lost = s.retire.lost ∧ (takeConfigWord a0 s).retire.skipped = s.retire.skipped
    ∧ (takeConfigWord a0 s).jam = s.jam ∧ (takeConfigWord a0 s).mem.windowLength = s.mem.windowLength
    ∧ (takeConfigWord a0 s).mem.queue = s.mem.queue ∧ (takeConfigWord a0 s).mem.held = s.mem.held
    ∧ (takeConfigWord a0 s).mem.bus = s.mem.bus ∧ (takeConfigWord a0 s).ctl.area = s.ctl.area
    ∧ (takeConfigWord a0 s).ctl.lastSkip = s.ctl.lastSkip ∧ (takeConfigWord a0 s).ctl.amask = s.ctl.amask
    ∧ (takeConfigWord a0 s).ctl.pauseRec = s.ctl.pauseRec ∧ (takeConfigWord a0 s).pending = s.pending
    ∧ (takeConfigWord a0 s).out = s.out ∧ (takeConfigWord a0 s).freeIndex = s.freeIndex := by
  simp only [takeConfigWord]
  (repeat' split) <;> simp

end Sys2Proof.Machine.State
end

