-- ==== Sys2Proof/Laws/SheetBooks.lean ====
section
/-! SUPPORT. The sheet books through each operation: what it does to the serial numbers of the track records in use, and that
it keeps SheetBooks. -/

namespace Sys2Proof.Machine.State

set_option Elab.async false

def sheetIds (s : State) : List Nat := s.track.sheets.map (·.id)

theorem sheetIds_of_track {s t : State} (h : t.track = s.track) : t.sheetIds = s.sheetIds := by simp [sheetIds, h]
theorem sheetIds_of_sheets {s t : State} (h : t.track.sheets = s.track.sheets) : t.sheetIds = s.sheetIds := by
  simp [sheetIds, h]

@[simp] theorem sheetIds_updSheet (i : Nat) (f : Sheet → Sheet) (h : ∀ x, (f x).id = x.id) (s : State) : (s.updSheet i f).sheetIds = s.sheetIds := by
  simp only [sheetIds, updSheet, onTrack, List.map_map]
  congr 1; funext x; simp only [Function.comp]; split <;> simp [h]

@[simp] theorem sheetIds_onTrack (g : Track → Track) (s : State) (h : (g s.track).sheets = s.track.sheets) : (s.onTrack g).sheetIds = s.sheetIds := sheetIds_of_sheets h
@[simp] theorem sheetIds_foldl {α : Type} (f : State → α → State) (h : ∀ s a, (f s a).sheetIds = s.sheetIds) : (l : List α) → (s : State) → (l.foldl f s).sheetIds = s.sheetIds
  | [], _ => rfl
  | a :: l, s => (sheetIds_foldl f h l (f s a)).trans (h s a)

@[simp] theorem sheetIds_mms (m : Nat) (s : State) : (s.markMailpieceSheets m).sheetIds = s.sheetIds := by
  simp only [sheetIds, markMailpieceSheets, onTrack, List.map_map]
  congr 1; funext x; simp only [Function.comp]; split <;> rfl

@[simp] theorem sheetIds_onMem (f) (s : State) : (s.onMem f).sheetIds = s.sheetIds := rfl
@[simp] theorem sheetIds_onMail (f) (s : State) : (s.onMail f).sheetIds = s.sheetIds := rfl
@[simp] theorem sheetIds_onCtl (f) (s : State) : (s.onCtl f).sheetIds = s.sheetIds := rfl
@[simp] theorem sheetIds_onJam (f) (s : State) : (s.onJam f).sheetIds = s.sheetIds := rfl
@[simp] theorem sheetIds_onFetch (f) (s : State) : (s.onFetch f).sheetIds = s.sheetIds := rfl
@[simp] theorem sheetIds_onLaunch (f) (s : State) : (s.onLaunch f).sheetIds = s.sheetIds := rfl
@[simp] theorem sheetIds_onRetire (f) (s : State) : (s.onRetire f).sheetIds = s.sheetIds := rfl
@[simp] theorem sheetIds_onExit (f) (s : State) : (s.onExit f).sheetIds = s.sheetIds := rfl
@[simp] theorem sheetIds_onTransport (f) (s : State) : (s.onTransport f).sheetIds = s.sheetIds := rfl
@[simp] theorem sheetIds_onClock (f) (s : State) : (s.onClock f).sheetIds = s.sheetIds := rfl
@[simp] theorem sheetIds_emit (o) (s : State) : (s.emit o).sheetIds = s.sheetIds := rfl
@[simp] theorem sheetIds_fresh (s : State) : (s.fresh).sheetIds = s.sheetIds := rfl
@[simp] theorem sheetIds_withdraw (o) (s : State) : (s.withdrawOwner o).sheetIds = s.sheetIds := rfl
@[simp] theorem sheetIds_setEntry (a b c d) (s : State) : (s.setEntry a b c d).sheetIds = s.sheetIds := rfl
@[simp] theorem sheetIds_reg (a b c) (s : State) : (s.registerCompare a b c).sheetIds = s.sheetIds := rfl
@[simp] theorem sheetIds_req (a b) (s : State) : (s.requestRead a b).sheetIds = s.sheetIds := rfl
@[simp] theorem sheetIds_rr (m) (s : State) : (s.releaseReservation m).sheetIds = s.sheetIds := sheetIds_of_track (by simp)
@[simp] theorem sheetIds_sk (m) (s : State) : (s.skipCandidate m).sheetIds = s.sheetIds := sheetIds_of_track (by simp)
@[simp] theorem sheetIds_updQueue (c f) (s : State) : (s.updQueue c f).sheetIds = s.sheetIds := rfl
@[simp] theorem sheetIds_leaveQueue (c f) (s : State) : (s.leaveQueue c f).sheetIds = s.sheetIds := rfl
@[simp] theorem sheetIds_closeMp (m) (s : State) : (s.closeMp m).sheetIds = s.sheetIds := rfl
@[simp] theorem sheetIds_updMp (m f) (s : State) : (s.updMp m f).sheetIds = s.sheetIds := rfl
@[simp] theorem sheetIds_updBin (m f) (s : State) : (s.updBin m f).sheetIds = s.sheetIds := rfl
@[simp] theorem sheetIds_updEntry (m f) (s : State) : (s.updEntry m f).sheetIds = s.sheetIds := rfl
@[simp] theorem sheetIds_enterPurging (m w) (s : State) : (s.enterPurging m w).sheetIds = s.sheetIds := by
  simp only [enterPurging]
  (repeat' split) <;> simp
@[simp] theorem sheetIds_closeShort (m) (s : State) : (s.closeShort m).sheetIds = s.sheetIds := by
  simp only [closeShort]
  (repeat' split) <;> simp
@[simp] theorem sheetIds_acceptOpen (m) (s : State) : (s.acceptOpen m).sheetIds = s.sheetIds := by
  simp only [acceptOpen]
  refine sheetIds_of_sheets ?_
  simp
@[simp] theorem sheetIds_takeOpen (m) (s : State) : (s.takeOpen m).sheetIds = s.sheetIds := by
  simp only [takeOpen]
  (repeat' split) <;> simp
@[simp] theorem sheetIds_skipSheet (m n) (s : State) : (s.skipSheet m n).sheetIds = s.sheetIds := by
  simp only [skipSheet]
  refine sheetIds_of_sheets ?_
  simp
@[simp] theorem sheetIds_assignSheet (m) (s : State) : (s.assignSheet m).sheetIds = s.sheetIds := by
  simp only [assignSheet]
  (repeat' split) <;> simp
@[simp] theorem sheetIds_giveMark (m w) (s : State) : (s.giveMark m w).sheetIds = s.sheetIds := by
  simp only [giveMark]
  (repeat' split) <;> simp
@[simp] theorem sheetIds_enterQueue (k a b c d) (s : State) : (s.enterQueue k a b c d).sheetIds = s.sheetIds := by
  simp only [enterQueue]
  (repeat' split) <;> simp_all
@[simp] theorem sheetIds_closeFullWindow (r) (s : State) : (s.closeFullWindow r).sheetIds = s.sheetIds := by
  simp only [closeFullWindow]
  (repeat' split) <;> simp
@[simp] theorem sheetIds_issuePick (a l) (s : State) : (s.issuePick a l).sheetIds = s.sheetIds := by
  simp only [issuePick]
  (repeat' split) <;> simp
@[simp] theorem sheetIds_freeze (x) (s : State) : (s.freeze x).sheetIds = s.sheetIds := by
  simp [freeze]
@[simp] theorem sheetIds_freezeWhere (x) (s : State) : (s.freezeWhere x).sheetIds = s.sheetIds := by
  simp [freezeWhere]
@[simp] theorem sheetIds_markJam (s : State) : (s.markJam).sheetIds = s.sheetIds := by
  simp only [markJam]
  rw [sheetIds_foldl _ (fun s a => by simp)]
  simp only [sheetIds, onTrack, List.map_map]
  congr 1; funext x; simp only [Function.comp]; split <;> rfl
@[simp] theorem sheetIds_settleMailpieces (b) (s : State) : (s.settleMailpieces b).sheetIds = s.sheetIds := sheetIds_of_track (by simp)
@[simp] theorem sheetIds_closeMailpieces (s : State) : (s.closeMailpieces).sheetIds = s.sheetIds := by
  simp only [closeMailpieces, sheetIds_settleMailpieces]
  rw [sheetIds_foldl _ (fun s a => by simp)]; rfl
@[simp] theorem sheetIds_attributeMark (r) (s : State) : (s.attributeMark r).sheetIds = s.sheetIds := by
  simp only [attributeMark]
  (repeat' split) <;> simp
@[simp] theorem sheetIds_moveToDest (k x a d) (s : State) : (s.moveToDest k x a d).sheetIds = s.sheetIds := by
  simp only [moveToDest]
  (repeat' split) <;> simp
@[simp] theorem sheetIds_tellCommit (k x a) (s : State) : (s.tellCommit k x a).sheetIds = s.sheetIds := by
  simp only [tellCommit]
  (repeat' split) <;> simp
@[simp] theorem sheetIds_commit (k x a) (s : State) : (s.commit k x a).sheetIds = s.sheetIds := by
  simp [commit]
@[simp] theorem sheetIds_transferAtReg (x) (s : State) : (s.transferAtReg x).sheetIds = s.sheetIds := by
  simp only [transferAtReg]; repeat' split
  all_goals simp
@[simp] theorem sheetIds_endSide2 (x) (s : State) : (s.endSide2Check x).sheetIds = s.sheetIds := by
  simp only [endSide2Check]
  (repeat' split) <;> simp
@[simp] theorem sheetIds_fus (x) (s : State) : (s.workAtFus x).sheetIds = s.sheetIds := by
  simp only [workAtFus]; repeat' split
  all_goals simp
@[simp] theorem sheetIds_inv (x) (s : State) : (s.workAtInv x).sheetIds = s.sheetIds := by
  simp only [workAtInv]
  (repeat' split) <;> simp
@[simp] theorem sheetIds_mrg (x) (s : State) : (s.workAtMrg x).sheetIds = s.sheetIds := by
  simp only [workAtMrg]; split
  · show (updSheet _ _ s).sheetIds = _
    simp
  · rfl
@[simp] theorem sheetIds_cw (c x) (s : State) : (s.checkpointWork c x).sheetIds = s.sheetIds := by
  cases c <;> simp [checkpointWork]
@[simp] theorem sheetIds_reanchor (k c i l) (s : State) : (s.reanchor k c i l).sheetIds = s.sheetIds := by
  simp only [reanchor]
  (repeat' split) <;> simp
@[simp] theorem sheetIds_ad (s : State) : (s.answerDone).sheetIds = s.sheetIds := by
  simp only [answerDone]
  (repeat' split) <;> simp
@[simp] theorem sheetIds_af (s : State) : (s.answerFault).sheetIds = s.sheetIds := by
  simp only [answerFault]
  (repeat' split) <;> simp
@[simp] theorem sheetIds_tir (t v) (s : State) : (s.takeInvReady t v).sheetIds = s.sheetIds := sheetIds_updSheet _ _ (by intro x; split <;> rfl) _

theorem mem_sheetIds {s : State} {x : Sheet} (h : x ∈ s.track.sheets) : x.id ∈ s.sheetIds := List.mem_map_of_mem h
theorem sheetIds_nil {s : State} : s.sheetIds = [] ↔ s.track.sheets = [] := by simp [sheetIds]
theorem sheetIds_len (s : State) : s.track.sheets.length = s.sheetIds.length := by simp [sheetIds]

theorem books_iff (s : State) : SheetBooks s ↔
    (s.retire.launched = s.retire.stacked + s.retire.purged + s.retire.lost + BitVec.ofNat 32 s.sheetIds.length) ∧
    s.sheetIds.Nodup ∧ (∀ i ∈ s.sheetIds, i < s.track.nextId) ∧ (emptyPathState s.ctl.state = true → s.sheetIds = []) := by
  constructor
  · rintro ⟨a, b, c, d⟩
    refine ⟨by rw [← sheetIds_len]; exact a, b, ?_, fun h => by simp [sheetIds, d h]⟩
    intro i hi
    obtain ⟨x, hx, rfl⟩ := List.mem_map.1 hi
    exact c x hx
  · rintro ⟨a, b, c, d⟩
    exact ⟨by rw [sheetIds_len]; exact a, b, fun x hx => c _ (mem_sheetIds hx), fun h => sheetIds_nil.1 (d h)⟩

theorem SheetBooks.go {s t : State} (h : SheetBooks s) (l : t.retire.launched = s.retire.launched)
  (st : t.retire.stacked = s.retire.stacked)
  (p : t.retire.purged = s.retire.purged)
  (lo : t.retire.lost = s.retire.lost)
  (n : t.track.nextId = s.track.nextId) (i : t.sheetIds = s.sheetIds) (c : emptyPathState t.ctl.state = true → s.sheetIds = []) :
    SheetBooks t := by
  rw [books_iff] at *
  rw [l, st, p, lo, n, i]
  exact ⟨h.1, h.2.1, h.2.2.1, c⟩

theorem SheetBooks.same {s t : State} (h : SheetBooks s) (l : t.retire.launched = s.retire.launched)
  (st : t.retire.stacked = s.retire.stacked)
  (p : t.retire.purged = s.retire.purged)
  (lo : t.retire.lost = s.retire.lost)
  (n : t.track.nextId = s.track.nextId) (i : t.sheetIds = s.sheetIds) (c : t.ctl.state = s.ctl.state) :
    SheetBooks t :=
  h.go l st p lo n i (by rw [c]; exact ((books_iff s).1 h).2.2.2)

theorem SheetBooks.setState {s : State} (h : SheetBooks s) (c) (hc : emptyPathState c = true → s.sheetIds = []) :
    SheetBooks (s.setState c) :=
  h.go rfl rfl rfl rfl rfl rfl hc

theorem SheetBooks.enterHalted {s : State} (h : SheetBooks s) (he : s.sheetIds = []) : SheetBooks s.enterHalted := by
  refine h.go ?_ ?_ ?_ ?_ ?_ ?_ (fun _ => he)
  all_goals first | (simp; done) | (refine sheetIds_of_sheets ?_; simp)

theorem isEmpty_sheetIds {s : State} (h : s.track.sheets.isEmpty = true) : s.sheetIds = [] := by
  simp at h; simp [sheetIds, h]

theorem SheetBooks.enterDraining {s : State} (h : SheetBooks s) : SheetBooks s.enterDraining := by
  have h' : SheetBooks (s.setState .draining) := h.setState _ (by simp [emptyPathState])
  simp only [State.enterDraining]; split
  · exact h'.enterHalted (isEmpty_sheetIds ‹_›)
  · exact h'

theorem SheetBooks.enterStandby {s : State} (h : SheetBooks s) (he : s.sheetIds = []) :
    SheetBooks s.enterStandby := by
  refine h.go ?_ ?_ ?_ ?_ ?_ ?_ (fun _ => he)
  all_goals first | (simp; done) | (refine sheetIds_of_sheets ?_; simp)

theorem SheetBooks.considerStandby {s : State} (h : SheetBooks s) : SheetBooks s.considerStandby := by
  simp only [State.considerStandby]; split
  · rename_i hc; exact h.enterStandby (isEmpty_sheetIds hc.2.2)
  · exact h

theorem SheetBooks.setEntry {s : State} (h : SheetBooks s) (a b c d) : SheetBooks (s.setEntry a b c d) := by
  (refine SheetBooks.same h ?_ ?_ ?_ ?_ ?_ ?_ ?_ <;> first | with_reducible rfl | simp)
theorem SheetBooks.onCtlPause {s : State} (h : SheetBooks s) (f : Control → Control) (hf : (f s.ctl).state = s.ctl.state) :
    SheetBooks (s.onCtl f) := by
  exact h.same rfl rfl rfl rfl rfl rfl hf

theorem SheetBooks.takePause {s : State} (h : SheetBooks s) (i) : SheetBooks (s.takePause i) := by
  simp only [State.takePause]
  have h' : SheetBooks ((s.setEntry i .passed .passed none).onCtl fun u => { u with pauseRec := some i }) := by
    (refine SheetBooks.same h ?_ ?_ ?_ ?_ ?_ ?_ ?_ <;> first | with_reducible rfl | simp)
  split
  · rename_i hs
    have : ((s.setEntry i .passed .passed none).onCtl fun u => { u with pauseRec := some i }).sheetIds = [] :=
      ((books_iff _).1 h').2.2.2 (by rw [hs]; rfl)
    exact (h'.setState .draining (by simp [emptyPathState])).enterHalted this
  · exact h'.enterDraining

@[simp] theorem sheetIds_takeCallAtFront (i) (s : State) : (s.takeCallAtFront i).sheetIds = s.sheetIds := sheetIds_of_track (by simp)
theorem SheetBooks.handleFront {s : State} (h : SheetBooks s) (e) : SheetBooks (s.handleFront e) := by
  simp only [State.handleFront]; repeat' split
  all_goals first | with_reducible exact h.takePause _ | (refine SheetBooks.same h ?_ ?_ ?_ ?_ ?_ ?_ ?_ <;> first | with_reducible rfl | simp)

@[simp] theorem sheetIds_skipRequests (i) (s : State) : (s.skipRequests i).sheetIds = s.sheetIds := sheetIds_of_track (by simp)
@[simp] theorem sheetIds_skipAttention (i) (s : State) : (s.skipAttention i).sheetIds = s.sheetIds := sheetIds_of_track (by simp)
theorem SheetBooks.skip {s : State} (h : SheetBooks s) (r) : SheetBooks (s.skip r) := by
  simp only [State.skip]
  have h' : SheetBooks (((s.onCtl fun u => { u with lastSkip := some r }).onRetire fun u => { u with skipped := u.skipped + 1 }).onLaunch fun u => { u with emptyCount := min (((s.onCtl fun u => { u with lastSkip := some r }).onRetire fun u => { u with skipped := u.skipped + 1 })).runOutLimit (u.emptyCount + 1) }) := by
    (refine SheetBooks.same h ?_ ?_ ?_ ?_ ?_ ?_ ?_ <;> first | with_reducible rfl | simp)
  (refine SheetBooks.same h'.considerStandby ?_ ?_ ?_ ?_ ?_ ?_ ?_ <;> first | with_reducible rfl | simp)

theorem SheetBooks.launchCandidate {s : State} (h : SheetBooks s) (k c p) (hs : s.ctl.state = .running) :
    SheetBooks (s.launchCandidate k c p) := by
  have hl : (s.launchCandidate k c p).retire.launched = s.retire.launched + 1 := by
    simp only [State.launchCandidate]; split <;> simp
  have hi : (s.launchCandidate k c p).sheetIds = s.sheetIds ++ [s.track.nextId] := by
    simp only [State.launchCandidate]; split <;> simp [sheetIds, newSheet]
  have hn : (s.launchCandidate k c p).track.nextId = s.track.nextId + 1 := by
    simp only [State.launchCandidate]; split <;> simp
  have h1 := h
  rw [books_iff] at *
  refine ⟨?_, ?_, ?_, ?_⟩
  · rw [hl, hi]; simp [h.1, BitVec.ofNat_add, BitVec.add_assoc]
  · rw [hi, List.nodup_append]
    refine ⟨h.2.1, by simp, ?_⟩
    intro a ha b hb
    simp at hb; subst hb
    have := h.2.2.1 a ha; omega
  · rw [hi, hn]; intro i hi
    simp at hi
    rcases hi with hi | hi
    · have := h.2.2.1 i hi; omega
    · omega
  · simp [hs, emptyPathState]

theorem sheetIds_checks (s : State) : (s.checks1to4).1.sheetIds = s.sheetIds := sheetIds_of_track (by simp)
theorem SheetBooks.checks {s : State} (h : SheetBooks s) : SheetBooks (s.checks1to4).1 := by
  refine h.same ?_ ?_ ?_ ?_ ?_ (sheetIds_checks s) ?_ <;> simp

theorem SheetBooks.launchDecision {s : State} (h : SheetBooks s) : SheetBooks s.launchDecision := by
  simp only [State.launchDecision]
  split
  · exact h
  · split
    · rename_i hc
      split
      · exact h.checks.skip _
      · simp only [State.decideLaunch]
        split
        · exact h.checks
        · split
          · exact h.checks.skip _
          · exact h.checks.launchCandidate _ _ _ (by simp [hc.2])
    · exact h

theorem SheetBooks.evaluateWake {s : State} (h : SheetBooks s) : SheetBooks s.evaluateWake := by
  simp only [State.evaluateWake]
  have h' : SheetBooks (s.onLaunch fun u => { u with wakeAsked := false }) := by
    (refine SheetBooks.same h ?_ ?_ ?_ ?_ ?_ ?_ ?_ <;> first | with_reducible rfl | simp)
  repeat' split
  · have := h'.checks.setState .running (by simp [emptyPathState])
    refine this.same ?_ ?_ ?_ ?_ ?_ ?_ ?_ <;> first | (simp; done) | (refine sheetIds_of_sheets ?_; simp)
  · exact h'.checks
  · exact h'
  · exact h

theorem nodup_filter_len {l : List Nat} (h : l.Nodup) {i : Nat} (hi : i ∈ l) : (l.filter (· ≠ i)).length + 1 = l.length := by
  induction l with
  | nil => simp at hi
  | cons a l ih =>
    rw [List.nodup_cons] at h
    by_cases ha : a = i
    · subst ha
      have : l.filter (· ≠ a) = l := by
        rw [List.filter_eq_self]; intro b hb; simp; rintro rfl; exact h.1 hb
      simp only [List.filter_cons]; simp at *
      congr 1
    · have hi' : i ∈ l := by simpa [Ne.symm ha] using hi
      simp only [List.filter_cons]; simp [ha]
      have := ih h.2 hi'; simpa using this

@[simp] theorem sheetIds_freeSheet (i) (s : State) : (s.freeSheet i).sheetIds = s.sheetIds.filter (· ≠ i) := by
  simp [freeSheet, sheetIds, onTrack, withdrawOwner, onTransport, List.filter_map, Function.comp_def]

theorem freeBooks {s t : State} (h : SheetBooks s) (i : Nat) (hi : i ∈ s.sheetIds)
   (ht : t.sheetIds = s.sheetIds.filter (· ≠ i)) (hn : t.track.nextId = s.track.nextId) (hc : t.ctl.state = s.ctl.state)
   (hr : t.retire.launched + 1 + s.retire.stacked + s.retire.purged + s.retire.lost =
      s.retire.launched + t.retire.stacked + t.retire.purged + t.retire.lost) : SheetBooks t := by
  rw [books_iff] at *
  have hl := nodup_filter_len h.2.1 hi
  refine ⟨?_, ?_, ?_, ?_⟩
  · have h1 := h.1
    rw [ht]
    have hb : BitVec.ofNat 32 s.sheetIds.length = BitVec.ofNat 32 (s.sheetIds.filter (· ≠ i)).length + 1 := by
      rw [← hl, BitVec.ofNat_add]; rfl
    rw [h1, hb] at hr
    generalize BitVec.ofNat 32 (s.sheetIds.filter (· ≠ i)).length = z at *
    clear hb h1
    grind
  · rw [ht]; exact h.2.1.filter _
  · rw [ht, hn]; intro j hj; exact h.2.2.1 j (List.mem_filter.1 hj).1
  · rw [ht, hc]; intro he; simp [h.2.2.2 he]

@[simp] theorem sheetIds_releaseReturn (i) (s : State) : (s.releaseReturn i).sheetIds = s.sheetIds := rfl
@[simp] theorem sheetIds_uncountLaunch (i) (s : State) : (s.uncountLaunch i).sheetIds = s.sheetIds := rfl

theorem findSheet_mem {s : State} {i x} (h : s.findSheet i = some x) : x ∈ s.track.sheets ∧ x.id = i := by
  unfold findSheet at h
  exact ⟨List.mem_of_find?_eq_some h, by have := List.find?_some h; simpa using this⟩

theorem SheetBooks.dropPick {s : State} (h : SheetBooks s) (q) : SheetBooks (s.dropPick q) := by
  simp only [State.dropPick]
  split
  · exact h
  · rename_i x hx
    have ⟨h1, h2⟩ := findSheet_mem hx
    refine freeBooks h q.track (by rw [← h2]; exact mem_sheetIds h1) ?_ ?_ ?_ ?_
    all_goals try simp
    all_goals
      generalize s.retire.launched = a
      generalize s.retire.stacked = b
      generalize s.retire.purged = c
      generalize s.retire.lost = d
      grind

theorem SheetBooks.foldl {α : Type} (f : State → α → State) (hf : ∀ s a, SheetBooks s → SheetBooks (f s a)) :
    (l : List α) → (s : State) → SheetBooks s → SheetBooks (l.foldl f s)
  | [], _, h => h
  | a :: l, s, h => SheetBooks.foldl f hf l _ (hf s a h)

theorem SheetBooks.dropPicks {s : State} (h : SheetBooks s) : SheetBooks s.dropPicks := by
  simp only [State.dropPicks]
  have := SheetBooks.foldl State.dropPick (fun s a h => h.dropPick a) s.launch.schedule s h
  (refine SheetBooks.same this ?_ ?_ ?_ ?_ ?_ ?_ ?_ <;> first | with_reducible rfl | simp)

@[simp] theorem sheetIds_reportLost (x) (s : State) : (s.reportLost x).sheetIds = s.sheetIds := sheetIds_of_track (by simp)
@[simp] theorem sheetIds_sumInto (x f) (s : State) : (s.sumIntoCaller x f).sheetIds = s.sheetIds := sheetIds_of_track (by simp)
theorem sheetIds_settleLost (x) (s : State) : (s.settleLost x).sheetIds = s.sheetIds.filter (· ≠ x.id) := by
  simp [settleLost]

theorem SheetBooks.settleLost {s : State} (h : SheetBooks s) (x : Sheet) (hx : x.id ∈ s.sheetIds) :
    SheetBooks (s.settleLost x) := by
  refine freeBooks h x.id hx (sheetIds_settleLost _ _) ?_ ?_ ?_ <;> simp [State.settleLost]
  generalize s.retire.launched = a; generalize s.retire.stacked = b; generalize s.retire.purged = c; generalize s.retire.lost = d
  grind

theorem settleLosts (l : List Sheet) (s : State) (h : SheetBooks s) (hs : s.sheetIds = l.map (·.id)) :
    SheetBooks (l.foldl State.settleLost s) ∧ (l.foldl State.settleLost s).sheetIds = [] := by
  induction l generalizing s with
  | nil => exact ⟨h, hs⟩
  | cons x l ih =>
    have hn := ((books_iff s).1 h).2.1
    refine ih (s.settleLost x) (h.settleLost x (by rw [hs]; simp)) ?_
    rw [sheetIds_settleLost, hs]
    rw [hs] at hn
    rw [List.map_cons, List.nodup_cons] at hn
    rw [List.map_cons, List.filter_cons]
    simp only [ne_eq, not_true_eq_false, decide_false, Bool.false_eq_true, if_false]
    rw [List.filter_eq_self]
    intro a ha; simp; rintro rfl; exact hn.1 ha

theorem SheetBooks.settleAllLost {s : State} (h : SheetBooks s) :
    SheetBooks s.settleAllLost ∧ s.settleAllLost.sheetIds = [] :=
  settleLosts s.track.sheets s h rfl

@[simp] theorem sheetIds_haltSections (x) (s : State) : (s.haltSections x).sheetIds = s.sheetIds := rfl
@[simp] theorem sheetIds_stopOrder (x) (s : State) : (s.stopOrder x).sheetIds = s.sheetIds := sheetIds_of_track (by simp)
@[simp] theorem sheetIds_assignResume (x) (s : State) : (s.assignResume x).sheetIds = s.sheetIds := sheetIds_of_track (by simp)
@[simp] theorem sheetIds_discardTail (x) (s : State) : (s.discardTail x).sheetIds = s.sheetIds := sheetIds_of_track (by simp)
@[simp] theorem sheetIds_clearFetch (s : State) : (s.clearFetch).sheetIds = s.sheetIds := sheetIds_of_track (by simp)
@[simp] theorem sheetIds_settleOrders (s : State) : (s.settleOrders).sheetIds = s.sheetIds := sheetIds_of_track (by simp)
@[simp] theorem sheetIds_settleCalls (s : State) : (s.settleCalls).sheetIds = s.sheetIds := sheetIds_of_track (by simp)
theorem SheetBooks.jammedEntry {s : State} (h : SheetBooks s) : SheetBooks s.jammedEntry := by
  simp only [State.jammedEntry]
  have h1 : SheetBooks ((s.stopOrder ((perSection false).set .down true)).haltSections (perSection true)) := by
    (refine SheetBooks.same h ?_ ?_ ?_ ?_ ?_ ?_ ?_ <;> first | with_reducible rfl | simp)
  have ⟨h2, h3⟩ := h1.settleAllLost
  generalize ((s.stopOrder ((perSection false).set .down true)).haltSections (perSection true)).settleAllLost = u at *
  refine SheetBooks.setState ?_ _ ?_
  · (refine SheetBooks.same h2 ?_ ?_ ?_ ?_ ?_ ?_ ?_ <;> first | with_reducible rfl | simp)
  · simp [h3]

theorem SheetBooks.endOfDrain {s : State} (h : SheetBooks s) : SheetBooks s.endOfDrain := by
  simp only [State.endOfDrain]; split
  · exact h.jammedEntry
  · exact h

@[simp] theorem sheetIds_setAttn (x) (s : State) : (s.setAttn x).sheetIds = s.sheetIds := rfl
@[simp] theorem sheetIds_setInterrupted (s : State) : (s.setInterrupted).sheetIds = s.sheetIds := rfl
@[simp] theorem sheetIds_discardRead (s : State) : (s.discardRead).sheetIds = s.sheetIds := rfl
@[simp] theorem sheetIds_recordPrimary (r) (s : State) : (s.recordPrimary r).sheetIds = s.sheetIds := rfl
theorem SheetBooks.issueWrite {s : State} (h : SheetBooks s) (w l) (f : State → State) (hf : ∀ u, SheetBooks u → SheetBooks (f u)) :
    SheetBooks (s.issueWrite w l f) := by
  unfold State.issueWrite; split
  · refine hf _ ?_; (refine SheetBooks.same h ?_ ?_ ?_ ?_ ?_ ?_ ?_ <;> first | with_reducible rfl | simp)
  · (refine SheetBooks.same h ?_ ?_ ?_ ?_ ?_ ?_ ?_ <;> first | with_reducible rfl | simp)

theorem SheetBooks.primaryJam {s : State} (h : SheetBooks s) (r) : SheetBooks (s.primaryJam r) := by
  simp only [State.primaryJam]
  refine SheetBooks.issueWrite ?_ _ _ _ (fun u hu => hu.endOfDrain)
  have h1 : SheetBooks (((((s.recordPrimary r).onCtl fun u => { u with state := .stopping, pauseRec := none }).setAttn .jam).discardRead.stopOrder (stoppedBy r.place.sections)).haltSections (stoppedBy r.place.sections)) := by
    refine h.go ?_ ?_ ?_ ?_ ?_ ?_ ?_
    all_goals first | (simp [emptyPathState]; done)
  (refine SheetBooks.same h1.dropPicks ?_ ?_ ?_ ?_ ?_ ?_ ?_ <;> first | with_reducible rfl | simp)

theorem SheetBooks.secondaryJam {s : State} (h : SheetBooks s) (r) : SheetBooks (s.secondaryJam r) := by
  simp only [State.secondaryJam]
  refine SheetBooks.jammedEntry ?_
  (refine SheetBooks.same h ?_ ?_ ?_ ?_ ?_ ?_ ?_ <;> first | with_reducible rfl | simp)

theorem SheetBooks.report {s : State} (h : SheetBooks s) (r) : SheetBooks (s.report r) := by
  simp only [State.report]; split
  all_goals first | with_reducible exact h.primaryJam _ | with_reducible exact h.secondaryJam _ | with_reducible exact h

theorem SheetBooks.pathFault {s : State} (h : SheetBooks s) (a b c d) : SheetBooks (s.pathFault a b c d) := by
  simp only [State.pathFault]
  refine SheetBooks.report ?_ _
  (refine SheetBooks.same h ?_ ?_ ?_ ?_ ?_ ?_ ?_ <;> first | with_reducible rfl | simp)

theorem SheetBooks.afterSettlement {s : State} (h : SheetBooks s) (b) : SheetBooks (s.afterSettlement b) := by
  simp only [State.afterSettlement]
  have h1 : SheetBooks (s.settleMailpieces false) := by
    (refine SheetBooks.same h ?_ ?_ ?_ ?_ ?_ ?_ ?_ <;> first | with_reducible rfl | simp)
  generalize s.settleMailpieces false = u at *
  refine SheetBooks.endOfDrain ?_
  have h2 : SheetBooks (if u.mail.purgeFull = true ∧ b = false ∧ u.ctl.state = .running then u.enterDraining else u) := by
    split
    · exact h1.enterDraining
    · exact h1
  generalize (if u.mail.purgeFull = true ∧ b = false ∧ u.ctl.state = .running then u.enterDraining else u) = v at *
  have h3 := h2.considerStandby
  generalize v.considerStandby = w at *
  split
  · rename_i hc; exact h3.enterHalted (isEmpty_sheetIds hc.2)
  · exact h3

@[simp] theorem sheetIds_reportStacked (m b) (s : State) : (s.reportStacked m b).sheetIds = s.sheetIds := rfl
@[simp] theorem sheetIds_reportPurged (m) (s : State) : (s.reportPurged m).sheetIds = s.sheetIds := sheetIds_of_track (by simp)
@[simp] theorem sheetIds_sso (x d) (s : State) : (s.settleSheetOrder x d).sheetIds = s.sheetIds := sheetIds_of_track (by simp)
theorem SheetBooks.settleSheet {s : State} (h : SheetBooks s) (x : Sheet) (d) (hx : x.id ∈ s.sheetIds) :
    SheetBooks (s.settleSheet x d) := by
  simp only [State.settleSheet]
  refine SheetBooks.afterSettlement ?_ _
  cases d
  all_goals
    refine freeBooks h x.id hx ?_ ?_ ?_ ?_
    all_goals try simp
    all_goals
      generalize s.retire.launched = a
      generalize s.retire.stacked = b
      generalize s.retire.purged = c
      generalize s.retire.lost = d
      grind

@[simp] theorem sheetIds_setSensor (c b) (s : State) : (s.setSensor c b).sheetIds = s.sheetIds := rfl

theorem SheetBooks.checkCommitted {s : State} (h : SheetBooks s) (a b c) : SheetBooks (s.checkCommitted a b c) := by
  simp only [State.checkCommitted]; repeat' split
  all_goals first | with_reducible exact h | with_reducible exact h.pathFault _ _ _ _
theorem SheetBooks.onTime {s : State} (h : SheetBooks s) (a b c d) : SheetBooks (s.onTime a b c d) := by
  simp only [State.onTime]; split
  · exact h.pathFault _ _ _ _
  · refine SheetBooks.checkCommitted ?_ _ _ _
    refine SheetBooks.same h ?_ ?_ ?_ ?_ ?_ ?_ ?_
    all_goals simp
theorem SheetBooks.matchLeading {s : State} (h : SheetBooks s) (a b) : SheetBooks (s.matchLeading a b) := by
  simp only [State.matchLeading]; repeat' split
  all_goals first | with_reducible exact h.onTime _ _ _ _ | with_reducible exact h.pathFault _ _ _ _
theorem SheetBooks.leadingEdge {s : State} (h : SheetBooks s) (c) : SheetBooks (s.leadingEdge c) := by
  have h' : SheetBooks (s.setSensor c true) := by
    (refine SheetBooks.same h ?_ ?_ ?_ ?_ ?_ ?_ ?_ <;> first | with_reducible rfl | simp)
  simp only [State.leadingEdge]; repeat' split
  all_goals first | with_reducible exact h | with_reducible exact h' | with_reducible exact h'.matchLeading _ _
theorem SheetBooks.afterOccupancy {s : State} (h : SheetBooks s) (k c x o l) (hx : x.id ∈ s.sheetIds) :
    SheetBooks (s.afterOccupancy k c x o l) := by
  simp only [State.afterOccupancy]
  split
  · split
    · exact h
    · (refine SheetBooks.same h ?_ ?_ ?_ ?_ ?_ ?_ ?_ <;> first | with_reducible rfl | simp)
  · split
    · exact h.pathFault _ _ _ _
    · split
      · exact h.settleSheet _ _ hx
      · split
        · (refine SheetBooks.same h ?_ ?_ ?_ ?_ ?_ ?_ ?_ <;> first | with_reducible rfl | simp)
        · exact h
theorem occ_mem {s : State} {c x o} (h : s.occupant c = some (x, o)) : x ∈ s.track.sheets := by
  unfold occupant at h
  obtain ⟨y, hy, he⟩ := List.exists_of_findSome?_eq_some h
  simp at he; obtain ⟨a, _, rfl, _⟩ := he; exact hy
theorem SheetBooks.matchTrailing {s : State} (h : SheetBooks s) (a b) : SheetBooks (s.matchTrailing a b) := by
  simp only [State.matchTrailing]; split
  · split
    · exact h.pathFault _ _ _ _
    · rename_i ho _
      refine SheetBooks.afterOccupancy ?_ _ _ _ _ _ ?_
      · refine SheetBooks.same h ?_ ?_ ?_ ?_ ?_ ?_ ?_
        all_goals simp
      · simp; exact mem_sheetIds (occ_mem ho)
  · exact h
theorem SheetBooks.trailingEdge {s : State} (h : SheetBooks s) (c) : SheetBooks (s.trailingEdge c) := by
  have h' : SheetBooks (s.setSensor c false) := by
    (refine SheetBooks.same h ?_ ?_ ?_ ?_ ?_ ?_ ?_ <;> first | with_reducible rfl | simp)
  simp only [State.trailingEdge]; repeat' split
  all_goals first | with_reducible exact h | with_reducible exact h' | with_reducible exact h'.matchTrailing _ _
@[simp] theorem sheetIds_advance (s : State) : (s.advancePitch).sheetIds = s.sheetIds := rfl
theorem SheetBooks.takeCompare {s : State} (h : SheetBooks s) (a b) : SheetBooks (s.takeCompare a b) := by
  have h' : SheetBooks s.advancePitch := by
    (refine SheetBooks.same h ?_ ?_ ?_ ?_ ?_ ?_ ?_ <;> first | with_reducible rfl | simp)
  simp only [State.takeCompare]; split
  · exact h'.launchDecision
  · (refine SheetBooks.same h ?_ ?_ ?_ ?_ ?_ ?_ ?_ <;> first | with_reducible rfl | simp)
  · repeat' split
    all_goals first | with_reducible exact h | with_reducible exact h.pathFault _ _ _ _
  · repeat' split
    all_goals first | with_reducible exact h | with_reducible exact h.pathFault _ _ _ _
theorem SheetBooks.withdraw {s : State} (h : SheetBooks s) (a) : SheetBooks (s.withdrawOwner a) := by
  (refine SheetBooks.same h ?_ ?_ ?_ ?_ ?_ ?_ ?_ <;> first | with_reducible rfl | simp)
theorem SheetBooks.takeReached {s : State} (h : SheetBooks s) (a) : SheetBooks (s.takeReached a) := by
  simp only [State.takeReached]; repeat' split
  all_goals first | with_reducible exact h | with_reducible exact (h.withdraw _).takeCompare _ _
theorem SheetBooks.takeAtOnce {s : State} (h : SheetBooks s) (n) : SheetBooks (s.takeAtOnce n) := by
  induction n generalizing s with
  | zero => exact h
  | succ n ih =>
    simp only [State.takeAtOnce]; repeat' split
    all_goals first | with_reducible exact h | with_reducible exact ih ((h.withdraw _).takeCompare _ _)
theorem SheetBooks.reportStalls {s : State} (h : SheetBooks s) (n) : SheetBooks (s.reportStalls n) :=
  SheetBooks.foldl _ (fun _ _ h => h.report _) _ _ h
theorem SheetBooks.enterAtSpeed {s : State} (h : SheetBooks s) : SheetBooks (s.enterAtSpeed) := by
  simp only [State.enterAtSpeed]; refine SheetBooks.launchDecision ?_
  refine SheetBooks.same h ?_ ?_ ?_ ?_ ?_ (sheetIds_of_track ?_) ?_ <;> simp
@[simp] theorem sheetIds_takeSample (b) (s : State) : (s.takeSample b).sheetIds = s.sheetIds := rfl
@[simp] theorem sheetIds_judge (b) (s : State) : (s.judgeDeviation b).sheetIds = s.sheetIds := sheetIds_of_track (by simp)
@[simp] theorem sheetIds_enterStopped (s : State) : (s.enterStopped).sheetIds = s.sheetIds := sheetIds_of_sheets (by simp)
@[simp] theorem sheetIds_enterRunOut (s : State) : (s.enterRunOut).sheetIds = s.sheetIds := sheetIds_of_sheets (by simp)
theorem SheetBooks.sampleRunUp {s : State} (h : SheetBooks s) (b) : SheetBooks (s.sampleRunUp b) := by
  simp only [State.sampleRunUp]
  split <;> split
  · refine SheetBooks.enterAtSpeed ?_; (refine SheetBooks.same h ?_ ?_ ?_ ?_ ?_ ?_ ?_ <;> first | with_reducible rfl | simp)
  · (refine SheetBooks.same h ?_ ?_ ?_ ?_ ?_ ?_ ?_ <;> first | with_reducible rfl | simp)
  · refine SheetBooks.enterAtSpeed ?_; (refine SheetBooks.same h ?_ ?_ ?_ ?_ ?_ ?_ ?_ <;> first | with_reducible rfl | simp)
  · (refine SheetBooks.same h ?_ ?_ ?_ ?_ ?_ ?_ ?_ <;> first | with_reducible rfl | simp)
theorem SheetBooks.sample {s : State} (h : SheetBooks s) : SheetBooks s.sample := by
  simp only [State.sample]; split
  · exact h.sampleRunUp _
  · simp only [State.sampleAtSpeed]; refine SheetBooks.reportStalls ?_ _; (refine SheetBooks.same h ?_ ?_ ?_ ?_ ?_ ?_ ?_ <;> first | with_reducible rfl | simp)
  · simp only [State.sampleRunOut]; split <;> (refine SheetBooks.same h ?_ ?_ ?_ ?_ ?_ ?_ ?_ <;> first | with_reducible rfl | simp)
  · exact h
theorem SheetBooks.runUpExpiry {s : State} (h : SheetBooks s) : SheetBooks s.runUpExpiry := by
  simp only [State.runUpExpiry]; split
  · refine SheetBooks.report ?_ _; (refine SheetBooks.same h ?_ ?_ ?_ ?_ ?_ ?_ ?_ <;> first | with_reducible rfl | simp)
  · exact h
@[simp] theorem sheetIds_retireAll (s : State) : (s.retireAll).sheetIds = s.sheetIds := sheetIds_of_track (by simp)
theorem SheetBooks.settleBooks {s : State} (h : SheetBooks s) : SheetBooks s.settleBooks := by
  refine SheetBooks.same h ?_ ?_ ?_ ?_ ?_ (sheetIds_of_track ?_) ?_ <;> simp
theorem SheetBooks.takeFront {s t : State} (h : SheetBooks s) (ht : s.takeFront = some t) : SheetBooks t := by
  simp only [State.takeFront] at ht
  have h' : SheetBooks s.askWake := by
    refine SheetBooks.same h ?_ ?_ ?_ ?_ ?_ (sheetIds_of_track ?_) ?_ <;> simp
  repeat' split at ht
  all_goals simp at ht
  · subst ht; (refine SheetBooks.same h' ?_ ?_ ?_ ?_ ?_ ?_ ?_ <;> first | with_reducible rfl | simp)
  · subst ht; exact h'.handleFront _
theorem SheetBooks.frontLoop {s : State} (h : SheetBooks s) (n) : SheetBooks (s.frontLoop n) := by
  induction n generalizing s with
  | zero => exact h
  | succ n ih =>
    simp only [State.frontLoop]; split
    · exact h
    · rename_i u hu; exact ih ((h.takeFront hu).settleBooks)
theorem SheetBooks.finish {s : State} (h : SheetBooks s) : SheetBooks s.finish := by
  simp only [State.finish]
  have := ((h.takeAtOnce Config.trackRecords).settleBooks.frontLoop (((s.takeAtOnce Config.trackRecords).settleBooks).frontFuel)).evaluateWake
  refine SheetBooks.same this ?_ ?_ ?_ ?_ ?_ (sheetIds_of_track ?_) ?_ <;> simp
theorem SheetBooks.issueStopRecord {s : State} (h : SheetBooks s) (l) : SheetBooks (s.issueStopRecord l) := by
  refine SheetBooks.same h ?_ ?_ ?_ ?_ ?_ (sheetIds_of_track ?_) ?_ <;> simp
theorem SheetBooks.runSteps {s : State} (h : SheetBooks s) (l) : SheetBooks (runSteps l s) := by
  cases l <;> simp only [State.runSteps]
  · exact h
  · refine SheetBooks.same h ?_ ?_ ?_ ?_ ?_ (sheetIds_of_track ?_) ?_ <;> simp
  · refine SheetBooks.same h ?_ ?_ ?_ ?_ ?_ (sheetIds_of_track ?_) ?_ <;> simp
  · exact h.endOfDrain
  · exact h.issueStopRecord _
  · exact h
theorem SheetBooks.completeWrite {s : State} (h : SheetBooks s) : SheetBooks (s.completeWrite) := by
  simp only [State.completeWrite]; split
  · simp only [State.admitHeld]; repeat' split
    · refine SheetBooks.runSteps ?_ _
      refine SheetBooks.same h ?_ ?_ ?_ ?_ ?_ (sheetIds_of_track ?_) ?_ <;> simp [State.announceWrite] <;> split <;> simp
    · refine SheetBooks.same h ?_ ?_ ?_ ?_ ?_ (sheetIds_of_track ?_) ?_ <;> simp
    · refine SheetBooks.same h ?_ ?_ ?_ ?_ ?_ (sheetIds_of_track ?_) ?_ <;> simp
  · refine SheetBooks.same h ?_ ?_ ?_ ?_ ?_ (sheetIds_of_track ?_) ?_ <;> simp
  · exact h

end Sys2Proof.Machine.State
end

