-- ==== Sys2Proof/Tests/Slice0.lean ====
section
/-! SUPPORT. The model's own tests: the well-formedness smoke, one-step tests on small states (the worked examples of the
spec where one step shows them), and for each statement with hypotheses a state and operands that meet them. -/

namespace Sys2Proof.Tests

set_option Elab.async false

open Sys2Proof.Machine

/-! ## Small states -/

/-- Whether an outcome is a next state for which p holds. -/
def nextHas (o : Host.Outcome State Fault Refusal) (p : State → Bool) : Bool :=
  match o with
  | .next t => p t
  | .fault _ | .refused _ => false

/-- The configuration of the examples of spec/02 section 2.8 and spec/12 section 12.1, with the minimum gap as operand. -/
def configWords (gap : Word) : List Word :=
  [4800, 16, 0xAAAA5555, 0]
    ++ [3, 4100, 3000, 8000] ++ [0, 0, 0, 0] ++ [0, 0, 0, 0] ++ [0, 0, 0, 0] ++ [1, 4100, 10000, 8000]
    ++ [3000, 9000, 6500, 14000, 5650, 5000, 1000, 1000, 1000, 1000, 1000]
    ++ [150, 250, 150, 250, 150, 250, 200, gap, 0]
    ++ [1, 100, 0, 0, 0, 0, 0, 0] ++ [50, 20, 10000, 400, 5000, 10, 5, 1]

def cfg : Installed := ⟨configBlockOf (configWords 400), (configBlockOf (configWords 400)).quantities⟩

def inState (c : ControllerState) (s : State) : State := { s with ctl := { s.ctl with state := c } }

/-- READY with the configuration installed, AREA and window length as in spec/10 section 10.9. -/
def ready : State :=
  { State.reset with
    config := some cfg
    ctl := { State.reset.ctl with state := .ready, area := 0x00100000 }
    mem := { State.reset.mem with windowLength := 262144 } }

/-- RUNNING AT-SPEED at pitch 0 with B(0) = 100,000 (spec/12 section 12.1). -/
def running : State :=
  { ready with
    ctl := { ready.ctl with state := .running }
    transport := { ready.transport with
      state := .atSpeed, run := perSection true, count := ⟨100000, 500, 700⟩
      ref := ⟨90000, 500, 700⟩, samplePeriod := some 20 }
    clock := { ready.clock with running := true, boundary := 100000 }
    track := { ready.track with tracking := perSection true } }

/-- A mailpiece of three sheets with a bin. -/
def piece : Mailpiece :=
  { id := 0, number := 77, sheetCount := 3, binMask := ⟨true, false, false, false⟩, markBase := 1000
    markMask := 0xFFFFFFFF, openRef := 0, bin := some .b1, taken := 1, launched := 1, committed := 0
    stacked := 0, purged := 0, lost := 0, closed := false, interrupted := false, reason := none
    state := .filling }

/-- Words of a LOOP SHEET of tray 1 with side 2 present and both sides ready. -/
def loopSheet : OrderWords :=
  { link := 0x00100400, kind := 2, ready := 3, w4 := 1, w5 := 2, w6 := 5, w7 := 1, w8 := 6, w9 := 0 }

def entry (id : Nat) (k : Kind) (w : OrderWords) (st : EntryState) : Entry :=
  { id := id, addr := 0x00100300, kind := k, chain := .main, caller := none, words := w, state := st
    draft := none, notAllowed := false, summary := ⟨0, 0, 0, false⟩, callStatus := .notEntered
    dropped := false }

/-- A sheet in the path, due at c. -/
def sheetDueAt (c : Checkpoint) (expected : Pos) : Sheet :=
  { id := 0, order := 1, mp := 0, tray := .t1, mode := .direct, side2 := none, pass2 := false, index := 0
    mergePitch := 5, finalPitch := 5, last := none, next := some c
    due := some ⟨expected, expected - 150, expected + 250⟩, occ := [], dest := none, committed := false
    purge := none, transfer := .none, side2Check := .notDue, mark := .empty, state := .inPath }

/-- RUNNING with one launched sheet in the path, due at c. -/
def tracked (c : Checkpoint) (expected : Pos) : State :=
  { running with
    track := { running.track with
      sheets := [sheetDueAt c expected], nextId := 1
      queues := (perCheckpoint []).set c [0] }
    mail := { running.mail with table := [piece], nextId := 1, bins := ⟨⟨0, 3⟩, ⟨0, 0⟩, ⟨0, 0⟩, ⟨0, 0⟩⟩ }
    fetch := { running.fetch with
      window := [{ entry 0 .mpOpen loopSheet .passed with draft := none }, entry 1 .sheet loopSheet .launched]
      nextId := 2 }
    retire := { running.retire with launched := 1 } }

/-- The same with the sheet occupying c since position `lead`. -/
def occupying (c : Checkpoint) (lead : Pos) : State :=
  let s := tracked c 0
  { s with
    transport := { s.transport with sensors := s.transport.sensors.set c true }
    track := { s.track with
      queues := perCheckpoint []
      sheets := [{ sheetDueAt c 0 with next := none, due := none, last := some c, occ := [⟨c, lead, lead + 8200⟩] }] } }

/-- RUNNING with a LOOP candidate of the current mailpiece. -/
def withCandidate : State :=
  { running with
    mail := { running.mail with table := [piece], nextId := 1, bins := ⟨⟨0, 3⟩, ⟨0, 0⟩, ⟨0, 0⟩, ⟨0, 0⟩⟩ }
    fetch := { running.fetch with
      window := [entry 0 .mpOpen loopSheet .passed, entry 1 .sheet loopSheet .fetched], nextId := 2 }
    launch := { running.launch with candidate := some 1 } }

def readOf (p : Purpose) : Option BusAccess := some ⟨.read ⟨p, [0x00100000]⟩, false⟩
def writeOf (tag : WriteTag) : Write := ⟨5, 0x00100010, 1, tag⟩

/-- A state with a read in progress. -/
def reading (p : Purpose) (s : State) : State := { s with mem := { s.mem with bus := readOf p } }

/-- A state whose Order Fetch Unit waits for a read of this kind at this position. -/
def fetching (k : FetchRead) (p : FetchPos) (s : State) : State :=
  reading (.fetch k) { s with fetch := { s.fetch with read := some ⟨k, false⟩, pos := p } }

/-- A state with the event of a compare still to be taken. -/
def reached (owner : CompareOwner) (x : Section) (pos : Pos) (s : State) : State :=
  { s with
    transport := { s.transport with
      compares := [⟨owner, x, pos, some s.transport.count, false⟩] } }

/-! ## Well-formedness -/

theorem test_wellFormed_unknown_code_0 : (Instr.unknownCommand 0).wellFormed = true := by decide
theorem test_wellFormed_unknown_code_8 : (Instr.unknownCommand 8).wellFormed = true := by decide
theorem test_illFormed_unknown_code_2 : (Instr.unknownCommand 2).wellFormed = false := by decide
theorem test_illFormed_command_faults : exec (.unknownCommand 2) ready = .fault .codeNamesACommand := by rfl
theorem test_no_word_spells_a_command : decodeTableWord 32 1 = none ∧ ready.withFetchWord 32 1 = ready := ⟨rfl, rfl⟩

/-! ## The configuration of the examples -/

theorem test_pitch_quantities : cfg.qty = ⟨38150, 8, -250, 5⟩ := by decide +kernel
theorem test_configuration_valid : cfg.block.validate = none ∧ cfg.loopUsable = true := by decide +kernel
theorem test_gap_600_fails_pitch_fit : (configBlockOf (configWords 600)).validate = some .pitchFit := by
  decide +kernel

/-! ## One step of each command -/

theorem test_resetLine : nextHas (exec (.resetLine ((perCheckpoint false).set .reg true) (perTray true)) running)
    (fun t => t.statWord0 == 0 && t.transport.sensors.get .reg && t.launch.trays.get .t5
      && t.transport.count == perSection 0) = true := by decide +kernel
theorem test_encoderStep_wraps : nextHas
    (exec (.encoderStep .up) { running with transport := { running.transport with count := ⟨16777215, 0, 0⟩ } })
    (fun t => t.transport.count == ⟨0, 0, 0⟩) = true := by decide +kernel
theorem test_encoderStep_reaches : nextHas
    (exec (.encoderStep .up)
      { running with transport := { running.transport with compares := [⟨.boundary, .up, 100001, none, false⟩] } })
    (fun t => t.transport.compares == [⟨.boundary, .up, 100001, some ⟨100001, 500, 700⟩, false⟩]) = true := by
  decide +kernel
theorem test_leadingEdge_on_time : nextHas (exec (.leadingEdge (.fd .t1)) (tracked (.fd .t1) 100084))
    (fun t => t.ctl.state == .running && t.track.queues.get .mrg == [0]
      && t.track.sheets.map (·.due) == [some ⟨108000, 107850, 108250⟩]) = true := by decide +kernel
theorem test_leadingEdge_early : nextHas (exec (.leadingEdge (.fd .t1)) (tracked (.fd .t1) 100151))
    (fun t => t.ctl.state == .jammed && t.jam.primary.map (·.cause) == some .early) = true := by decide +kernel
theorem test_trailingEdge_length : nextHas (exec (.trailingEdge .reg) (occupying .reg (100000 - 4116)))
    (fun t => t.track.sheets.map (fun x => (x.occ, x.purge)) == [([], none)]) = true := by decide +kernel
theorem test_trailingEdge_multifeed : nextHas (exec (.trailingEdge .reg) (occupying .reg (100000 - 4696)))
    (fun t => t.track.sheets.map (·.purge) == [some .multifeed]
      && t.mail.table.map (·.state) == [.purging]) = true := by decide +kernel
theorem test_sample_enters_at_speed : nextHas
    (exec .sample
      { ready with
        transport := { ready.transport with
          state := .runUp, run := perSection true, allInBand := 2, runUpTimer := some 10
          count := ⟨3584, 9800, 10100⟩, ref := ⟨16770400, 0, 0⟩ } })
    (fun t => t.transport.state == .atSpeed && t.clock.boundary == 3584 && t.transport.runUpTimer == none) = true := by
  decide +kernel
theorem test_sample_stalls : nextHas
    (exec .sample
      { running with
        transport := { running.transport with
          below := ⟨1, 0, 0⟩, count := ⟨3000, 10000, 10000⟩, ref := perSection 0 } })
    (fun t => t.jam.primary.map (·.cause) == some .stall && t.attnHas .speed && t.attnHas .jam) = true := by
  decide +kernel
theorem test_runupTimeout : nextHas
    (exec .runupTimeout
      { ready with
        ctl := { ready.ctl with state := .running }
        transport := { ready.transport with state := .runUp, run := perSection true, runUpTimer := some 10 } })
    (fun t => t.transport.state == .runOut && t.jam.primary.map (·.cause) == some .runupTimeout) = true := by
  decide +kernel
/-- The second decision of spec/12 section 12.1: merge pitch 6, pick at 117,800. -/
theorem test_pitchBoundary_launches : nextHas
    (exec .pitchBoundary (reached .boundary .up 104800
      { withCandidate with
        transport := { withCandidate.transport with count := ⟨104800, 0, 0⟩ }
        clock := { withCandidate.clock with ring := [⟨9, 13⟩], lastFinal := some 13 } }))
    (fun t => t.clock.pitch == 1 && t.clock.boundary == 104800 && t.clock.lastFinal == some 14
      && t.launch.schedule == [⟨0, .t1, 117800⟩] && t.clock.ring == [⟨9, 13⟩, ⟨0, 14⟩]) = true := by
  decide +kernel
theorem test_pitchBoundary_starved : nextHas (exec .pitchBoundary (reached .boundary .up 104800 running))
    (fun t => t.ctl.lastSkip == some .starved && t.retire.skipped == 1) = true := by decide +kernel
def pickDue : State :=
  let s := tracked (.fd .t1) 0
  reached (.pick 0) .up 100000
    { s with
      track := { s.track with
        queues := perCheckpoint []
        sheets := [{ sheetDueAt (.fd .t1) 0 with next := none, due := none, state := .pickPending }] }
      launch := { s.launch with schedule := [⟨0, .t1, 100000⟩] } }
theorem test_pick : nextHas (exec .pick pickDue)
    (fun t => t.out == [.pickPulse .t1] && t.launch.schedule == []
      && t.track.sheets.map (·.due) == [some ⟨103000, 102850, 103250⟩]) = true := by decide +kernel
theorem test_lateDeadline : nextHas
    (exec (.lateDeadline .fus) (reached (.late 0) .up 100000 (tracked .fus 99750)))
    (fun t => t.jam.primary.map (fun p => (p.cause, p.place)) == some (.late, .checkpoint .fus)) = true := by
  decide +kernel
theorem test_stuckDeadline : nextHas
    (exec (.stuckDeadline .reg) (reached (.stuck 0 .reg) .up 100000 (occupying .reg 91800)))
    (fun t => t.jam.primary.map (·.cause) == some .stuck && t.ctl.state == .jammed) = true := by decide +kernel
def awaitingAnswer : State :=
  let s := tracked .fus 100500
  { s with track := { s.track with
      fifo := [⟨0, true⟩], sheets := [{ sheetDueAt .fus 100500 with transfer := .outstanding }] } }
theorem test_transferDone : nextHas (exec .transferDone awaitingAnswer)
    (fun t => t.track.fifo == [] && t.track.sheets.map (·.transfer) == [.done]) = true := by decide +kernel
theorem test_transferFault : nextHas (exec .transferFault awaitingAnswer)
    (fun t => t.track.sheets.map (fun x => (x.transfer, x.purge)) == [(.faulted, some .transferFault)]) = true := by
  decide +kernel
theorem test_markValue : nextHas (exec (.markValue 1005) (occupying .mrk 600))
    (fun t => t.track.sheets.map (·.mark) == [.value 1005]) = true := by decide +kernel
theorem test_markNoRead_unoccupied : nextHas (exec .markNoRead running) (fun t => t == running) = true := by
  decide +kernel
theorem test_unloadEvent : nextHas (exec (.unloadEvent (.stk .b1)) (tracked .fus 100500))
    (fun t => t.mail.bins.get .b1 == ⟨0, 3⟩) = true := by decide +kernel
theorem test_refillEvent : nextHas
    (exec (.refillEvent .t2) { ready with launch := { ready.launch with trays := perTray true } })
    (fun t => t.launch.trays == ⟨true, false, true, true, true⟩) = true := by decide +kernel
theorem test_trayEmptyInput : nextHas (exec (.trayEmptyInput .t2) ready)
    (fun t => t.launch.trays == ⟨false, true, false, false, false⟩) = true := by decide +kernel
/-- A SHEET with no mailpiece is refused at the front, retires at once, and its link is followed. -/
theorem test_orderFetchComplete : nextHas
    (exec (.orderFetchComplete loopSheet) (fetching .order (.next 0x00100340) running))
    (fun t => t.fetch.pos == .next 0x00100400 && t.fetch.window == []
      && t.mem.queue.head? == some ⟨5, 0x00100348, 0x2305, .plain⟩) = true := by decide +kernel
theorem test_tailReread : nextHas
    (exec (.tailReread 0x00100400) (fetching .tail (.chainEnd (.block 0x00100300)) running))
    (fun t => t.fetch.pos == .next 0x00100400) = true := by decide +kernel
theorem test_chainFaultReread : nextHas
    (exec (.chainFaultReread 0x00100401) (fetching .faultSource (.chainFault (.link 0x00100300)) running))
    (fun t => t.fetch.pos == .chainFault (.link 0x00100300) && t.attnHas .chainFault) = true := by decide +kernel
def inSequence : State :=
  { running with fetch := { running.fetch with stack := [⟨0x00100500, 1⟩], outer := some 1 } }
theorem test_returnLinkRead : nextHas
    (exec (.returnLinkRead 0x00100300) (fetching .returnLink (.returning 0x00100500) inSequence))
    (fun t => t.fetch.pos == .continuing 0x00100300 1 && t.fetch.stack == []) = true := by decide +kernel
theorem test_continuationRead : nextHas
    (exec (.continuationRead 0) (fetching .continuation (.continuing 0x00100300 1) running))
    (fun t => t.fetch.pos == .chainEnd (.block 0x00100300)) = true := by decide +kernel
def candidateReading : State :=
  reading .candidateReady { withCandidate with launch := { withCandidate.launch with candRead := some 1 } }
theorem test_candidateReadyWordRead : nextHas (exec (.candidateReadyWordRead 1) candidateReading)
    (fun t => t.fetch.window.map (·.words.ready) == [3, 1] && t.launch.candRead == none) = true := by
  decide +kernel
def invReading : State :=
  let s := tracked .rtn 900
  reading (.invReady 0)
    { s with track := { s.track with sheets := [{ sheetDueAt .rtn 900 with side2Check := .pending }] } }
theorem test_invReadyWordRead : nextHas (exec (.invReadyWordRead 2) invReading)
    (fun t => t.track.sheets.map (·.side2Check) == [.ready]) = true := by decide +kernel
def commandIn (code : Word) (p : CommandPhase) (s : State) : State :=
  { s with ctl := { s.ctl with cmd := some ⟨code, p⟩ } }
theorem test_windowLengthRead : nextHas
    (exec (.windowLengthRead 262144) (reading .windowLength (commandIn 1 .loadLength ready)))
    (fun t => t.mem.windowLength == 262144
      && t.mem.bus == some ⟨.read ⟨.configAddress, [0x00100004]⟩, false⟩) = true := by decide +kernel
theorem test_configAddressRead_window : nextHas
    (exec (.configAddressRead 0x00100280) (reading .configAddress (commandIn 1 .loadAddress ready)))
    (fun t => t.ctl.cmd == some ⟨1, .loadBlock 0x00100280 []⟩) = true := by decide +kernel
theorem test_configAddressRead_refused : nextHas
    (exec (.configAddressRead 0x00100240) (reading .configAddress (commandIn 1 .loadAddress ready)))
    (fun t => t.ctl.lastOutcome == some .config && t.ctl.validation == some .window) = true := by decide +kernel
/-- Event 4 of spec/10 section 10.9. -/
theorem test_configBlockRead_pitchFit : nextHas
    (exec (.configBlockRead 1) (reading .configBlock
      (commandIn 1 (.loadBlock 0x00100300 ((configWords 600).take 59)) (inState .unconfigured ready))))
    (fun t => t.ctl.validation == some .pitchFit && t.ctl.state == .unconfigured
      && t.attnWord == 0x200) = true := by decide +kernel
/-- Event 8 of spec/10 section 10.9. -/
theorem test_configBlockRead_installed : nextHas
    (exec (.configBlockRead 1) (reading .configBlock
      (commandIn 1 (.loadBlock 0x00100300 ((configWords 400).take 59))
        { State.reset with ctl := { State.reset.ctl with area := 0x00100000 } })))
    (fun t => t.ctl.state == .ready && t.config == some cfg && t.statWord0 == 0x00001101) = true := by
  decide +kernel
theorem test_mainHeadRead : nextHas
    (exec (.mainHeadRead 0x00100300) (reading .mainHead (commandIn 2 .runHead running)))
    (fun t => t.fetch.pos == .next 0x00100300 && t.ctl.lastOutcome == some .accepted) = true := by decide +kernel
theorem test_recoveryHeadRead : nextHas
    (exec (.recoveryHeadRead 0)
      (reading .recoveryHead (commandIn 5 .recoverHead { running with fetch := { running.fetch with chain := .recovery } })))
    (fun t => t.fetch.chain == .main && t.fetch.pos == .chainEnd .controlWord2) = true := by decide +kernel
def writing (tag : WriteTag) : State :=
  { running with
    mem := { running.mem with queue := [writeOf tag], bus := some ⟨.write (writeOf tag), false⟩ } }
theorem test_writeComplete : nextHas (exec .writeComplete (writing .retiredCount))
    (fun t => t.out == [.memoryWrite 0x00100010 1] && t.mem.queue == [] && t.attnHas .retired) = true := by
  decide +kernel
theorem test_areaWrite : nextHas (exec (.areaWrite 0x00200007) ready) (fun t => t.areaRead == 0x00200004) = true := by
  decide +kernel
theorem test_areaWrite_running : nextHas (exec (.areaWrite 0x00200007) running)
    (fun t => t.areaRead == 0x00100000) = true := by decide +kernel
theorem test_loadConfig : nextHas (exec .loadConfig ready)
    (fun t => t.cmdRead == 1 && t.mem.bus == some ⟨.read ⟨.windowLength, [0x00100000]⟩, false⟩) = true := by
  decide +kernel
theorem test_loadConfig_refused : nextHas (exec .loadConfig running)
    (fun t => t.ctl.lastOutcome == some .refusedState && !t.commandBusy) = true := by decide +kernel
theorem test_run : nextHas (exec .run ready)
    (fun t => t.ctl.state == .running && t.transport.state == .runUp && t.cmdRead == 2) = true := by decide +kernel
theorem test_run_path_not_clear : nextHas
    (exec .run { ready with transport := { ready.transport with sensors := (perCheckpoint false).set .prg true } })
    (fun t => t.ctl.lastOutcome == some .pathNotClear && t.ctl.state == .ready) = true := by decide +kernel
theorem test_halt_draining : nextHas (exec .halt (tracked .fus 100500)) (fun t => t.ctl.state == .draining) = true := by
  decide +kernel
theorem test_halt_halted : nextHas (exec .halt running)
    (fun t => t.ctl.state == .halted && t.attnHas .halted && t.transport.state == .runOut) = true := by
  decide +kernel
def halted (pending : Bool) : State :=
  { ready with
    ctl := { ready.ctl with state := .halted }
    jam := { ready.jam with recoveryPending := pending, mainResume := 0x00100300 } }
theorem test_resume : nextHas (exec .resume (halted true))
    (fun t => t.ctl.state == .running && t.fetch.pos == .next 0x00100300 && !t.jam.recoveryPending) = true := by
  decide +kernel
theorem test_recover : nextHas (exec .recover (halted true))
    (fun t => t.cmdRead == 5 && t.fetch.chain == .recovery) = true := by decide +kernel
theorem test_recover_refused : nextHas (exec .recover (halted false))
    (fun t => t.ctl.lastOutcome == some .refusedState) = true := by decide +kernel
theorem test_extend : nextHas
    (exec .extend { running with fetch := { running.fetch with pos := .chainEnd (.block 0x00100300) } })
    (fun t => t.ctl.lastOutcome == some .accepted
      && t.mem.bus == some ⟨.read ⟨.fetch .tail, [0x00100300]⟩, false⟩) = true := by decide +kernel
def jammedDone : State :=
  { halted false with
    ctl := { ready.ctl with state := .jammed }
    jam := { (halted false).jam with recordIssued := true } }
theorem test_pathReset : nextHas (exec .pathReset jammedDone)
    (fun t => t.ctl.state == .halted && t.jam.recoveryPending && t.attnHas .halted) = true := by decide +kernel
theorem test_unknownCommand : nextHas (exec (.unknownCommand 0) ready)
    (fun t => t.ctl.lastCommand == some 0 && t.ctl.lastOutcome == some .refusedState) = true := by decide +kernel
/-- Event 7 of spec/10 section 10.9. -/
theorem test_overrun : nextHas (exec (.overrun 2) (commandIn 1 .loadLength ready))
    (fun t => t.ctl.lastCommand == some 2 && t.ctl.lastOutcome == some .overrun && t.cmdRead == 1) = true := by
  decide +kernel
theorem test_attnRead : nextHas (exec .attnRead { ready with ctl := { ready.ctl with attn := 0x201 } })
    (fun t => t.out == [.attnValue 0x201] && t.attnWord == 0) = true := by decide +kernel
theorem test_amaskWrite : nextHas (exec (.amaskWrite 0xFFFFFFFF) { ready with ctl := { ready.ctl with attn := 2 } })
    (fun t => t.amaskRead == 0x7FF && t.attentionLine) = true := by decide +kernel
theorem test_ignoredRegisterWrite : nextHas (exec (.ignoredRegisterWrite .stat0 5) ready) (fun t => t == ready) = true := by
  decide +kernel

/-! ## Worked rows of the spec -/

/-- The three arrivals of spec/06 section 6.11 and both ends of the window. -/
theorem test_classify :
    let d : Due := ⟨6784, 6634, 7034⟩
    [State.classify d 6700 250, State.classify d 16777100 250, State.classify d 6634 250,
      State.classify d 7034 250, State.classify d 7035 250]
      = [.onTime, .early, .onTime, .onTime, .late] := by decide +kernel
/-- The four rows of the table of R116. -/
theorem test_masked_compare :
    let m (base mask : Word) : Mailpiece := { piece with markBase := base, markMask := mask }
    let x (i : Nat) : Sheet := { sheetDueAt .mrk 0 with index := i }
    [State.markMatches (m 4294967295 0x00FFFFFF) (x 0) 0x7FFFFFFF,
      State.markMatches (m 4294967295 0x00FFFFFF) (x 2) 0x7F000001,
      State.markMatches (m 4294967295 0x00FFFFFF) (x 2) 0x7F000002,
      State.markMatches (m 1000 0xFFFFFFFF) (x 5) 1005] = [true, true, false, true] := by decide +kernel

/-! ## States and operands that meet the hypotheses of each statement, clause by clause

The clauses stand in the order of the statement. ResetLineResetsEveryBlock and EncoderStepCounts have no hypotheses and need
none. -/

theorem reset_allClear (s : State) (h : s.transport.sensors = perCheckpoint false) : s.allClear := by
  intro c
  rw [h]
  cases c with
  | fd t => cases t <;> rfl
  | stk b => cases b <;> rfl
  | _ => rfl

def blocked : State :=
  { ready with transport := { ready.transport with sensors := (perCheckpoint false).set .prg true } }
theorem blocked_not_allClear (s : State) (h : s.transport.sensors = (perCheckpoint false).set .prg true) :
    ¬s.allClear := fun hc => by
  have := hc .prg
  rw [h] at this
  exact absurd this (by decide)

def full (s : State) : State := { s with mail := { s.mail with purgeFull := true } }

theorem test_witness_StepTakesFrontCommand :
    { ready with pending := [Instr.sample] }.pending = Instr.sample :: [] ∧ ready.pending = [] := ⟨rfl, rfl⟩
theorem test_witness_AdmittedCommandsComplete :
    (Instr.unknownCommand 0).wellFormed = true ∧ (Instr.unknownCommand 8).wellFormed = true
      ∧ (Instr.unknownCommand 1).wellFormed = false ∧ (Instr.unknownCommand 7).wellFormed = false := by decide
theorem test_witness_RegistersAfterReset :
    let s : State := { ready with ctl := { ready.ctl with attn := 1 } }
    (∃ t, exec .run s = .next t) ∧ (∀ c y, Instr.run ≠ .resetLine c y) ∧ (∀ v, Instr.run ≠ .areaWrite v)
      ∧ (∀ v, Instr.run ≠ .amaskWrite v) ∧ Instr.run ≠ .attnRead ∧ s.attnHas .retired = true :=
  ⟨⟨_, rfl⟩, by simp, by simp, by simp, by simp, by decide⟩
theorem test_witness_AreaHoldsAWordAddress :
    ready.ctl.state = .ready ∧ (halted false).ctl.state = .halted ∧ State.reset.ctl.state = .unconfigured
      ∧ ¬(running.ctl.state = .unconfigured ∨ running.ctl.state = .ready ∨ running.ctl.state = .halted)
      ∧ 4 < 5 := by decide
theorem test_witness_AttentionRegisters :
    (11 : Nat) ≤ 11 ∧ ready.ctl.amask.getLsbD AttnFlag.speed.bit = false
      ∧ { ready with ctl := { ready.ctl with attn := 0x400, amask := 0x400 } }.attentionLine = true := by decide
theorem test_witness_AcceptanceTable :
    (ready.ctl.cmd = none ∧ running.ctl.cmd = none ∧ (halted true).ctl.cmd = none ∧ jammedDone.ctl.cmd = none
      ∧ blocked.ctl.cmd = none ∧ (full ready).ctl.cmd = none)
    ∧ (running.ctl.state = .running ∧ ready.ctl.state = .ready ∧ (halted true).ctl.state = .halted
      ∧ (halted true).mail.table = [] ∧ (halted true).fetch.window = [])
    ∧ (¬blocked.allClear ∧ ready.allClear ∧ (full ready).allClear ∧ (full ready).mail.purgeFull = true
      ∧ ready.mail.purgeFull = false)
    ∧ ((full (halted true)).mail.purgeFull = true ∧ (halted true).mail.purgeFull = false
      ∧ (halted true).jam.recoveryPending = true ∧ (halted false).jam.recoveryPending = false
      ∧ (halted true).jam.recoveryResume = 0
      ∧ { halted true with jam := { (halted true).jam with recoveryResume := 4 } }.jam.recoveryResume ≠ 0)
    ∧ (jammedDone.ctl.state = .jammed ∧ jammedDone.jam.recordIssued = true ∧ jammedDone.allClear
      ∧ ¬{ jammedDone with transport := blocked.transport }.allClear) :=
  ⟨by decide, ⟨rfl, rfl, rfl, rfl, rfl⟩,
    ⟨blocked_not_allClear _ rfl, reset_allClear _ rfl, reset_allClear _ rfl, rfl, rfl⟩,
    ⟨rfl, rfl, rfl, rfl, rfl, by decide⟩,
    ⟨rfl, rfl, reset_allClear _ rfl, blocked_not_allClear _ rfl⟩⟩
theorem test_witness_OverrunAndUnknownCommands :
    Instr.run.wellFormed = true ∧ Instr.run.cmdCode = some 2
      ∧ (commandIn 1 .loadLength ready).ctl.cmd.isSome = true ∧ ready.ctl.cmd = none
      ∧ (0 : Word).toNat = 0 ∧ 8 ≤ (8 : Word).toNat := by decide
theorem test_witness_LoadConfigReads :
    (ready.ctl.cmd = none ∧ ready.ctl.state = .ready ∧ (halted true).ctl.state = .halted
      ∧ (halted true).mail.table = [])
    ∧ ((reading .windowLength (commandIn 1 .loadLength ready)).mem.bus = readOf .windowLength
      ∧ (commandIn 1 .loadLength ready).ctl.cmd = some ⟨1, .loadLength⟩
      ∧ (commandIn 2 .runLength running).ctl.cmd = some ⟨2, .runLength⟩)
    ∧ ((reading .configAddress (commandIn 1 .loadAddress ready)).mem.bus = readOf .configAddress
      ∧ (commandIn 1 .loadAddress ready).ctl.cmd = some ⟨1, .loadAddress⟩
      ∧ recordInWindow ready.ctl.area ready.mem.windowLength 0x00100280 256 = true
      ∧ recordInWindow ready.ctl.area ready.mem.windowLength 0x00100240 256 = false) := by decide
theorem test_witness_ConfigBlockReadAndInstalled :
    (reading .configBlock ready).mem.bus = readOf .configBlock
      ∧ (commandIn 1 (.loadBlock 0x00100300 []) ready).ctl.cmd = some ⟨1, .loadBlock 0x00100300 []⟩
      ∧ ((configWords 400).take 58).length < 59 ∧ 59 ≤ ((configWords 400).take 59).length
      ∧ (configBlockOf ((configWords 600).take 59 ++ [1])).validate = some .pitchFit
      ∧ (configBlockOf ((configWords 400).take 59 ++ [1])).validate = none
      ∧ { ready with mail := { ready.mail with purgeCount := 50 } }.mail.purgeFull = false := by decide +kernel
theorem test_witness_RunAccepted :
    ready.ctl.cmd = none ∧ ready.ctl.state = .ready ∧ ready.allClear ∧ ready.mail.purgeFull = false
      ∧ ready.transport.state = .stopped
      ∧ ((halted true).ctl.state = .halted ∧ (halted true).fetch.window = [] ∧ (halted true).allClear)
      ∧ { ready with transport := { ready.transport with state := .runOut } }.transport.state = .runOut :=
  ⟨rfl, rfl, reset_allClear _ rfl, rfl, rfl, ⟨rfl, rfl, reset_allClear _ rfl⟩, rfl⟩
theorem test_witness_TransportOrders :
    let up : Transport := { ready.transport with state := .runUp, run := perSection true }
    let out : Transport := { ready.transport with state := .runOut }
    ready.transport.state = .stopped ∧ up.state = .runUp ∧ running.transport.state = .atSpeed ∧ out.state = .runOut
      ∧ (PerSection.of fun x => running.transport.run.get x && !(⟨true, true, false⟩ : PerSection Bool).get x).get .down
        = true
      ∧ ((PerSection.of fun x => running.transport.run.get x && !(perSection true).get x) = perSection false) := by
  decide
theorem test_witness_HaltAndEntryToHalted :
    (tracked .fus 0).ctl.cmd = none ∧ (tracked .fus 0).ctl.state = .running ∧ (tracked .fus 0).track.sheets ≠ []
      ∧ running.ctl.state = .running ∧ running.track.sheets = []
      ∧ (inState .standby ready).ctl.state = .standby
      ∧ ¬(ready.ctl.state = .running ∨ ready.ctl.state = .standby)
      ∧ { ready with transport := { ready.transport with state := .runOut } }.transport.state = .runOut
      ∧ (∃ k ∈ (reached (.pick 0) .up 0 ready).transport.compares,
          k.owner.isDeadline = false ∧ k.owner ≠ .boundary) := by
  refine ⟨rfl, rfl, by decide, rfl, rfl, rfl, by decide, rfl, _, List.mem_singleton.2 rfl, rfl, by decide⟩
theorem test_witness_RestartsAccepted :
    (halted true).ctl.cmd = none ∧ (halted true).ctl.state = .halted ∧ (halted true).mail.purgeFull = false
      ∧ (halted false).jam.recoveryPending = false ∧ (halted true).jam.recoveryPending = true
      ∧ { halted true with jam := { (halted true).jam with mainResume := 0 } }.jam.mainResume = 0
      ∧ (halted true).jam.mainResume ≠ 0 ∧ (halted true).orderAddrOk (halted true).jam.mainResume = true
      ∧ (halted true).orderAddrOk 4 = false ∧ (halted true).jam.recoveryResume = 0 := by decide
theorem test_witness_ExtendAccepted :
    let fault (v : Word) : FetchPos := .chainFault (.value v)
    running.ctl.cmd = none ∧ running.ctl.state = .running ∧ (inState .standby running).ctl.state = .standby
      ∧ (inState .draining running).ctl.state = .draining ∧ (halted true).ctl.state = .halted
      ∧ { running.fetch with pos := .chainEnd .controlWord2 }.pos = .chainEnd .controlWord2
      ∧ { running.fetch with pos := .chainFault .controlWord2 }.pos = .chainFault .controlWord2
      ∧ (∀ v, FaultSource.controlWord2 ≠ .value v)
      ∧ { running.fetch with pos := fault 0x00100300 }.pos = fault 0x00100300
      ∧ running.orderAddrOk 0x00100300 = true ∧ running.orderAddrOk 4 = false ∧ running.queueHasRoom = true
      ∧ { running.mem with queue := List.replicate 16 (writeOf .plain) }.queue.length = 16
      ∧ running.fetch.pos = .idle ∧ withCandidate.candidateEntry = some (entry 1 .sheet loopSheet .fetched)
      ∧ withCandidate.launch.candRead = none ∧ candidateReading.launch.candRead ≠ none
      ∧ running.candidateEntry = none :=
  ⟨rfl, rfl, rfl, rfl, rfl, rfl, rfl, by simp, rfl, by decide, by decide, by decide, rfl, rfl, by decide, rfl,
    by decide, rfl⟩
theorem test_witness_PathResetClearsThePath :
    jammedDone.ctl.cmd = none ∧ (jammedDone.ctl.state = .jammed ∧ jammedDone.jam.recordIssued = true)
      ∧ jammedDone.allClear ∧ ((halted true).ctl.state = .halted ∧ (halted true).allClear)
      ∧ ¬{ jammedDone with transport := blocked.transport }.allClear :=
  ⟨rfl, ⟨rfl, rfl⟩, reset_allClear _ rfl, ⟨rfl, reset_allClear _ rfl⟩, blocked_not_allClear _ rfl⟩
theorem test_witness_DiscardedAndStartAddressReads_unused :
    (Instr.tailReread 0).completes = some (.fetch .tail)
      ∧ { ready.mem with bus := some ⟨.read ⟨.fetch .tail, [4]⟩, true⟩ }.bus
        = some ⟨.read ⟨.fetch .tail, [4]⟩, true⟩
      ∧ (∀ r cut, ready.mem.bus = some ⟨.read r, cut⟩ → r.purpose ≠ .fetch .tail)
      ∧ (fetching .tail .idle ready).mem.bus = readOf (.fetch .tail)
      ∧ { ready.fetch with read := some ⟨.tail, true⟩ }.read = some ⟨.tail, true⟩ :=
  ⟨rfl, rfl, (fun _ _ h => nomatch h), rfl, rfl⟩
theorem test_witness_DiscardedAndStartAddressReads_start :
    (reading .mainHead running).mem.bus = readOf .mainHead
      ∧ (reading .recoveryHead running).mem.bus = readOf .recoveryHead
      ∧ running.ctl.state = .running ∧ (inState .standby running).ctl.state = .standby
      ∧ ¬(ready.ctl.state = .running ∨ ready.ctl.state = .standby) ∧ running.jam.mainResume = 0
      ∧ (0x00100280 : Word) ≠ 0
      ∧ recordInWindow running.ctl.area running.mem.windowLength 0x00100280 64 = true
      ∧ recordInWindow running.ctl.area running.mem.windowLength 0x0013FFC0 64 = true
      ∧ recordInWindow running.ctl.area running.mem.windowLength 0x00140000 64 = false := by decide
theorem test_witness_OrderFetched :
    let s := fetching .order (.next 0x00100300) running
    s.mem.bus = readOf (.fetch .order) ∧ s.fetch.read = some ⟨.order, false⟩ ∧ s.fetch.pos = .next 0x00100300
      ∧ s.fetch.window.length < 64 ∧ s.fetch.stack = [] ∧ s.fetch.resync = false
      ∧ kindOf loopSheet.kind ≠ .call ∧ s.fetch.chain = .main
      ∧ ({ loopSheet with link := 0 } : OrderWords).link = 0 ∧ loopSheet.link ≠ 0
      ∧ recordInWindow s.ctl.area s.mem.windowLength loopSheet.link 64 = true
      ∧ recordInWindow s.ctl.area s.mem.windowLength 4 64 = false ∧ s.queueHasRoom = true := by decide
def callWords : OrderWords := { loopSheet with kind := 3, w4 := 0x00100500 }
theorem test_witness_CallEntersItsSequence :
    let s := fetching .order (.next 0x00100300) running
    let a : State := { s with fetch := { s.fetch with
      pos := .awaitingHead 0 0x00100500, window := [entry 0 .call callWords .fetched], nextId := 1 } }
    (s.mem.bus = readOf (.fetch .order) ∧ s.fetch.read = some ⟨.order, false⟩ ∧ s.fetch.window.length < 64
      ∧ s.fetch.pos = .next 0x00100300 ∧ kindOf callWords.kind = .call
      ∧ ¬(s.fetch.resync = true ∧ s.fetch.chain = .main) ∧ s.fetch.stack.length < 4
      ∧ (∀ f ∈ s.fetch.stack, f.head ≠ callWords.w4)
      ∧ recordInWindow s.ctl.area s.mem.windowLength callWords.w4 64 = true)
    ∧ (a.mem.bus = readOf (.fetch .order) ∧ a.fetch.pos = .awaitingHead 0 0x00100500
      ∧ a.findEntry 0 = some (entry 0 .call callWords .fetched) ∧ a.queueHasRoom = true ∧ a.fetch.stack = []
      ∧ kindOf ({ callWords with kind := 5 } : OrderWords).kind = .head ∧ kindOf loopSheet.kind ≠ .head
      ∧ recordInWindow a.ctl.area a.mem.windowLength callWords.link 64 = true) := by decide
theorem test_witness_LinkAndReadyWordReads_links :
    let b : Word := 0x00100300
    ((fetching .tail (.chainEnd (.block b)) running).mem.bus = readOf (.fetch .tail)
      ∧ (fetching .tail (.chainEnd (.block b)) running).fetch.read = some ⟨.tail, false⟩
      ∧ (fetching .tail (.chainEnd (.block b)) running).fetch.pos = .chainEnd (.block b))
    ∧ ((fetching .faultSource (.chainFault (.link b)) running).mem.bus = readOf (.fetch .faultSource)
      ∧ (fetching .faultSource (.chainFault (.link b)) running).fetch.pos = .chainFault (.link b))
    ∧ ((fetching .returnLink (.returning 0x00100500) inSequence).mem.bus = readOf (.fetch .returnLink)
      ∧ (fetching .returnLink (.returning 0x00100500) inSequence).fetch.stack = ⟨0x00100500, 1⟩ :: [])
    ∧ ((fetching .continuation (.continuing b 1) running).mem.bus = readOf (.fetch .continuation)
      ∧ (fetching .continuation (.continuing b 1) running).fetch.chain = .main)
    ∧ (recordInWindow running.ctl.area running.mem.windowLength 0x00100400 64 = true
      ∧ recordInWindow running.ctl.area running.mem.windowLength 0x00100401 64 = false
      ∧ running.queueHasRoom = true) := by decide
theorem test_witness_LinkAndReadyWordReads_ready :
    candidateReading.mem.bus = readOf .candidateReady ∧ candidateReading.launch.candRead = some 1
      ∧ invReading.mem.bus = readOf (.invReady 0) := by decide
theorem test_witness_WriteCompletes :
    let w := writeOf .plain
    let h : HeldWrite := ⟨w, .retire⟩
    let held : State := { writing .plain with mem := { (writing .plain).mem with held := [h] } }
    ((writing .plain).mem.bus = some ⟨.write w, false⟩ ∧ (writing .plain).mem.held = [])
    ∧ (held.mem.bus = some ⟨.write w, false⟩ ∧ held.mem.held = [h]
      ∧ ({ held.mem with queue := List.replicate 16 w } : Mem).queue.tail.length < 16)
    ∧ ({ held.mem with bus := some ⟨.write w, true⟩ } : Mem).bus = some ⟨.write w, true⟩ := by decide
theorem test_witness_BusGrants :
    let r : ReadReq := ⟨.candidateReady, [0x00100300]⟩
    let one : State := { running with mem := { running.mem with waiting := [r], queue := [writeOf .plain] } }
    let two : State := { running with mem := { running.mem with queue := [writeOf .plain] } }
    (reading .mainHead running).mem.bus ≠ none ∧ running.mem.bus = none ∧ running.mem.queue = []
      ∧ running.mem.waiting = [] ∧ running.nextAccess = none ∧ one.nextAccess = some (.read r)
      ∧ two.nextAccess = some (.write (writeOf .plain)) ∧ one.mem.bus = none := by decide
theorem test_witness_PositionArithmetic :
    posDiff 8388608 0 = -8388608 ∧ posDiff 8388607 0 = 8388607 ∧ posDiff 0 0 = 0 := by decide
theorem test_witness_CountsMoveOnlyBySteps :
    (∀ x, Instr.run ≠ .encoderStep x) ∧ (∀ l y, Instr.run ≠ .resetLine l y) ∧ ∃ t, exec .run ready = .next t :=
  ⟨by simp, by simp, _, rfl⟩
theorem test_witness_EdgesRecordLevels :
    ready.transport.sensors.get .prg = false ∧ blocked.transport.sensors.get .prg = true
      ∧ (∃ t, exec .run ready = .next t) ∧ (∀ x, Instr.run ≠ .leadingEdge x) ∧ (∀ x, Instr.run ≠ .trailingEdge x)
      ∧ ∀ l y, Instr.run ≠ .resetLine l y :=
  ⟨rfl, rfl, ⟨_, rfl⟩, by simp, by simp, by simp⟩
theorem test_witness_HaltedTracking :
    ready.transport.sensors.get .prg = false ∧ ready.track.tracking.get Checkpoint.prg.sec = false
      ∧ blocked.transport.sensors.get .prg = true ∧ blocked.track.tracking.get Checkpoint.prg.sec = false
      ∧ blocked.occupant .prg = none := by decide
theorem test_witness_LeadingEdgeFaults :
    let at_ (p : Pos) := tracked .fus p
    (at_ 0).config = some cfg ∧ (at_ 0).transport.sensors.get .fus = false
      ∧ (at_ 0).track.tracking.get Checkpoint.fus.sec = true ∧ running.queueHead .fus = none
      ∧ ((at_ 100151).queueHead .fus).map (·.due) = some (some ⟨100151, 100001, 100401⟩)
      ∧ posDiff 100000 100001 < 0
      ∧ ((at_ 99749).queueHead .fus).map (·.due) = some (some ⟨99749, 99599, 99999⟩)
      ∧ 0 ≤ posDiff 100000 99599 ∧ (250 : Int) < posDiff 100000 99749
      ∧ 0 ≤ posDiff 100000 99600 ∧ posDiff 100000 99750 ≤ (250 : Int)
      ∧ 2 ≤ [(⟨.reg, 0, 0⟩ : Occupancy), ⟨.mrg, 0, 0⟩].length := by decide +kernel
theorem test_witness_OnTimeArrivalMovesOn :
    let s := tracked (.fd .t1) 99750
    s.config = some cfg ∧ s.transport.sensors.get (.fd .t1) = false
      ∧ s.track.tracking.get (Checkpoint.fd .t1).sec = true
      ∧ s.queueHead (.fd .t1) = some (sheetDueAt (.fd .t1) 99750)
      ∧ (sheetDueAt (.fd .t1) 99750).due = some ⟨99750, 99600, 100000⟩
      ∧ 0 ≤ posDiff (s.transport.count.get .up) 99600
      ∧ posDiff (s.transport.count.get .up) 99750 ≤ (cfg.block.lateTol.get .up : Int)
      ∧ (sheetDueAt (.fd .t1) 99750).occ.length < 2
      ∧ s.track.sheets.filter (·.id = 0) = [sheetDueAt (.fd .t1) 99750]
      ∧ (cfg.block.trays.get .t1).fdToMrg = 8000
      ∧ ((tracked .rtn 500).queueHead .rtn = some (sheetDueAt .rtn 500) ∧ cfg.block.rtnToMrg = 5650) := by
  decide +kernel
theorem test_witness_TransferDecisionAtReg :
    let x := sheetDueAt .reg 0
    let s := tracked .reg 0
    let full : Track := { s.track with fifo := List.replicate 5 ⟨9, true⟩ }
    s.track.sheets.filter (·.id = x.id) = [x] ∧ ({ x with purge := some .jam } : Sheet).purge ≠ none
      ∧ x.purge = none ∧ ({ x with pass2 := true } : Sheet).side2 = none
      ∧ ({ x with pass2 := true, side2 := some 5 } : Sheet).side2Check ≠ .ready
      ∧ ({ x with pass2 := true, side2 := some 5, side2Check := .ready } : Sheet).side2 ≠ none
      ∧ x.pass2 = false ∧ 5 ≤ full.fifo.length ∧ s.track.fifo.length < 5 := by decide
theorem test_witness_DiverterD1 :
    let s := tracked .fus 99750
    s.config = some cfg ∧ s.transport.sensors.get .fus = false ∧ s.track.tracking.up = true
      ∧ s.queueHead .fus = some (sheetDueAt .fus 99750) ∧ (sheetDueAt .fus 99750).due = some ⟨99750, 99600, 100000⟩
      ∧ 0 ≤ posDiff s.transport.count.up 99600
      ∧ posDiff s.transport.count.up 99750 ≤ (cfg.block.lateTol.up : Int)
      ∧ (sheetDueAt .fus 99750).occ.length < 2 ∧ running.queueHead .fus = none
      ∧ Instr.run ≠ .leadingEdge .fus := by decide +kernel
theorem test_witness_TrailingEdges :
    let s := occupying .reg (100000 - 4300)
    s.config = some cfg ∧ s.transport.sensors.get .reg = true ∧ s.track.tracking.get Checkpoint.reg.sec = true
      ∧ (s.occupant .reg).map (fun p => (p.1.state, p.2)) = some (.inPath, ⟨.reg, 95700, 103900⟩)
      ∧ posLength 100000 95700 = 4300 ∧ ((4300 : Int) - 4100).natAbs ≤ cfg.block.lengthTol
      ∧ ¬((4301 : Int) - 4100).natAbs ≤ cfg.block.lengthTol ∧ ¬((3899 : Int) - 4100).natAbs ≤ cfg.block.lengthTol
      ∧ (occupying .fus 95700).occupant .fus ≠ none ∧ (occupying .mrg 95700).occupant .mrg ≠ none
      ∧ ({ sheetDueAt .reg 0 with state := .frozen } : Sheet).state = .frozen := by decide +kernel
theorem test_witness_MarkResultsAndCompare :
    ((occupying .mrk 600).occupant .mrk).map (·.1.mark) = some .empty ∧ running.occupant .mrk = none
      ∧ (31 : Nat) < 32 ∧ piece.markMask = 0xFFFFFFFF ∧ piece.markMask.getLsbD 31 = true := by decide +kernel
theorem test_witness_MrkTrailingEdgeCommits :
    let s := occupying .mrk (700 - 4300)
    let x : Sheet := { sheetDueAt .mrk 0 with next := none, due := none, last := some .mrk
                                              occ := [⟨.mrk, 700 - 4300, 700 - 4300 + 8200⟩] }
    s.config = some cfg ∧ s.transport.sensors.get .mrk = true ∧ s.track.tracking.down = true
      ∧ s.occupant .mrk = some (x, ⟨.mrk, 700 - 4300, 700 - 4300 + 8200⟩) ∧ x.state ≠ .frozen
      ∧ s.mail.table.filter (·.id = x.mp) = [piece] ∧ piece.bin = some .b1
      ∧ s.track.sheets.filter (·.id = x.id) = [x]
      ∧ ((posLength s.transport.count.down (700 - 4300) : Int)
          - ((cfg.block.trays.get x.tray).media : Int)).natAbs ≤ cfg.block.lengthTol
      ∧ (cfg.block.trays.get x.tray).markCheck = true ∧ piece.markMask ≠ 0 ∧ x.mark = .empty ∧ x.purge = none
      ∧ State.markMatches piece x 1000 = true ∧ State.markMatches piece x 1001 = false
      ∧ ¬((cfg.block.trays.get .t5).markCheck = true ∧ piece.markMask ≠ 0) := by decide +kernel
theorem test_witness_BinTrailingEdgeSettles :
    let s := occupying (.stk .b1) 600
    s.config = some cfg ∧ s.transport.sensors.get (Dest.stk .b1).checkpoint = true ∧ s.track.tracking.down = true
      ∧ (s.occupant (Dest.stk .b1).checkpoint).map (·.1.state) = some .inPath
      ∧ ((occupying .prg 600).occupant Dest.prg.checkpoint).map (·.1.state) = some .inPath
      ∧ s.mail.purgeCount.toNat < 4294967295 := by decide +kernel
theorem test_witness_SampleInRunUp :
    let t : Transport := { ready.transport with state := .runUp, count := ⟨10400, 9600, 10000⟩ }
    ready.config = some cfg ∧ t.state = .runUp
      ∧ (cfg.block.floor ≤ 9600 ∧ cfg.block.nominal - cfg.block.band ≤ 9600
        ∧ posLength t.count.up t.ref.up ≤ cfg.block.nominal + cfg.block.band)
      ∧ ¬posLength 10401 0 ≤ cfg.block.nominal + cfg.block.band
      ∧ ({ t with allInBand := 2 } : Transport).allInBand = 2 ∧ t.allInBand + 1 ≠ 3 := by decide +kernel
theorem test_witness_SampleAtSpeed : running.config = some cfg ∧ running.transport.state = .atSpeed := ⟨rfl, rfl⟩
theorem test_witness_SampleInRunOutAndTimers_sample :
    let t : Transport := { ready.transport with state := .runOut, below := perSection 2 }
    ready.config = some cfg ∧ t.state = .runOut ∧ t.heldRunUp = false
      ∧ posLength (t.count.get .up) (t.ref.get .up) = 0 ∧ min 2 (t.below.get .up + 1) = 2
      ∧ min 2 (ready.transport.below.get .up + 1) ≠ 2
      ∧ ({ t with heldRunUp := true } : Transport).heldRunUp = true := by decide +kernel
theorem test_witness_SampleInRunOutAndTimers_timers :
    let t : Transport := { ready.transport with state := .runUp, runUpTimer := some 10 }
    t.state = .runUp ∧ t.runUpTimer.isSome = true
      ∧ ¬(ready.transport.state = .runUp ∧ ready.transport.runUpTimer.isSome = true)
      ∧ ready.transport.state = .stopped ∧ State.reset.config = none := by decide
theorem test_witness_ReachedComparesTaken_boundary :
    let s := reached .boundary .up 104800 running
    s.config = some cfg
      ∧ (s.transport.compares.find? (fun c => c.event.isSome && c.owner == .boundary)).map (·.event)
        = some (some running.transport.count)
      ∧ (∀ c ∈ running.transport.compares, c.owner = .boundary → c.event = none) := by
  refine ⟨rfl, by decide, fun c hc => absurd hc (by simp [running, ready, State.reset])⟩
theorem test_witness_ReachedComparesTaken_pick :
    pickDue.config = some cfg
      ∧ (pickDue.transport.compares.find? (fun c => c.event.isSome && State.isPick c.owner)).map
          (fun q => (q.owner, q.event)) = some (.pick 0, some pickDue.transport.count)
      ∧ pickDue.launch.schedule.find? (·.track == 0) = some ⟨0, .t1, 100000⟩
      ∧ (pickDue.track.sheets.filter (·.id = 0)).length = 1 := by decide +kernel
theorem test_witness_ReachedComparesTaken_deadlines :
    let l := reached (.late 0) .up 100000 (tracked .fus 99750)
    let k := reached (.stuck 0 .reg) .up 100000 (occupying .reg 91800)
    (l.transport.compares.find? (fun a => a.event.isSome && l.isLateAt .fus a.owner)).map (·.owner) = some (.late 0)
      ∧ (l.findSheet 0).map (·.next) = some (some .fus)
      ∧ (k.transport.compares.find? (fun a => a.event.isSome && State.isStuckAt .reg a.owner)).map (·.owner)
        = some (.stuck 0 .reg)
      ∧ (k.findSheet 0).isSome = true ∧ running.transport.compares = [] := by decide +kernel
theorem test_witness_AnswersAndOperatorInputs_answers :
    awaitingAnswer.track.fifo = ⟨0, true⟩ :: [] ∧ running.track.fifo = []
      ∧ ({ track := 0, live := false } : Transfer).live = false := by decide
theorem test_witness_AnswersAndOperatorInputs_refill :
    { ready.launch with trays := perTray true }.trays.get .t5 = true := by decide
theorem test_witness_LaunchDecisionAtABoundary :
    let p : Word := withCandidate.clock.pitch + BitVec.ofNat 32 cfg.qty.lmax
    let pos := posSub (posAdd 100000 (cfg.qty.lmax % 4294967296 * cfg.block.pitchLength)) (3000 + 8000)
    withCandidate.config = some cfg ∧ cfg.block.slotOfPitch p = some .feed ∧ withCandidate.ctl.state = .running
      ∧ running.candidateEntry = none ∧ ¬(ready.ctl.state = .running)
      ∧ withCandidate.candidateEntry = some (entry 1 .sheet loopSheet .fetched)
      ∧ withCandidate.currentMp = some piece ∧ piece.bin = some .b1 ∧ trayOf loopSheet.w4 = some .t1
      ∧ (cfg.block.trays.get .t1).enabled = true ∧ withCandidate.launch.trays.get .t1 = false
      ∧ loopSheet.ready.getLsbD 0 = true ∧ loopSheet.ready.getLsbD 1 = true
      ∧ withCandidate.track.sheets.length < 24 ∧ withCandidate.launch.schedule.length < 6
      ∧ withCandidate.launch.schedule.getLast? = none ∧ pos = 113000
      ∧ cfg.block.slotOfPitch (p + BitVec.ofNat 32 cfg.qty.loopDelay) = some .ret
      ∧ withCandidate.clock.ring = [] ∧ withCandidate.clock.lastFinal = none
      ∧ withCandidate.mail.waitingOpen = none ∧ (∀ src, withCandidate.fetch.pos ≠ .chainFault src) := by
  refine ⟨rfl, ?_⟩
  refine ⟨by decide +kernel, rfl, rfl, by decide, by decide +kernel, by decide +kernel, rfl, by decide,
    by decide +kernel, by decide, by decide, by decide, by decide, by decide, rfl, by decide +kernel,
    by decide +kernel, rfl, rfl, rfl, by simp [withCandidate, running, ready, State.reset]⟩
theorem test_witness_MailpieceOpeningAndSettlement :
    let w (n : Word) : OrderWords := { loopSheet with w5 := n, w6 := 1 }
    let done : Mailpiece := { piece with state := .launched, closed := true, launched := 3, stacked := 3 }
    (running.config = some cfg ∧ running.currentMp = none)
    ∧ (¬(1 ≤ (w 0).w5.toNat ∧ (w 0).w5.toNat ≤ 64) ∧ ¬(1 ≤ (w 65).w5.toNat ∧ (w 65).w5.toNat ≤ 64)
      ∧ (1 ≤ (w 64).w5.toNat ∧ (w 64).w5.toNat ≤ 64))
    ∧ ((binMaskOf (w 64).w6).get .b1 = true ∧ (cfg.block.bins.get .b1).enabled = true
      ∧ (w 64).w5.toNat ≤ (cfg.block.bins.get .b1).capacity
      ∧ (binMaskOf (2 : Word)).get .b1 = false ∧ (cfg.block.bins.get .b2).enabled = false)
    ∧ (running.mail.table.length < 32 ∧ 32 ≤ (List.replicate 32 done).length)
    ∧ (State.mpSettles false done = true ∧ done.stacked = done.sheetCount ∧ State.mpSettles false piece = false
      ∧ piece.stacked ≠ piece.sheetCount ∧ piece.stacked = 0
      ∧ ({ piece with stacked := 1 } : Mailpiece).stacked ≠ 0) := by decide +kernel
theorem test_witness_RetirementSequence :
    let e := { entry 0 .nop loopSheet .passed with draft := some ⟨.passed, none⟩ }
    let s : State := { running with fetch := { running.fetch with window := [e], nextId := 1 } }
    s.fetch.window = e :: [] ∧ e.retirable = true ∧ s.retireHeld = false ∧ e.chain ≠ .sequence
      ∧ s.retire.step.getD 0 = 0 ∧ e.retireSteps[0]? = some .disposition ∧ e.retireSteps[7]? = some .count
      ∧ e.retireSteps.length ≤ 8 ∧ s.queueHasRoom = true
      ∧ ({ e with chain := .sequence } : Entry).chain = .sequence
      ∧ (entry 0 .nop loopSheet .fetched).retirable = false := by decide
theorem test_witness_PrimaryJam :
    running.ctl.state = .running ∧ (inState .draining running).ctl.state = .draining
      ∧ (inState .standby ready).ctl.state = .standby ∧ (Place.checkpoint .mrk).sections.down = true
      ∧ (Place.checkpoint .reg).sections.down = false ∧ running.queueHasRoom = true := by decide
theorem test_witness_SecondaryJam :
    (inState .stopping running).ctl.state = .stopping ∧ State.reset.ctl.state = .unconfigured
      ∧ ready.ctl.state = .ready ∧ (halted true).ctl.state = .halted ∧ jammedDone.ctl.state = .jammed := by decide
theorem test_witness_EndOfEvent_keeps :
    { ready with ctl := { ready.ctl with attn := 4 } }.attnHas .halted = true := by decide
theorem test_witness_EndOfEvent_atRest : State.reset.atRest = true ∧ ready.atRest = true := by decide +kernel
/-- The four invariants hold of one state with a configuration, and it has a next step. -/
theorem test_witness_invariants_kept :
    (ready.SheetBooks ∧ ready.TablesFit ∧ ready.ConfigurationHolds ∧ ready.OneOpenMailpiece)
      ∧ ∃ t, step { ready with pending := [Instr.run] } = .next t := by
  refine ⟨⟨⟨rfl, ?_, ?_, ?_⟩, ⟨?_, ?_, ?_, ?_, ?_, ?_, ?_, ?_⟩, ⟨?_, ?_, ?_, ?_, ?_⟩, ⟨?_, ?_⟩⟩, _, rfl⟩
  case refine_12 =>
    intro k h
    cases h
    exact ⟨by decide +kernel, rfl⟩
  case refine_14 =>
    intro k h
    cases h
    decide +kernel
  all_goals first
    | decide +kernel
    | simp [ready, State.reset, State.RingDistinct]

/-! ## Statements of the register window, the front, STANDBY, purging and jams -/

theorem test_registerAt : [0x00, 0x04, 0x08, 0x0C, 0x10, 0x14].map registerAt
    = [some .area, some .cmd, some .stat0, some .stat1, some .attn, some .amask] := by decide
theorem test_window_write : ready.windowWrite 0x04 2 = some .run ∧ ready.windowWrite 0x04 8 = some (.unknownCommand 8)
    ∧ (commandIn 1 .loadLength ready).windowWrite 0x04 2 = some (.overrun 2)
    ∧ ready.windowWrite 0x10 5 = some (.ignoredRegisterWrite .attn 5) := by decide
theorem test_window_read : ready.windowRead 0x00 = some 0x00100000 ∧ ready.windowRead 0x08 = some 1
    ∧ ready.windowRead 0x18 = none ∧ readCommand .attn = some .attnRead := by decide
theorem test_witness_RegisterMap :
    ready.ctl.cmd = none ∧ (commandIn 1 .loadLength ready).ctl.cmd.isSome = true
      ∧ 0x18 ∉ [0x00, 0x04, 0x08, 0x0C, 0x10, 0x14] ∧ 0x01 ∉ [0x00, 0x04, 0x08, 0x0C, 0x10, 0x14]
      ∧ (0 : Word).toNat = 0 ∧ 8 ≤ (8 : Word).toNat := by decide

/-- An order of a kind, with link and word 4. -/
def orderOf (kind link w4 : Word) : OrderWords := { loopSheet with kind := kind, link := link, w4 := w4 }
theorem test_witness_OrdersInSequencesAndResync :
    let s := fetching .order (.next 0x00100340) running
    let resync : State := { s with fetch := { s.fetch with resync := true } }
    let inner : State := { s with fetch := { s.fetch with stack := [⟨0x00100500, 1⟩], outer := some 1 } }
    let deep : State := { s with fetch := { s.fetch with stack := List.replicate 4 ⟨0x00100500, 1⟩ } }
    let recovery (a : Word) : State := { running with
      fetch := { running.fetch with chain := .recovery }, jam := { running.jam with mainResume := a } }
    (s.mem.bus = readOf (.fetch .order) ∧ s.fetch.read = some ⟨.order, false⟩
      ∧ s.fetch.pos = .next 0x00100340 ∧ s.fetch.window.length < 64)
    ∧ ((resync.fetch.resync = true ∧ resync.fetch.chain = .main) ∧ resync.fetch.stack = []
      ∧ kindOf (orderOf 2 0 1).kind ≠ .mpOpen ∧ kindOf (orderOf 1 0 1).kind = .mpOpen)
    ∧ (s.fetch.stack = [] ∧ ¬(s.fetch.resync = true ∧ s.fetch.chain = .main)
      ∧ [2, 7, 5, 6, 1, 4, 8, 0, 3].map kindOf = [.sheet, .nop, .head, .pause, .mpOpen, .ret, .unknown, .unknown, .call])
    ∧ (inner.fetch.stack = ⟨0x00100500, 1⟩ :: [] ∧ ¬(inner.fetch.resync = true ∧ inner.fetch.chain = .main)
      ∧ (orderOf 4 0 0x00100500).w4 = 0x00100500 ∧ (orderOf 4 0 0).w4 ≠ 0x00100500)
    ∧ (4 ≤ deep.fetch.stack.length ∧ inner.fetch.stack.length < 4
      ∧ (∃ f ∈ inner.fetch.stack, f.head = (orderOf 3 0 0x00100500).w4)
      ∧ ¬(∃ f ∈ s.fetch.stack, f.head = (orderOf 3 0 4).w4) ∧ s.orderAddrOk (orderOf 3 0 4).w4 = false)
    ∧ ((recovery 0).fetch.stack = [] ∧ (recovery 0).fetch.chain = .recovery ∧ (recovery 0).jam.mainResume = 0
      ∧ (recovery 4).jam.mainResume ≠ 0 ∧ (recovery 4).orderAddrOk 4 = false
      ∧ (recovery 4).orderAddrOk 0x00100280 = true ∧ inner.fetch.stack ≠ [] ∧ s.fetch.chain = .main)
    ∧ (s.queueHasRoom = true ∧ ({ s with mem := { s.mem with queue := List.replicate 16 (writeOf .plain) } } : State).queueHasRoom
      = false) := by decide
theorem test_witness_FetchReadsIssued :
    let may (s : State) : Prop := (s.ctl.state = .running ∨ s.ctl.state = .standby ∨ s.ctl.state = .draining
      ∨ s.ctl.state = .halted) ∧ s.fetch.read = none ∧ s.fetchHeld = false
    let at_ (p : FetchPos) (w : List Entry) (r : Bool) : State :=
      { running with fetch := { running.fetch with pos := p, window := w, rereadAsked := r } }
    let a : Word := 0x00100300
    ¬may ready ∧ ¬may (fetching .order (.next a) running) ∧ may (halted true)
      ∧ may (at_ (.next a) [] false) ∧ (at_ (.next a) [] false).fetch.window.length < 64
      ∧ 64 ≤ (at_ (.awaitingHead 0 a) (List.replicate 64 (entry 0 .nop loopSheet .fetched)) false).fetch.window.length
      ∧ may (at_ (.returning a) [] false) ∧ may (at_ (.continuing a 1) [] false)
      ∧ may (at_ (.chainEnd (.block a)) [] true) ∧ (at_ (.chainEnd .controlWord2) [] true).fetch.rereadAsked = true
      ∧ may (at_ (.chainFault (.link a)) [] true) ∧ (at_ (.chainFault (.value a)) [] false).fetch.rereadAsked = false := by
  decide

/-- A state with one sheet in the path, due on time at c. -/
def arriving (c : Checkpoint) (f : Sheet → Sheet) : State :=
  let s := tracked c (running.transport.count.get c.sec)
  { s with track := { s.track with sheets := [f (sheetDueAt c (running.transport.count.get c.sec))] } }
/-- Whether the sheet x of a state is due on time at c, as every arrival of OnTimeArrivalMovesOn asks. -/
def arrives (c : Checkpoint) (s : State) (x : Sheet) : Bool :=
  s.config == some cfg && !s.transport.sensors.get c && s.track.tracking.get c.sec && s.queueHead c == some x
    && decide (x.occ.length < 2) && s.track.sheets.filter (·.id = x.id) == [x]
    && match x.due with
      | some d => decide (0 ≤ posDiff (s.transport.count.get c.sec) d.early)
          && decide (posDiff (s.transport.count.get c.sec) d.expected ≤ (cfg.block.lateTol.get c.sec : Int))
      | none => false
theorem test_witness_OnTimeArrivalMovesOn_work :
    let due (c : Checkpoint) : Sheet := sheetDueAt c (running.transport.count.get c.sec)
    let ok (c : Checkpoint) (f : Sheet → Sheet) : Bool := arrives c (arriving c f) (f (due c))
    let loop1 (c : Checkpoint) (x : Sheet) : Sheet := { x with mode := .loop, side2 := some 6, last := some c }
    (ok .mrg (loop1 .rtn) = true ∧ ok .mrg id = true)
    ∧ (ok .reg (fun x => { x with pass2 := true, side2Check := .pending }) = true ∧ ok .reg id = true)
    ∧ (ok .fus (fun x => { loop1 .reg x with transfer := .outstanding }) = true ∧ ok .fus id = true)
    ∧ (ok .inv (loop1 .fus) = true ∧ (loop1 .fus (due .inv)).purge = none ∧ ok .inv id = true)
    ∧ (ok .mrk (fun x => { x with purge := some .jam }) = true ∧ ok .mrk id = true
      ∧ (arriving .mrk id).findMp 0 = some piece ∧ piece.bin = some .b1)
    ∧ (ok (.stk .b1) (fun x => { x with committed := true }) = true ∧ ok .prg id = true
      ∧ (due .prg).committed = false)
    ∧ ((arriving .mrg id).findSheet 0 = some (due .mrg) ∧ (arriving .mrg id).track.queues.mrg.head? = some 0) := by
  decide +kernel

/-- RUNNING with a LOOP candidate whose mailpiece holds no bin. -/
def binless : State := { withCandidate with mail := { withCandidate.mail with
  table := [{ piece with bin := none }], bins := perBin ⟨0, 0⟩ } }
theorem test_witness_FailedChecksAndSkips :
    let p : Word := withCandidate.clock.pitch + BitVec.ofNat 32 cfg.qty.lmax
    let fits (s : State) (b : Bin) : Prop := piece.binMask.get b = true ∧ (cfg.block.bins.get b).enabled = true
      ∧ piece.sheetCount + (s.mail.bins.get b).stacked + (s.mail.bins.get b).reserved
        ≤ (cfg.block.bins.get b).capacity
    let filled : State := { binless with mail := { binless.mail with bins := perBin ⟨98, 0⟩ } }
    let final := p + BitVec.ofNat 32 cfg.qty.loopDelay
    (binless.config = some cfg ∧ cfg.block.slotOfPitch p = some .feed ∧ binless.ctl.state = .running
      ∧ binless.candidateEntry = some (entry 1 .sheet loopSheet .fetched)
      ∧ binless.currentMp = some { piece with bin := none })
    ∧ ((∀ b, ¬fits filled b) ∧ fits binless .b1 ∧ (∀ b, Bin.order.idxOf b < Bin.order.idxOf Bin.b1 → ¬fits binless b))
    ∧ ((cfg.block.trays.get .t2).enabled = false ∧ trayOf (6 : Word) = none
      ∧ { withCandidate.launch with trays := perTray true }.trays.get .t1 = true)
    ∧ ((1 : Word).getLsbD 0 = true ∧ (0 : Word).getLsbD 0 = false ∧ ¬(List.replicate 24 (sheetDueAt .fus 0)).length < 24
      ∧ ¬(List.replicate 6 (⟨9, .t1, 113000⟩ : Pick)).length < 6 ∧ ¬0 ≤ posDiff 113000 113001
      ∧ (final + 64).toNat % 64 = final.toNat % 64 ∧ pitchGreater final final = false)
    ∧ (running.ctl.state = .running ∧ (tracked .fus 0).ctl.state = .running
      ∧ withCandidate.candidateEntry = some (entry 1 .sheet loopSheet .fetched)) := by
  refine ⟨⟨rfl, by decide +kernel, rfl, by decide, by decide⟩, ⟨?_, by decide +kernel, ?_⟩, by decide +kernel,
    by decide +kernel, rfl, rfl, by decide⟩
  · intro b; cases b <;> decide +kernel
  · intro b h; cases b <;> exact absurd h (by decide)
theorem test_witness_OrdersTakenAtTheFront :
    let with_ (f : Entry → Entry) (w : OrderWords) (k : Kind) (l : List Mailpiece) : State :=
      { withCandidate with
        launch := { withCandidate.launch with candidate := none }
        mail := { withCandidate.mail with table := l }
        fetch := { withCandidate.fetch with window := [f (entry 1 k w .fetched)] } }
    let e : Entry := entry 1 .sheet loopSheet .fetched
    let purging : Mailpiece := { piece with state := .purging }
    (¬(ready.ctl.state = .running ∨ ready.ctl.state = .standby) ∧ running.front = none)
    ∧ (withCandidate.front = some e ∧ withCandidate.launch.candidate = some e.id
      ∧ (inState .standby withCandidate).ctl.state = .standby)
    ∧ ((with_ id loopSheet .mpOpen []).front = some (entry 1 .mpOpen loopSheet .fetched)
      ∧ (with_ id loopSheet .mpOpen []).launch.candidate ≠ some 1
      ∧ { withCandidate.mail with waitingOpen := some 1 }.waitingOpen = some 1
      ∧ withCandidate.mail.table.length < 32 ∧ 32 ≤ (List.replicate 32 piece).length)
    ∧ ((with_ (fun e => { e with draft := some ⟨.refused, some .badKind⟩ }) loopSheet .ret []).front.map (·.draft)
        = some (some ⟨.refused, some .badKind⟩)
      ∧ (with_ (fun e => { e with notAllowed := true }) loopSheet .head []).front.map (·.notAllowed) = some true)
    ∧ ((with_ id loopSheet .call [purging]).currentMp = some purging ∧ (with_ id loopSheet .sheet []).currentMp = none
      ∧ (with_ id loopSheet .sheet [piece]).currentMp = some piece ∧ piece.state ≠ .purging ∧ purging.state = .purging)
    ∧ (withCandidate.config = some cfg ∧ trayOf (6 : Word) = none ∧ trayOf loopSheet.w4 = some .t1
      ∧ (cfg.block.trays.get .t1).enabled = true ∧ modeOf loopSheet.w5 = .loop
      ∧ { withCandidate.clock with loopUnusable := true }.loopUnusable = true
      ∧ withCandidate.clock.loopUnusable = false) := by decide +kernel
theorem test_witness_StandbyEntryAndWake :
    let limit : State := { running with launch := { running.launch with emptyCount := running.runOutLimit } }
    let asked (s : State) : State :=
      { s with ctl := { s.ctl with state := .standby }, launch := { s.launch with wakeAsked := true } }
    let settled (s : State) : State := s.settleMailpieces false
    (limit.ctl.state = .running ∧ limit.launch.emptyCount = limit.runOutLimit ∧ limit.track.sheets = []
      ∧ ¬(running.ctl.state = .running ∧ running.launch.emptyCount = running.runOutLimit))
    ∧ ((settled (full (tracked .fus 0))).ctl.state = .running ∧ (settled (full (tracked .fus 0))).mail.purgeFull = true
      ∧ (settled (full (tracked .fus 0))).track.sheets ≠ [] ∧ (settled (full running)).track.sheets = []
      ∧ (settled running).mail.purgeFull = false ∧ (settled (inState .draining running)).ctl.state = .draining
      ∧ (settled (inState .stopping running)).ctl.state = .stopping ∧ (settled ready).ctl.state = .ready)
    ∧ (running.launch.wakeAsked = false ∧ (asked withCandidate).launch.wakeAsked = true
      ∧ (asked withCandidate).ctl.state = .standby ∧ (asked running).candidateEntry = none
      ∧ (asked withCandidate).currentMp = some piece ∧ (asked withCandidate).config = some cfg
      ∧ (asked withCandidate).candidateEntry = some (entry 1 .sheet loopSheet .fetched)
      ∧ (asked binless).currentMp = some { piece with bin := none }
      ∧ piece.sheetCount + ((asked binless).mail.bins.get .b1).stacked + ((asked binless).mail.bins.get .b1).reserved
        ≤ (cfg.block.bins.get .b1).capacity
      ∧ (cfg.block.trays.get .t1).enabled = true ∧ (asked withCandidate).launch.trays.get .t1 = false
      ∧ loopSheet.ready.getLsbD 0 = true ∧ loopSheet.ready.getLsbD 1 = true ∧ (0 : Word).getLsbD 0 = false) := by
  decide +kernel
theorem test_witness_MailpiecePurging :
    let s := tracked .fus 0
    s.findMp 0 = some piece ∧ piece.state = .filling ∧ s.findMp 1 = none
      ∧ ({ piece with state := .purging } : Mailpiece).state = .purging
      ∧ withCandidate.launch.candidate = some 1
      ∧ (withCandidate.currentMp.map (·.id) = some 0 ∧ withCandidate.ctl.state ≠ .stopping)
      ∧ s.launch.candidate = none
      ∧ ¬((inState .stopping withCandidate).currentMp.map (·.id) = some 0
        ∧ (inState .stopping withCandidate).ctl.state ≠ .stopping)
      ∧ s.findSheet 0 = some (sheetDueAt .fus 0) ∧ s.findSheet 1 = none
      ∧ ((sheetDueAt .fus 0).committed = false ∧ (sheetDueAt .fus 0).purge = none)
      ∧ ({ sheetDueAt .fus 0 with committed := true } : Sheet).committed = true
      ∧ ({ piece with state := .launched } : Mailpiece).state ≠ .filling := by decide
/-- The sheet books hold of a state with a scheduled pick, which a primary jam drops, and of one with a sheet that drains. -/
theorem test_witness_PrimaryJam_books :
    pickDue.SheetBooks ∧ pickDue.launch.schedule.any (·.track == 0) = true ∧ pickDue.queueHasRoom = true
      ∧ (tracked .prg 0).SheetBooks
      ∧ (∃ c, (sheetDueAt .fus 0).next = some c ∧ c.sec ≠ .down) ∧ (sheetDueAt .fus 0).state = .inPath
      ∧ (pickDue.report ⟨.early, .checkpoint .reg, some 1, perSection 0⟩).ctl.state = .jammed
      ∧ ((tracked .prg 0).report ⟨.early, .checkpoint .reg, some 1, perSection 0⟩).ctl.state = .stopping := by
  refine ⟨⟨rfl, by decide, by decide, by decide⟩, rfl, by decide, ⟨rfl, by decide, by decide, by decide⟩,
    ⟨_, rfl, by decide⟩, rfl, by decide +kernel, by decide +kernel⟩
theorem test_witness_ResumePointAtJammedEntry :
    let e (k : Kind) (st : EntryState) : Entry := entry 1 k loopSheet st
    let call (c : CallStatus) (st : EntryState) : Entry := { e .call st with callStatus := c }
    let s (w : List Entry) (p : FetchPos) : State :=
      { running with fetch := { running.fetch with window := w, pos := p } }
    ((e .mpOpen .fetched).kind = .mpOpen ∧ (e .mpOpen .fetched).chain ≠ .sequence
      ∧ (s [e .mpOpen .fetched] .idle).resumePoint.opener = some 1)
    ∧ ((call .pending .fetched).callStatus = .pending ∧ (s [call .pending .fetched] .idle).resumePoint.addr = 0x00100400)
    ∧ (s [] (.next 0x00100340)).resumePoint.addr = 0x00100340 ∧ (s [] .idle).resumePoint.addr = 0
    ∧ (s [] .idle).resumePoint.chain = .main
    ∧ ({ running with fetch := { running.fetch with chain := .recovery } } : State).resumePoint.chain = .recovery
    ∧ ((e .sheet .settled).retirable = true ∧ (e .sheet .fetched).draft = none
      ∧ (e .pause .passed).retirable = false ∧ ({ e .sheet .launched with dropped := true } : Entry).dropped = true
      ∧ ({ e .ret .fetched with draft := some ⟨.refused, some .badKind⟩ } : Entry).draft ≠ none
      ∧ (∀ m ∈ [piece], m.openRef ≠ (e .sheet .fetched).id))
    ∧ ((call .pending .passed).retirable = false ∧ (call .pending .passed).callStatus ≠ .left
      ∧ (call .pending .fetched).retirable = false) := by decide +kernel
theorem test_witness_StopRecordWrites :
    let item : Stranded := ⟨0x00100300, 77, 0, some .reg⟩
    let due : State := { jammedDone with jam := { jammedDone.jam with
      primary := some ⟨.late, .checkpoint .reg, none, perSection 0, 0⟩, stranded := List.replicate 24 item
      interrupted := List.replicate 32 77, recordDue := true } }
    let short : State := { jammedDone with jam := { jammedDone.jam with recordDue := true } }
    due.jam.primary.isSome = true ∧ due.jam.stranded[23]? = some item ∧ due.jam.interrupted[31]? = some 77
      ∧ (due.jam.recordDue = true ∧ due.fetch.window = [])
      ∧ ¬(jammedDone.jam.recordDue = true ∧ jammedDone.fetch.window = [])
      ∧ short.stopRecordWrites.length ≤ 16 - short.mem.queue.length
      ∧ (due.stopRecordWrites.drop 16).head?.isSome = true := by decide +kernel

/-! ## The clauses on commits, retirement, settlements, jams, the configuration, links and the bus -/

/-- The sheet and the state of a trailing edge at MRK whose length passes, the sheet changed by f. -/
def leavingMrk (f : Sheet → Sheet) : Sheet × State :=
  let s := occupying .mrk (700 - 4300)
  let x : Sheet := { sheetDueAt .mrk 0 with next := none, due := none, last := some .mrk
                                            occ := [⟨.mrk, 700 - 4300, 700 - 4300 + 8200⟩] }
  (f x, { s with track := { s.track with sheets := [f x] } })
theorem test_witness_MrkTrailingEdgeCommits_moves :
    let ok (f : Sheet → Sheet) : Prop :=
      let x := (leavingMrk f).1
      let s := (leavingMrk f).2
      s.transport.sensors.get .mrk = true ∧ s.track.tracking.down = true
        ∧ s.occupant .mrk = some (x, ⟨.mrk, 700 - 4300, 700 - 4300 + 8200⟩) ∧ x.state ≠ .frozen
        ∧ s.mail.table.filter (·.id = x.mp) = [piece]
    (ok (fun x => { x with next := some (.stk .b1) }) ∧ Checkpoint.stk .b1 = (Dest.stk .b1).checkpoint
      ∧ Checkpoint.stk .b1 ≠ Dest.prg.checkpoint)
    ∧ (ok (fun x => { x with next := some .prg, purge := some .jam }) ∧ Checkpoint.prg = Dest.prg.checkpoint)
    ∧ (ok (fun x => { x with next := some (.stk .b1), mark := .value 1001 }) ∧ piece.state = .filling)
    ∧ ok (fun x => { x with tray := .t5, next := some .prg }) := by decide +kernel
theorem test_mark_failure_purges_mailpiece :
    let s := (leavingMrk fun x => { x with next := some (.stk .b1), mark := .noRead }).2
    nextHas (exec (.trailingEdge .mrk) { s with config := some { cfg with block := { cfg.block with mrkToPrg := 5000 } } })
      (fun t => t.track.queues.get .prg == [0] && t.track.sheets.map (·.due) == [some ⟨1400, 1250, 1650⟩]
        && t.mail.table.map (·.reason) == [some .markMissing]) = true := by decide +kernel
theorem test_witness_RetirementSequence_values :
    let s : State := { withCandidate with fetch := { withCandidate.fetch with
      window := [entry 0 .mpOpen loopSheet .settled, entry 1 .call callWords .settled] } }
    let e : Entry := { entry 1 .nop loopSheet .passed with draft := some ⟨.passed, none⟩ }
    let left : Entry := { entry 1 .call callWords .passed with callStatus := .left }
    let full : State := { running with
      fetch := { running.fetch with window := [e] }
      mem := { running.mem with queue := List.replicate 16 (writeOf .plain) } }
    (s.mpOfOpen 0 = some piece ∧ running.mpOfOpen 0 = none ∧ (entry 0 .mpOpen loopSheet .settled).kind = .mpOpen
      ∧ (entry 1 .call callWords .settled).kind = .call ∧ e.draft = some ⟨.passed, none⟩)
    ∧ (full.fetch.window = e :: [] ∧ e.retirable = true ∧ full.retireHeld = false ∧ e.chain ≠ .sequence
      ∧ e.retireSteps[full.retire.step.getD 0]? = some .disposition ∧ full.queueHasRoom = false
      ∧ running.queueHasRoom = true)
    ∧ (∃ h ∈ [(⟨writeOf .plain, .retire⟩ : HeldWrite)], h.steps = .retire)
    ∧ (({ s with fetch := { s.fetch with window := [left] } } : State).callSettles left = true
      ∧ s.callSettles (entry 1 .call callWords .fetched) = false) := by decide +kernel
theorem test_witness_BinTrailingEdgeSettles_summary :
    let s := occupying (.stk .b1) 600
    let called : State := { s with fetch := { s.fetch with
      window := [{ entry 0 .call callWords .passed with callStatus := .left },
        { entry 1 .sheet loopSheet .launched with caller := some 0 }] } }
    (called.occupant (Dest.stk .b1).checkpoint).map (fun p => (p.1.order, p.1.state)) = some (1, .inPath)
      ∧ (called.findEntry 1).bind (·.caller) = some 0 ∧ (s.findEntry 1).bind (·.caller) = none := by decide +kernel
/-- A primary jam at REG over an uncommitted sheet that drains in DOWN, of a mailpiece that is not closed. -/
theorem test_witness_PrimaryJam_interrupted :
    let s := tracked .mrk 0
    let t := s.report ⟨.early, .checkpoint .reg, some 1, perSection 0⟩
    s.SheetBooks ∧ s.ctl.state = .running ∧ t.ctl.state = .stopping
      ∧ t.track.sheets.map (·.purge) = [some .jam] ∧ t.mail.table.map (fun m => (m.interrupted, m.reason)) = [(true, some .jam)] := by
  refine ⟨⟨rfl, by decide, by decide, by decide⟩, rfl, by decide +kernel, by decide +kernel, by decide +kernel⟩
theorem test_witness_SecondaryJam_settlements :
    let s := inState .stopping (tracked .fus 0)
    let m : Mailpiece := { piece with interrupted := true }
    let done : Mailpiece := { piece with state := .launched, stacked := 1 }
    s.ctl.state = .stopping ∧ s.launch.candidate = none ∧ s.mail.table.filter (·.id = piece.id) = [piece]
      ∧ s.mail.table.filter (·.openRef = piece.openRef) = [piece]
      ∧ (∃ e ∈ s.fetch.window, e.id = piece.openRef)
      ∧ (m.interrupted = true ∧ m.state = .filling) ∧ piece.interrupted = false
      ∧ (done.state = .launched ∧ done.stacked + done.purged + done.lost = done.launched)
      ∧ piece.stacked + piece.purged + piece.lost ≠ piece.launched := by decide
def blockWith (f : ConfigBlock → ConfigBlock) : ConfigBlock := f cfg.block
/-- The ranges of the first check hold of a block; the block of the examples and those the later checks refuse meet them. -/
def InRange (b : ConfigBlock) : Prop :=
  let within (lo hi n : Nat) : Prop := lo ≤ n ∧ n ≤ hi
  (within 1024 32767 b.pitchLength ∧ within 1 32 b.frameLength ∧ ∀ k, k < b.frameLength → b.slot k ≠ none)
  ∧ (∀ t, (b.trays.get t).enabled = true → within 2000 12000 (b.trays.get t).media
      ∧ within 100 65535 (b.trays.get t).pickToFd ∧ within 100 65535 (b.trays.get t).fdToMrg)
  ∧ (∀ n ∈ [b.mrgToReg, b.regToFus, b.fusToInv, b.invToRtn, b.rtnToMrg, b.fusToMrk, b.mrkToPrg],
      within 100 262143 n)
  ∧ (∀ x, within 100 262143 (b.mrkToStk.get x))
  ∧ (∀ x, b.earlyTol.get x ≤ 4095 ∧ b.lateTol.get x ≤ 4095)
  ∧ (∀ x, (b.bins.get x).enabled = true → within 1 65535 (b.bins.get x).capacity)
  ∧ (b.lengthTol ≤ 4095 ∧ b.minGap ≤ 4095 ∧ within 1 65535 b.purgeCapacity ∧ within 1 250 b.samplePeriod
    ∧ within 1 1000000 b.nominal ∧ b.band ≤ b.nominal ∧ b.floor ≤ b.nominal - b.band
    ∧ within 1 255 b.runUpTimeout ∧ b.runOutLimit ≤ 1023 ∧ b.retireBatch ≤ 255)
def noFeed : ConfigBlock := blockWith fun b => { b with slotsLow := 0xAAAAAAAA }
def noTrays : ConfigBlock := blockWith fun b => { b with trays := perTray ⟨false, false, 0, 0, 0⟩ }
def badLoop : ConfigBlock := blockWith fun b => { b with rtnToMrg := 5650 + 851 }
def farTray : ConfigBlock := blockWith fun b => { b with trays := perTray ⟨true, true, 4100, 20000, 8000⟩ }
def tight : ConfigBlock := configBlockOf (configWords 600)
def longSpan : ConfigBlock := blockWith fun b => { b with regToFus := 19201, fusToInv := 6149 }
theorem test_witness_ConfigBlockReadAndInstalled_ranges :
    InRange cfg.block ∧ InRange noFeed ∧ InRange noTrays ∧ InRange badLoop ∧ InRange farTray ∧ InRange tight
      ∧ InRange longSpan ∧ ¬InRange (blockWith fun b => { b with pitchLength := 1023 }) := by
  refine ⟨?_, ?_, ?_, ?_, ?_, ?_, ?_, fun h => absurd h.1.1 (by decide +kernel)⟩ <;>
    refine ⟨by decide +kernel, fun t => ?_, by decide +kernel, fun x => ?_, fun x => ?_, fun x => ?_, by decide +kernel⟩ <;>
    first
      | (cases t <;> decide +kernel)
      | (cases x <;> decide +kernel)
theorem test_witness_ConfigBlockReadAndInstalled_checks :
    let feeds (b : ConfigBlock) : Prop := ∃ k, k < b.frameLength ∧ b.slot k = some .feed
    let loopFits (b : ConfigBlock) : Prop := (2 ≤ b.quantities.loopDelay ∧ b.quantities.loopDelay ≤ 48)
      ∧ b.quantities.residue.natAbs ≤ b.pitchLength / 8
    let pitchFits (b : ConfigBlock) : Prop := ∀ t, (b.trays.get t).enabled = true →
      ((b.trays.get t).media + b.minGap : Int) ≤ (b.pitchLength : Int) - b.quantities.residue.natAbs
    ¬feeds noFeed ∧ feeds cfg.block ∧ (∀ t, ¬(noTrays.trays.get t).enabled = true)
      ∧ (cfg.block.trays.get .t1).enabled = true ∧ ¬loopFits badLoop ∧ loopFits cfg.block
      ∧ 6 < farTray.quantities.lmax ∧ loopFits farTray ∧ cfg.block.quantities.lmax ≤ 6
      ∧ loopFits tight ∧ tight.quantities.lmax ≤ 6 ∧ ¬pitchFits tight ∧ pitchFits cfg.block
      ∧ loopFits longSpan ∧ longSpan.quantities.lmax ≤ 6 ∧ pitchFits longSpan
      ∧ 4 * longSpan.pitchLength < longSpan.regToFus ∧ cfg.block.regToFus ≤ 4 * cfg.block.pitchLength
      ∧ 0 < cfg.block.pitchLength := by
  refine ⟨by decide +kernel, ⟨0, by decide +kernel⟩, fun t => by cases t <;> decide +kernel, by decide +kernel,
    by decide +kernel, by decide +kernel, by decide +kernel, by decide +kernel, by decide +kernel, by decide +kernel,
    by decide +kernel, fun h => absurd (h .t1 (by decide +kernel)) (by decide +kernel), ?_, by decide +kernel,
    by decide +kernel, ?_, by decide +kernel, by decide +kernel, by decide +kernel⟩ <;>
    intro t <;> cases t <;> decide +kernel
theorem test_checks_in_order :
    [blockWith (fun b => { b with pitchLength := 1023 }), noFeed, noTrays, badLoop, farTray, tight, longSpan].map
        (·.validate)
      = [some .range, some .noFeedSlot, some .noTray, some .loopDelay, some .feedLead, some .pitchFit,
          some .transferSpan] := by decide +kernel
/-- Both ends of the offsets a record may have in the window, and the alignment. -/
theorem test_window_check_ends :
    [(0x00100280, 64), (0x00100240, 64), (0x001002A0, 64), (0x0013FFC0, 64), (0x0013FFC0, 65)].map
        (fun (p : Word × Nat) => recordInWindow 0x00100000 262144 p.1 p.2)
      = [true, false, false, true, false] := by decide
theorem test_witness_LinkAndReadyWordReads_sources :
    let tail := fetching .tail (.chainEnd .controlWord2) running
    let at_ (src : FaultSource) (s : State) : State := fetching .faultSource (.chainFault src) s
    let resume (a : Word) : State := at_ .controlWord3 { running with jam := { running.jam with mainResume := a } }
    (tail.mem.bus = readOf (.fetch .tail) ∧ tail.fetch.read = some ⟨.tail, false⟩
      ∧ tail.fetch.pos = .chainEnd .controlWord2)
    ∧ ((at_ (.callHead 1 0x00100300) running).mem.bus = readOf (.fetch .faultSource)
      ∧ (at_ (.callHead 1 0x00100300) running).fetch.read = some ⟨.faultSource, false⟩
      ∧ (at_ (.callHead 1 0x00100300) running).fetch.pos = .chainFault (.callHead 1 0x00100300))
    ∧ ((at_ (.returnLink 0x00100500) inSequence).fetch.pos = .chainFault (.returnLink 0x00100500)
      ∧ (at_ (.returnLink 0x00100500) inSequence).fetch.stack = ⟨0x00100500, 1⟩ :: [])
    ∧ (at_ .controlWord2 running).fetch.pos = .chainFault .controlWord2
    ∧ ((resume 0).fetch.pos = .chainFault .controlWord3 ∧ (resume 0).jam.mainResume = 0
      ∧ (resume 0x00100280).jam.mainResume ≠ 0 ∧ (resume 0x00100280).orderAddrOk 0x00100280 = true
      ∧ (resume 4).orderAddrOk 4 = false)
    ∧ ((fetching .returnLink (.returning 0x00100500) running).fetch.read = some ⟨.returnLink, false⟩
      ∧ (fetching .continuation (.continuing 0x00100300 1) running).fetch.read = some ⟨.continuation, false⟩)
    ∧ (recordInWindow running.ctl.area running.mem.windowLength 0x00100280 64 = true
      ∧ recordInWindow running.ctl.area running.mem.windowLength 4 64 = false) := by decide
theorem test_witness_CallEntersItsSequence_awaited :
    let c := entry 0 .call callWords .fetched
    let a (stack : List Frame) (queue : List Write) : State :=
      let s := fetching .order (.awaitingHead 0 0x00100500) running
      { s with
        fetch := { s.fetch with window := [c], stack := stack, nextId := 1 }
        mem := { s.mem with queue := queue } }
    let full := List.replicate 16 (writeOf .plain)
    ((a [] []).mem.bus = readOf (.fetch .order) ∧ (a [] []).fetch.read = some ⟨.order, false⟩
      ∧ (a [] []).fetch.pos = .awaitingHead 0 0x00100500 ∧ (a [] []).findEntry 0 = some c)
    ∧ ((a [] []).fetch.stack = [] ∧ (a [⟨0x00100700, 0⟩] []).fetch.stack ≠ [] ∧ kindOf loopSheet.kind ≠ .head
      ∧ kindOf (orderOf 5 0 0).kind = .head ∧ (a [] full).queueHasRoom = false) := by decide
theorem test_witness_WriteCompletes_held :
    let w := writeOf .plain
    let h (cls : Nat) : HeldWrite := ⟨{ w with cls := cls }, .retire⟩
    let s (n : Nat) : State := { writing .plain with
      mem := { (writing .plain).mem with queue := List.replicate n w, held := [h 5, h 2, h 2] } }
    (s 16).mem.bus = some ⟨.write w, false⟩ ∧ (s 16).mem.held = [h 5] ++ h 2 :: [h 2]
      ∧ (∀ y ∈ [h 5], (h 2).w.cls < y.w.cls) ∧ (∀ y ∈ [h 2], (h 2).w.cls ≤ y.w.cls)
      ∧ (s 16).mem.queue.tail.length < 16 ∧ 16 ≤ (s 17).mem.queue.tail.length := by decide
theorem test_witness_BusGrants_reads :
    let r (t : Nat) : ReadReq := ⟨.invReady t, [0x00100300]⟩
    let s : State := { running with mem := { running.mem with
      waiting := [⟨.fetch .order, [0x00100400]⟩, r 3, r 2] } }
    s.nextAccess = some (.read (r 3)) ∧ s.mem.bus = none := by decide
theorem test_witness_HaltAndEntryToHalted_draining :
    (tracked .fus 0).track.sheets ≠ [] ∧ running.track.sheets = [] := by decide

/-! ## The clauses on STANDBY, held steps, registered compares, start addresses and the sections left running -/

/-- RUNNING at the run-out limit with an empty path: STANDBY is entered. -/
def atLimit : State := { running with launch := { running.launch with emptyCount := running.runOutLimit } }
theorem test_witness_StandbyEntryAndWake_down :
    atLimit.ctl.state = .running ∧ atLimit.launch.emptyCount = atLimit.runOutLimit ∧ atLimit.track.sheets = [] := by
  decide +kernel
/-- In STANDBY an edge at a bin is not handed on (R126), and one in UP is an UNEXPECTED primary jam (R141). -/
theorem test_edges_in_standby :
    nextHas (exec (.leadingEdge .prg) atLimit.considerStandby) (fun t => t.ctl.state == .standby) = true
      ∧ nextHas (exec (.leadingEdge .reg) atLimit.considerStandby)
        (fun t => t.jam.primary.map (·.cause) == some .unexpected) = true := by decide +kernel
/-- RUNNING with a full write queue. -/
def queueFull (s : State) : State := { s with mem := { s.mem with queue := List.replicate 16 (writeOf .plain) } }
theorem test_witness_WriteCompletes_steps :
    running.fetch.window.length < 64 ∧ running.fetch.stack.length < 4 ∧ running.queueHasRoom = true
      ∧ (queueFull running).queueHasRoom = false := by decide
theorem test_held_head_enters :
    let h : HeldWrite := ⟨⟨5, 0x00100510, 0x00100300, .plain⟩, .enterSequence 0 0x00100500 (orderOf 5 0x00100540 0)⟩
    let s := queueFull running
    nextHas (exec .writeComplete { s with mem := { s.mem with
        held := [h], bus := some ⟨.write (writeOf .plain), false⟩ } })
      (fun t => t.fetch.stack == [⟨0x00100500, 0⟩] && t.fetch.pos == .next 0x00100540 && t.mem.held == []) = true := by
  decide +kernel
theorem test_witness_OrdersTakenAtTheFront_books :
    let e := { entry 0 .nop loopSheet .passed with draft := some ⟨.passed, none⟩ }
    let s : State := { running with fetch := { running.fetch with window := [e] } }
    s.retireMove.isSome = true ∧ running.retireMove = none ∧ running.fetch.window = []
      ∧ s.retireAll.fetch.window = [] ∧ s.retireAll.retire.retired = 1 := by decide +kernel
theorem test_witness_EncoderStepCounts_compares :
    let c : Compare := ⟨.late 0, .up, 100000, some ⟨100000, 500, 700⟩, true⟩
    let held : Compare := ⟨.boundary, .up, 104800, none, false⟩
    let s : State := { tracked .fus 0 with transport := { running.transport with compares := [held, c] } }
    s.transport.compares = [held] ++ c :: [] ∧ held.atOnce = false ∧ c.atOnce = true
      ∧ c.event = some ⟨100000, 500, 700⟩ ∧ running.transport.compares = []
      ∧ s.transport.compares.find? (fun y => y.event.isSome && s.isLateAt .fus y.owner) = some c
      ∧ s.findSheet 0 = some (sheetDueAt .fus 0) ∧ (sheetDueAt .fus 0).next = some .fus
      ∧ (reached (.pick 0) .up 5 ready).transport.compares.any (fun y => y.event.isSome && State.isPick y.owner) = true
      ∧ (reached .boundary .up 5 ready).transport.compares.any (fun y => y.event.isSome && y.owner == .boundary) = true
      ∧ (reached (.stuck 0 .reg) .up 5 ready).transport.compares.any
          (fun y => y.event.isSome && State.isStuckAt .reg y.owner) = true := by decide +kernel
theorem test_registered_compare :
    ((running.registerCompare .boundary .up 100000).transport.compares.map fun c => (c.event.isSome, c.atOnce))
        = [(true, true)]
      ∧ ((running.registerCompare .boundary .up 100001).transport.compares.map fun c => (c.event.isSome, c.atOnce))
        = [(false, false)] := by decide +kernel
theorem test_witness_AreaHoldsAWordAddress_uses :
    ready.ctl.cmd = none ∧ ready.ctl.state = .ready ∧ ready.allClear ∧ ready.mail.purgeFull = false
      ∧ (reading .windowLength (commandIn 1 .loadLength ready)).mem.bus = readOf .windowLength
      ∧ (commandIn 2 .runLength running).ctl.cmd = some ⟨2, .runLength⟩
      ∧ ((halted true).ctl.cmd = none ∧ (halted true).ctl.state = .halted ∧ (halted true).jam.recoveryPending = true
        ∧ (halted true).mail.purgeFull = false ∧ (halted true).jam.recoveryResume = 0)
      ∧ ready.queueHasRoom = true ∧ jammedDone.stopRecordWrites.length = 16
      ∧ ((List.replicate 24 (⟨0x00100300, 77, 0, some .reg⟩ : Stranded)).length ≤ 24
        ∧ (List.replicate 32 (77 : Word)).length ≤ 32) :=
  ⟨rfl, rfl, reset_allClear _ rfl, rfl, rfl, rfl, ⟨rfl, rfl, rfl, rfl, rfl⟩, rfl, by decide, by decide⟩
theorem test_witness_DiscardedAndStartAddressReads_faults :
    let resume (a : Word) : State := reading .recoveryHead { running with jam := { running.jam with mainResume := a } }
    (reading .mainHead running).mem.bus = readOf .mainHead ∧ (resume 0).mem.bus = readOf .recoveryHead
      ∧ (resume 0).ctl.state = .running ∧ recordInWindow running.ctl.area running.mem.windowLength 4 64 = false
      ∧ (resume 0).jam.mainResume = 0 ∧ (resume 4).jam.mainResume ≠ 0 ∧ (resume 4).orderAddrOk 4 = false
      ∧ (resume 0x00100280).orderAddrOk 0x00100280 = true := by decide
theorem test_witness_RestartsAccepted_faults :
    let s : State := { halted true with jam := { (halted true).jam with mainResume := 4, recoveryResume := 8 } }
    s.ctl.cmd = none ∧ s.ctl.state = .halted ∧ s.mail.purgeFull = false ∧ s.jam.recoveryPending = true
      ∧ s.jam.mainResume ≠ 0 ∧ s.orderAddrOk s.jam.mainResume = false ∧ s.jam.recoveryResume ≠ 0
      ∧ s.orderAddrOk s.jam.recoveryResume = false := by decide
theorem test_witness_PrimaryJam_left_running :
    let r : Report := ⟨.early, .checkpoint .reg, some 1, perSection 0⟩
    let s := tracked .mrk 0
    r.place.sections.down = false ∧ s.ctl.state = .running ∧ s.transport.state = .atSpeed ∧ s.transport.run.down = true
      ∧ s.queueHasRoom = true ∧ (s.report r).ctl.state = .stopping ∧ (queueFull s).queueHasRoom = false
      ∧ ((queueFull s).report r).mem.held = [⟨⟨2, 0x0010027C, 0, .plain⟩, .endOfDrain⟩] := by decide +kernel

end Sys2Proof.Tests
end

section
/-! PROOFS. Position arithmetic (O27), section counts (O28) and sensor levels (O29). -/

namespace Sys2Proof.Machine

/-! ## Positions (R4) -/

theorem posAdd_toNat (a : Pos) (d : Nat) : (posAdd a d).toNat = (a.toNat + d) % 16777216 := by
  simp [posAdd, BitVec.toNat_add]

theorem posSub_toNat (a : Pos) (d : Nat) :
    ((posSub a d).toNat : Int) = ((a.toNat : Int) - (d : Int)) % 16777216 := by
  have ha := a.isLt
  simp only [posSub, BitVec.toNat_sub, BitVec.toNat_ofNat]
  omega

theorem posLength_eq (a b : Pos) : posLength a b = (a.toNat + 16777216 - b.toNat) % 16777216 := by
  have hb := b.isLt
  simp only [posLength, BitVec.toNat_sub]
  omega

/-- The signed difference is the length, with 2^24 taken off from 2^23 on. -/
theorem posDiff_eq_posLength (a b : Pos) :
    posDiff a b = if 8388608 ≤ posLength a b then (posLength a b : Int) - 16777216 else posLength a b := by
  have hint := BitVec.toInt_eq_toNat_cond (a - b)
  simp only [posDiff, posLength]
  omega

theorem posDiff_bounds (a b : Pos) : -8388608 ≤ posDiff a b ∧ posDiff a b ≤ 8388607 := by
  have hlt : posLength a b < 16777216 := (a - b).isLt
  rw [posDiff_eq_posLength]
  split <;> omega

theorem posDiff_eq_zero_iff (a b : Pos) : posDiff a b = 0 ↔ a = b := by
  have ha := a.isLt
  have hb := b.isLt
  rw [posDiff_eq_posLength, posLength_eq, ← BitVec.toNat_inj]
  split <;> omega

theorem classify_eq_onTime_iff (due : Due) (capture : Pos) (tol : Nat) :
    State.classify due capture tol = .onTime ↔
      0 ≤ posDiff capture due.early ∧ posDiff capture due.expected ≤ tol := by
  unfold State.classify
  split
  case isTrue hearly => exact ⟨(fun h => nomatch h), fun h => absurd hearly (Int.not_lt.mpr h.1)⟩
  case isFalse hearly =>
    split
    case isTrue htol => exact ⟨fun _ => ⟨Int.not_lt.mp hearly, htol⟩, fun _ => rfl⟩
    case isFalse htol => exact ⟨(fun h => nomatch h), fun h => absurd h.2 htol⟩

/-- Settles O27: each part of the arithmetic is a lemma of its own above. -/
theorem positionArithmetic : Obligations.PositionArithmetic := by
  intro a b d
  have hdiff := posDiff_eq_posLength a b
  rw [posLength_eq] at hdiff
  exact ⟨posAdd_toNat a d, posSub_toNat a d, hdiff, (posDiff_bounds a b).1, (posDiff_bounds a b).2,
    posDiff_eq_zero_iff a b, rfl, posLength_eq a b, fun due => classify_eq_onTime_iff due a⟩

/-! ## Counts and levels through the shared forms of the commands -/

open State

/-- The section counts and the sensor levels of two states are the same. -/
def SameInputs (s t : State) : Prop :=
  t.transport.count = s.transport.count ∧ t.transport.sensors = s.transport.sensors

theorem SameInputs.of_transport {s t : State} (h : t.transport = s.transport) : SameInputs s t :=
  ⟨congrArg Transport.count h, congrArg Transport.sensors h⟩

theorem SameInputs.refl (s : State) : SameInputs s s := ⟨rfl, rfl⟩

theorem SameInputs.trans {s t u : State} (hst : SameInputs s t) (htu : SameInputs t u) : SameInputs s u :=
  ⟨htu.1.trans hst.1, htu.2.trans hst.2⟩

theorem SameInputs.ite {s t u : State} {p : Prop} [Decidable p] (ht : SameInputs s t) (hu : SameInputs s u) :
    SameInputs s (if p then t else u) := by
  split <;> assumption

/-- An update of the part that leaves the section counts and the sensor levels as they are. -/
def KeepsInputs (f : State → State) : Prop := ∀ s, SameInputs s (f s)

theorem keepsInputs_finish : KeepsInputs finish := fun s => by simp [SameInputs]

theorem KeepsInputs.then_finish {f : State → State} (hf : KeepsInputs f) : KeepsInputs fun s => (f s).finish :=
  fun s => (hf s).trans (keepsInputs_finish _)

/-- What a command answers, compared with the state in which nothing is given out yet. -/
theorem SameInputs.of_next {s t u : State} (h : (.next u : Host.Outcome State Fault Refusal) = .next t)
    (hu : SameInputs s.fresh u) : SameInputs s t := by
  rw [Host.Outcome.next.injEq] at h
  exact h ▸ hu

/-- A command of the host, taken or answered by an overrun. -/
theorem KeepsInputs.of_command {code : Word} {take : State → State} {s t : State} (htake : KeepsInputs take)
    (h : command code take s = .next t) : SameInputs s t :=
  .of_next h (.ite (.of_transport (by simp)) (htake.then_finish _))

/-- The completion of a read keeps what the use of its value keeps, whether the read is in progress, cut off or absent. -/
theorem KeepsInputs.completeRead {use : State → State} (huse : KeepsInputs use) (p : Purpose) :
    KeepsInputs (completeRead p use) := fun s => by
  have hfree : SameInputs s s.freeBus := .of_transport (by simp)
  exact .ite (hfree.trans (huse.then_finish _)) (.ite (hfree.trans (keepsInputs_finish _)) (.refl s))

theorem KeepsInputs.useFetchRead {use : State → State} (huse : KeepsInputs use) (k : FetchRead) :
    KeepsInputs (useFetchRead k use) := fun s => by
  have hend : SameInputs s s.endRead := .of_transport (by simp)
  exact .ite (hend.trans (huse _)) hend

theorem KeepsInputs.completeFetchRead {use : State → State} (huse : KeepsInputs use) (k : FetchRead) :
    KeepsInputs (completeFetchRead k use) :=
  (huse.useFetchRead k).completeRead _

theorem keepsInputs_takeReached (p : CompareOwner → Bool) : KeepsInputs (takeReached p) := fun s => by
  unfold takeReached
  split
  · split <;> simp [SameInputs]
  · exact .refl s

/-- No command but the reset line, an encoder step and the two edges touches a section count or a sensor level. -/
theorem exec_sameInputs {c : Instr} {s t : State} (hreset : ∀ l y, c ≠ .resetLine l y)
    (hstep : ∀ x, c ≠ .encoderStep x) (hlead : ∀ x, c ≠ .leadingEdge x) (htrail : ∀ x, c ≠ .trailingEdge x)
    (h : exec c s = .next t) : SameInputs s t := by
  cases c with
  | resetLine l y => exact absurd rfl (hreset l y)
  | encoderStep x => exact absurd rfl (hstep x)
  | leadingEdge x => exact absurd rfl (hlead x)
  | trailingEdge x => exact absurd rfl (htrail x)
  | pitchBoundary | pick | lateDeadline | stuckDeadline =>
    exact .of_next h ((keepsInputs_takeReached _ _).trans (keepsInputs_finish _))
  | sample | runupTimeout | transferDone | transferFault | markValue | markNoRead | unloadEvent | trayEmptyInput
  | writeComplete | attnRead | amaskWrite =>
    exact .of_next h (by simp [SameInputs])
  | refillEvent | areaWrite | overrun => exact .of_next h (.ite (by simp [SameInputs]) (.refl _))
  | ignoredRegisterWrite => exact .of_next h (.refl _)
  | orderFetchComplete w =>
    have huse : KeepsInputs (useFetchRead .order (takeFetched w)) :=
      KeepsInputs.useFetchRead (fun u => by simp [SameInputs]) _
    exact .of_next h (KeepsInputs.completeRead (fun u => (huse u).trans (.of_transport (by simp))) _ _)
  | tailReread | chainFaultReread | returnLinkRead | continuationRead =>
    exact .of_next h (KeepsInputs.completeFetchRead (fun u => by simp [SameInputs]) _ _)
  | candidateReadyWordRead | windowLengthRead | configAddressRead | configBlockRead | mainHeadRead
  | recoveryHeadRead =>
    exact .of_next h (KeepsInputs.completeRead (fun u => by simp [SameInputs]) _ _)
  | invReadyWordRead v =>
    refine .of_next h ?_
    dsimp only
    split
    · simp [SameInputs]
    · exact .ite (by simp [SameInputs]) (.refl _)
  | loadConfig | run | halt | resume | recover | extend | pathReset =>
    exact KeepsInputs.of_command (fun u => by simp [SameInputs]) h
  | unknownCommand code =>
    simp only [exec, execUnknownCommand] at h
    split at h
    · cases h
    · exact KeepsInputs.of_command (fun u => by simp [SameInputs]) h

/-! ## The edges and the reset line -/

@[simp] theorem setSensor_sensors (c : Checkpoint) (covered : Bool) (s : State) :
    (s.setSensor c covered).transport.sensors = s.transport.sensors.set c covered := rfl

/-- A leading edge at a clear sensor covers it, in a TRACKING section and in a HALTED one. -/
theorem leadingEdge_sensors {c : Checkpoint} {s : State} (hclear : s.transport.sensors.get c = false) :
    (s.leadingEdge c).transport.sensors = s.transport.sensors.set c true := by
  simp only [leadingEdge, hclear, Bool.false_eq_true, if_false]
  split <;> simp

theorem trailingEdge_sensors {c : Checkpoint} {s : State} (hcovered : s.transport.sensors.get c = true) :
    (s.trailingEdge c).transport.sensors = s.transport.sensors.set c false := by
  simp only [trailingEdge, hcovered, if_true]
  split <;> simp

theorem exec_leadingEdge_eq (c : Checkpoint) (s : State) :
    exec (.leadingEdge c) s = .next (s.fresh.leadingEdge c).finish := rfl

theorem exec_trailingEdge_eq (c : Checkpoint) (s : State) :
    exec (.trailingEdge c) s = .next (s.fresh.trailingEdge c).finish := rfl

theorem exec_encoderStep_eq (x : Section) (s : State) :
    exec (.encoderStep x) s = .next (s.fresh.stepCounter x) := rfl

theorem exec_resetLine_eq (l : PerCheckpoint Bool) (y : PerTray Bool) (s : State) :
    exec (.resetLine l y) s = .next (s.fresh.resetPart l y) := rfl

/-- Settles O28: the edges keep the counts by their frame lemmas, every other command by `exec_sameInputs`. -/
theorem countsMoveOnlyBySteps : Obligations.CountsMoveOnlyBySteps := by
  refine ⟨fun c s t hstep hreset h => ?_, fun l y s => ⟨_, exec_resetLine_eq l y s, rfl⟩, fun s => ?_⟩
  · by_cases hedge : (∃ x, c = .leadingEdge x) ∨ ∃ x, c = .trailingEdge x
    · obtain ⟨x, rfl⟩ | ⟨x, rfl⟩ := hedge
      · rw [exec_leadingEdge_eq, Host.Outcome.next.injEq] at h
        simp [← h]
      · rw [exec_trailingEdge_eq, Host.Outcome.next.injEq] at h
        simp [← h]
    · obtain ⟨hlead, htrail⟩ := not_or.mp hedge
      exact (exec_sameInputs hreset hstep (not_exists.mp hlead) (not_exists.mp htrail) h).1
  · simp [startClock]

/-- Settles O29: the edges by what they do to the level, every other command by `exec_sameInputs`. -/
theorem edgesRecordLevels : Obligations.EdgesRecordLevels := by
  refine ⟨fun c s hclear => ⟨_, exec_leadingEdge_eq c s, ?_⟩,
    fun c s hcovered => ⟨_, exec_trailingEdge_eq c s, ?_⟩,
    fun l y s => ⟨_, exec_resetLine_eq l y s, rfl⟩, fun c s t h hlead htrail hreset => ?_⟩
  · simp [leadingEdge_sensors (s := s.fresh) hclear]
  · simp [trailingEdge_sensors (s := s.fresh) hcovered]
  · by_cases hstep : ∃ x, c = .encoderStep x
    · obtain ⟨x, rfl⟩ := hstep
      rw [exec_encoderStep_eq, Host.Outcome.next.injEq] at h
      simp [← h]
    · exact (exec_sameInputs hreset (not_exists.mp hstep) hlead htrail h).2

end Sys2Proof.Machine
end

section
/-! PROOFS. Diverter D1 (O34). -/

namespace Sys2Proof.Machine

open State

/-! ## D1 at a leading edge (R98, R99, R111) -/

theorem towardInv_iff (x : Sheet) : towardInv x = true ↔ x.mode = .loop ∧ x.pass2 = false := by
  simp [towardInv]

theorem workAtFus_d1 (x : Sheet) (s : State) :
    (s.workAtFus x).track.d1 = if towardInv x then .towardInv else .towardMrk := rfl

/-- FUS is the one checkpoint whose work sets D1. -/
theorem checkpointWork_d1 {c : Checkpoint} (hc : c ≠ .fus) (x : Sheet) (s : State) :
    (s.checkpointWork c x).track.d1 = s.track.d1 := by
  cases c with
  | fus => exact absurd rfl hc
  | mrg | reg | inv => simp [checkpointWork]
  | fd | rtn | mrk | stk | prg => rfl

/-- An on-time FUS arrival that is no third occupancy sets D1. -/
theorem onTime_fus_d1 {x : Sheet} (hocc : x.occ.length < 2) (k : Installed) (latch : PerSection Pos) (s : State) :
    (s.onTime k .fus x latch).track.d1 = if towardInv x then .towardInv else .towardMrk := by
  simp [onTime, Nat.not_le.mpr hocc, checkpointWork, workAtFus_d1]

theorem onTime_d1 {c : Checkpoint} (hc : c ≠ .fus) (k : Installed) (x : Sheet) (latch : PerSection Pos) (s : State) :
    (s.onTime k c x latch).track.d1 = s.track.d1 := by
  unfold onTime
  split
  · simp
  · simp [checkpointWork_d1 hc]

/-- A leading edge at a TRACKING section has the effect of an on-time arrival on D1, or none. -/
theorem matchLeading_d1 {c : Checkpoint} {latch : PerSection Pos} {s : State}
    (h : ∀ k x d, s.config = some k → s.queueHead c = some x → x.due = some d →
      classify d (latch.get c.sec) (k.block.lateTol.get c.sec) = .onTime →
      (s.onTime k c x latch).track.d1 = s.track.d1) :
    (s.matchLeading c latch).track.d1 = s.track.d1 := by
  unfold matchLeading
  split
  next k x hk hx =>
    split
    next d hd =>
      split
      next => simp
      next hon => exact h k x d hk hx hd hon
      next => simp
    next => simp
  next => simp

theorem matchLeading_onTime {c : Checkpoint} {latch : PerSection Pos} {s : State} {k : Installed} {x : Sheet} {d : Due}
    (hk : s.config = some k) (hx : s.queueHead c = some x) (hd : x.due = some d)
    (hon : classify d (latch.get c.sec) (k.block.lateTol.get c.sec) = .onTime) :
    s.matchLeading c latch = s.onTime k c x latch := by
  simp only [matchLeading, hk, hx, hd, hon]

theorem leadingEdge_d1 {c : Checkpoint} {s : State}
    (h : ((s.setSensor c true).matchLeading c s.transport.count).track.d1 = s.track.d1) :
    (s.leadingEdge c).track.d1 = s.track.d1 := by
  unfold leadingEdge
  split
  · rfl
  · dsimp only
    split
    · exact h
    · simp

/-! ## D1 through the shared forms of the commands -/

/-- An update of the part that leaves D1 as it stands. -/
def KeepsD1 (f : State → State) : Prop := ∀ s, (f s).track.d1 = s.track.d1

theorem KeepsD1.then_finish {f : State → State} (hf : KeepsD1 f) : KeepsD1 fun s => (f s).finish := fun s => by
  simp [hf s]

/-- What a command answers, compared with the state in which nothing is given out yet. -/
theorem d1_of_next {s t u : State} (h : (.next u : Host.Outcome State Fault Refusal) = .next t)
    (hu : u.track.d1 = s.fresh.track.d1) : t.track.d1 = s.track.d1 := by
  rw [Host.Outcome.next.injEq] at h
  rw [← h, hu]
  simp

/-- A command of the host, taken or answered by an overrun. -/
theorem d1_of_command {code : Word} {take : State → State} {s t : State} (h : command code take s = .next t)
    (htake : KeepsD1 take) : t.track.d1 = s.track.d1 := by
  refine d1_of_next h ?_
  dsimp only
  split
  · simp
  · exact htake.then_finish s.fresh

theorem KeepsD1.completeRead {use : State → State} (huse : KeepsD1 use) (p : Purpose) :
    KeepsD1 (completeRead p use) := fun s => by
  unfold State.completeRead
  split
  · simp [huse s.freeBus]
  · split <;> simp

theorem KeepsD1.useFetchRead {use : State → State} (huse : KeepsD1 use) (k : FetchRead) :
    KeepsD1 (useFetchRead k use) := fun s => by
  unfold State.useFetchRead
  split
  · simp [huse s.endRead]
  · simp

theorem KeepsD1.completeFetchRead {use : State → State} (huse : KeepsD1 use) (k : FetchRead) :
    KeepsD1 (completeFetchRead k use) :=
  (huse.useFetchRead k).completeRead _

theorem keepsD1_takeReached (p : CompareOwner → Bool) : KeepsD1 (takeReached p) := fun s => by
  unfold takeReached
  split
  · split <;> simp
  · rfl

/-- No command but the reset line and a leading edge at FUS moves D1. -/
theorem exec_d1 {c : Instr} {s t : State} (h : exec c s = .next t) (hfus : c ≠ .leadingEdge .fus)
    (hreset : ∀ l y, c ≠ .resetLine l y) : t.track.d1 = s.track.d1 := by
  cases c with
  | resetLine l y => exact absurd rfl (hreset l y)
  | leadingEdge c =>
    have hc : c ≠ .fus := fun e => hfus (e ▸ rfl)
    have hedge : KeepsD1 (leadingEdge c) := fun u => leadingEdge_d1 <| by
      rw [matchLeading_d1 fun k x d _ _ _ _ => onTime_d1 hc k x _ _]
      simp
    exact d1_of_next h (hedge.then_finish _)
  | pitchBoundary | pick | lateDeadline | stuckDeadline =>
    exact d1_of_next h ((keepsD1_takeReached _).then_finish _)
  | encoderStep | trailingEdge | sample | runupTimeout | transferDone | transferFault | markValue | markNoRead
  | unloadEvent | trayEmptyInput | writeComplete | attnRead | amaskWrite =>
    exact d1_of_next h (by simp)
  | refillEvent | areaWrite | overrun => exact d1_of_next h (by dsimp only; split <;> simp)
  | ignoredRegisterWrite => exact d1_of_next h rfl
  | orderFetchComplete w =>
    have huse : KeepsD1 (useFetchRead .order (takeFetched w)) := KeepsD1.useFetchRead (fun u => by simp) _
    exact d1_of_next h (KeepsD1.completeRead (fun u => by simp [huse u]) _ _)
  | tailReread | chainFaultReread | returnLinkRead | continuationRead =>
    exact d1_of_next h (KeepsD1.completeFetchRead (fun u => by simp) _ _)
  | candidateReadyWordRead | windowLengthRead | configAddressRead | configBlockRead | mainHeadRead
  | recoveryHeadRead =>
    exact d1_of_next h (KeepsD1.completeRead (fun u => by simp) _ _)
  | invReadyWordRead v =>
    refine d1_of_next h ?_
    dsimp only
    split
    · simp
    · split <;> simp
  | loadConfig | run | halt | resume | recover | extend | pathReset => exact d1_of_command h fun u => by simp
  | unknownCommand code =>
    simp only [exec, execUnknownCommand] at h
    split at h
    · cases h
    · exact d1_of_command h fun u => by simp

/-! ## The statement -/

/-- With UP TRACKING, a FUS leading edge on time for the head of the queue sets D1 by the sheet's mode and pass. -/
theorem leadingEdge_fus_sets_d1 {k : Installed} {x : Sheet} {d : Due} {s : State} (hk : s.config = some k)
    (hclear : s.transport.sensors.get .fus = false) (hup : s.track.tracking.up = true)
    (hx : s.queueHead .fus = some x) (hd : x.due = some d)
    (hon : classify d s.transport.count.up k.block.lateTol.up = .onTime) (hocc : x.occ.length < 2) :
    (s.fresh.leadingEdge .fus).finish.track.d1
      = if x.mode = .loop ∧ x.pass2 = false then .towardInv else .towardMrk := by
  have hmatch : (s.fresh.setSensor .fus true).matchLeading .fus s.transport.count
      = (s.fresh.setSensor .fus true).onTime k .fus x s.transport.count := matchLeading_onTime hk hx hd hon
  calc (s.fresh.leadingEdge .fus).finish.track.d1
      = (s.fresh.leadingEdge .fus).track.d1 := by simp
    _ = if towardInv x then .towardInv else .towardMrk := by
      rw [leadingEdge_tracking hclear hup, hmatch, onTime_fus_d1 hocc]
    _ = if x.mode = .loop ∧ x.pass2 = false then .towardInv else .towardMrk := by simp only [towardInv_iff]

/-- A FUS leading edge that is on time for no sheet leaves D1 as it stands. -/
theorem leadingEdge_fus_keeps_d1 {s : State}
    (hoff : ∀ k x d, s.config = some k → s.queueHead .fus = some x → x.due = some d →
      classify d s.transport.count.up k.block.lateTol.up ≠ .onTime) :
    (s.fresh.leadingEdge .fus).finish.track.d1 = s.track.d1 := by
  have hmatch : ((s.fresh.setSensor .fus true).matchLeading .fus s.transport.count).track.d1 = s.track.d1 :=
    matchLeading_d1 (s := s.fresh.setSensor .fus true) fun k x d hk hx hd hon => absurd hon (hoff k x d hk hx hd)
  simpa using leadingEdge_d1 (s := s.fresh) hmatch

/-- Settles O34: a FUS edge by its classification, the reset line by its state, every other command by `exec_d1`. -/
theorem diverterD1 : Obligations.DiverterD1 := by
  refine ⟨fun k x d s hk hclear hup hx hd hearly hlate hocc => ⟨_, exec_leadingEdge_eq .fus s, ?_⟩,
    fun s t h hoff => ?_, fun l y s => ⟨_, exec_resetLine_eq l y s, rfl⟩, fun c s t h => exec_d1 h⟩
  · exact leadingEdge_fus_sets_d1 hk hclear hup hx hd ((classify_eq_onTime_iff _ _ _).mpr ⟨hearly, hlate⟩) hocc
  · rw [exec_leadingEdge_eq, Host.Outcome.next.injEq] at h
    rw [← h]
    refine leadingEdge_fus_keeps_d1 fun k x d hk hx hd hon => ?_
    obtain ⟨hearly, hlate⟩ := (classify_eq_onTime_iff _ _ _).mp hon
    obtain hnone | ⟨x', d', hx', hd', hout⟩ := hoff
    · simp [hnone] at hx
    · obtain rfl : x' = x := Option.some.inj (hx'.symm.trans hx)
      obtain rfl : d' = d := Option.some.inj (hd'.symm.trans hd)
      obtain hbefore | ⟨k', hk', hafter⟩ := hout
      · omega
      · obtain rfl : k' = k := Option.some.inj (hk'.symm.trans hk)
        omega

end Sys2Proof.Machine
end

section
/-! PROOFS. Mark results and the masked compare (O36). -/

namespace Sys2Proof.Machine

open State

/-! ## Whose a mark result is (R114) -/

theorem exec_markValue_eq (v : Word) (s : State) :
    exec (.markValue v) s = .next (s.fresh.attributeMark (.value v)) := rfl

theorem exec_markNoRead_eq (s : State) : exec .markNoRead s = .next (s.fresh.attributeMark .noRead) := rfl

theorem occupant_fresh (s : State) (c : Checkpoint) : s.fresh.occupant c = s.occupant c := rfl

theorem attributeMark_of_empty {s : State} {x : Sheet} {o : Occupancy} (hx : s.occupant .mrk = some (x, o))
    (hempty : x.mark = .empty) (r : MarkResult) :
    s.attributeMark r = s.updSheet x.id fun y => { y with mark := r } := by
  simp [attributeMark, hx, hempty]

/-- A result without a sheet at MRK that waits for one leaves no trace. -/
theorem attributeMark_eq_self {s : State} (h : ∀ x o, s.occupant .mrk = some (x, o) → x.mark ≠ .empty)
    (r : MarkResult) : s.attributeMark r = s := by
  unfold attributeMark
  split
  case h_1 => rfl
  case h_2 x o hx => exact if_neg (h x o hx)

/-! ## The expected mark and the masked compare (R116) -/

theorem expectedMark_toNat (m : Mailpiece) (x : Sheet) :
    (expectedMark m x).toNat = (m.markBase.toNat + x.index) % 4294967296 := by
  simp [expectedMark, BitVec.toNat_add]

/-- A bit of the difference under the mask is set where the mask holds 1 and the two words disagree. -/
theorem xor_and_eq_zero_iff {w : Nat} (v e mask : BitVec w) :
    (v ^^^ e) &&& mask = 0#w ↔ ∀ i, i < w → mask.getLsbD i = true → v.getLsbD i = e.getLsbD i := by
  have hbit (i : Nat) : ((v ^^^ e) &&& mask).getLsbD i = (0#w).getLsbD i ↔
      (mask.getLsbD i = true → v.getLsbD i = e.getLsbD i) := by
    rw [BitVec.getLsbD_and, BitVec.getLsbD_xor, BitVec.getLsbD_zero]
    cases mask.getLsbD i <;> simp
  constructor
  · exact fun h i _ => (hbit i).mp (congrArg (BitVec.getLsbD · i) h)
  · exact fun h => BitVec.eq_of_getLsbD_eq fun i hi => (hbit i).mpr (h i hi)

theorem markMatches_iff (m : Mailpiece) (x : Sheet) (v : Word) :
    markMatches m x v = true ↔
      ∀ i, i < 32 → m.markMask.getLsbD i = true → v.getLsbD i = (expectedMark m x).getLsbD i := by
  rw [markMatches, beq_iff_eq]
  exact xor_and_eq_zero_iff v (expectedMark m x) m.markMask

/-- Under a mask of ones every bit is compared. -/
theorem markMatches_allOnes {m : Mailpiece} (hmask : m.markMask = 0xFFFFFFFF) (x : Sheet) (v : Word) :
    markMatches m x v = true ↔ v = expectedMark m x := by
  have hones : m.markMask = BitVec.allOnes 32 := hmask
  rw [markMatches, hones, BitVec.and_allOnes, beq_iff_eq]
  exact BitVec.xor_eq_zero_iff

/-! ## The statement -/

/-- Settles O36: both results by whose they are, the compare bit by bit. -/
theorem markResultsAndCompare : Obligations.MarkResultsAndCompare := by
  refine ⟨fun v s => ⟨fun x o hx hempty => ?_, fun hnone => ?_⟩, fun m x v =>
    ⟨expectedMark_toNat m x, markMatches_iff m x v, fun hmask => markMatches_allOnes hmask x v⟩⟩
  · rw [← occupant_fresh] at hx
    rw [exec_markValue_eq, exec_markNoRead_eq, attributeMark_of_empty hx hempty, attributeMark_of_empty hx hempty]
    exact ⟨rfl, rfl⟩
  · have hfresh : ∀ x o, s.fresh.occupant .mrk = some (x, o) → x.mark ≠ .empty := by
      simpa only [occupant_fresh] using hnone
    rw [exec_markValue_eq, exec_markNoRead_eq, attributeMark_eq_self hfresh, attributeMark_eq_self hfresh]
    exact ⟨rfl, rfl⟩

end Sys2Proof.Machine
end

section
/-! PROOFS. PATH RESET (O17). -/

namespace Sys2Proof.Machine

open State

/-! ## Compares and tracking at the end of a path (R5, R97, R162) -/

/-- Every compare registered in the second state is registered in the first. -/
def ComparesWithin (s u : State) : Prop := ∀ k ∈ u.transport.compares, k ∈ s.transport.compares

theorem comparesWithin_of_eq {s u : State} (h : u.transport.compares = s.transport.compares) : ComparesWithin s u :=
  fun _ hk => h ▸ hk

theorem ComparesWithin.trans {s t u : State} (hst : ComparesWithin s t) (htu : ComparesWithin t u) :
    ComparesWithin s u :=
  fun k hk => hst k (htu k hk)

theorem mem_withdrawOwner {p : CompareOwner → Bool} {s : State} {k : Compare} :
    k ∈ (s.withdrawOwner p).transport.compares ↔ k ∈ s.transport.compares ∧ p k.owner = false := by
  simp

theorem comparesWithin_stopClock (s : State) : ComparesWithin s s.stopClock := fun _ hk =>
  (mem_withdrawOwner.mp hk).1

theorem comparesWithin_enterRunOut (s : State) : ComparesWithin s s.enterRunOut := by
  by_cases hspeed : s.transport.state = .atSpeed
  · simp only [enterRunOut, hspeed, if_true]
    exact comparesWithin_stopClock (s.onTransport fun u => { u with speedDeviation := false })
  · simp only [enterRunOut, hspeed, if_false]
    exact comparesWithin_of_eq rfl

theorem comparesWithin_runOutOrder (s : State) : ComparesWithin s s.runOutOrder := by
  unfold runOutOrder
  split
  · exact comparesWithin_of_eq rfl
  · exact comparesWithin_enterRunOut s
  · exact comparesWithin_enterRunOut s
  · exact comparesWithin_of_eq rfl

theorem comparesWithin_haltSections (named : PerSection Bool) (s : State) :
    ComparesWithin s (s.haltSections named) :=
  fun _ hk => (List.mem_filter.mp hk).1

theorem comparesWithin_enterHalted (s : State) : ComparesWithin s s.enterHalted := by
  have hhalted := comparesWithin_haltSections (perSection true) (s.setState .halted)
  exact (hhalted.trans (comparesWithin_runOutOrder _)).trans (comparesWithin_of_eq (by simp [enterHalted]))

theorem haltSections_all_tracking (s : State) :
    (s.haltSections (perSection true)).track.tracking = perSection false := by
  simp [haltSections, PerSection.of, PerSection.get, perSection]

theorem enterHalted_tracking (s : State) : s.enterHalted.track.tracking = perSection false := by
  simp [enterHalted, haltSections_all_tracking]

theorem enterHalted_state (s : State) : s.enterHalted.ctl.state = .halted := by
  simp [enterHalted, setState]

theorem setAttn_attnHas (f : AttnFlag) (s : State) : (s.setAttn f).attnHas f = true := by
  cases f <;> simp [setAttn, attnHas, AttnFlag.mask, AttnFlag.bit]

/-- A flag already set stays set (R170). -/
theorem setAttn_keeps_attnHas {f : AttnFlag} {s : State} (g : AttnFlag) (h : s.attnHas f = true) :
    (s.setAttn g).attnHas f = true := by
  simp only [attnHas] at h
  simp [setAttn, attnHas, h]

theorem enterHalted_attnHas (s : State) : s.enterHalted.attnHas .halted = true := setAttn_attnHas _ _

theorem endCommand_keeps_attnHas {f : AttnFlag} {s : State} (code : Word) (o : CommandOutcome)
    (h : s.attnHas f = true) : (s.endCommand code o).attnHas f = true :=
  setAttn_keeps_attnHas .command h

/-! ## The path cleared (R155) -/

/-- What PATH RESET clears of `s` and what it keeps of it, whether or not the entry to HALTED follows: the second state
has the path's blocks at rest, and its other blocks as the first has them. -/
structure PathCleared (s u : State) : Prop where
  sheets : u.track.sheets = []
  queues : ∀ c, u.track.queues.get c = []
  fifo : u.track.fifo = []
  tracking : u.track.tracking = perSection false
  d1 : u.track.d1 = s.track.d1
  launch : u.launch = { s.launch with schedule := [] }
  ring : u.clock.ring = []
  compares : ∀ k ∈ u.transport.compares, k ∈ s.transport.compares ∧ k.owner.isDeadline = false
    ∧ isPick k.owner = false
  config : u.config = s.config
  mail : u.mail = s.mail
  retire : u.retire = s.retire
  exit : u.exit = s.exit
  mem : u.mem = s.mem
  count : u.transport.count = s.transport.count

theorem perCheckpoint_get {α : Type} (a : α) (c : Checkpoint) : (perCheckpoint a).get c = a := by
  cases c with
  | fd t => cases t <;> rfl
  | stk b => cases b <;> rfl
  | mrg | reg | fus | inv | rtn | mrk | prg => rfl

theorem mem_clearPath_compares {s : State} {k : Compare} (h : k ∈ s.clearPath.transport.compares) :
    k ∈ s.transport.compares ∧ k.owner.isDeadline = false ∧ isPick k.owner = false := by
  have hwithdrawn := comparesWithin_haltSections (perSection true)
    ((s.onTrack fun u => { u with sheets := [], queues := perCheckpoint [], fifo := [] }).withdrawOwner
      fun o => o.isDeadline || isPick o) k h
  obtain ⟨hmem, howner⟩ := mem_withdrawOwner.mp hwithdrawn
  exact ⟨hmem, Bool.or_eq_false_iff.mp howner⟩

theorem pathCleared_clearPath (s : State) : PathCleared s s.clearPath where
  sheets := rfl
  queues := perCheckpoint_get []
  fifo := rfl
  tracking := haltSections_all_tracking _
  d1 := rfl
  launch := rfl
  ring := rfl
  compares _ hk := mem_clearPath_compares hk
  config := rfl
  mail := rfl
  retire := rfl
  exit := rfl
  mem := rfl
  count := rfl

theorem PathCleared.onJam {s u : State} (h : PathCleared s u) (f : Jam → Jam) : PathCleared s (u.onJam f) :=
  { h with }

theorem PathCleared.enterHalted {s u : State} (h : PathCleared s u) : PathCleared s u.enterHalted where
  sheets := by simp [h.sheets]
  queues := by simpa using h.queues
  fifo := by simp [h.fifo]
  tracking := enterHalted_tracking u
  d1 := by simp [h.d1]
  launch := by simp [h.launch]
  ring := by simp [h.ring]
  compares k hk := h.compares k (comparesWithin_enterHalted u k hk)
  config := by simp [h.config]
  mail := by simp [h.mail]
  retire := by simp [h.retire]
  exit := by simp [h.exit]
  mem := by simp [h.mem]
  count := by simp [h.count]

theorem PathCleared.endCommand {s u : State} (h : PathCleared s u) (code : Word) (o : CommandOutcome) :
    PathCleared s (u.endCommand code o) :=
  { h with }

/-! ## PATH RESET taken (R155, R156, R164) -/

/-- The states in which R164 lets PATH RESET pass the state check. -/
def PathResetAllowed (s : State) : Prop :=
  (s.ctl.state = .jammed ∧ s.jam.recordIssued = true) ∨ s.ctl.state = .halted

theorem pathResetRefusal_of_allowed {s : State} (h : PathResetAllowed s) :
    s.pathResetRefusal = if s.sensorsClear then none else some .pathNotClear := by
  have hstate : (s.ctl.state == .jammed && s.jam.recordIssued || s.ctl.state == .halted) = true := by
    simpa [PathResetAllowed] using h
  cases hclear : s.sensorsClear <;> simp [pathResetRefusal, hstate, hclear]

theorem pathResetRefusal_of_clear {s : State} (h : PathResetAllowed s) (hclear : s.allClear) :
    s.pathResetRefusal = none := by
  rw [pathResetRefusal_of_allowed h, if_pos (sensorsClear_iff s |>.mpr hclear)]

theorem pathResetRefusal_of_covered {s : State} (h : PathResetAllowed s) (hcovered : ¬s.allClear) :
    s.pathResetRefusal = some .pathNotClear := by
  rw [pathResetRefusal_of_allowed h, if_neg (mt (sensorsClear_iff s).mp hcovered)]

/-- The path cleared, with recovery pending set and HALTED entered from JAMMED (R155, R156). -/
def resetPath (s : State) : State :=
  if s.ctl.state = .jammed then (s.clearPath.onJam fun u => { u with recoveryPending := true }).enterHalted
  else s.clearPath

theorem takePathReset_of_none {s : State} (h : s.pathResetRefusal = none) :
    s.takePathReset = (resetPath s).endCommand 7 .accepted := by
  simp only [takePathReset, h, resetPath]

theorem takePathReset_of_some {s : State} {o : CommandOutcome} (h : s.pathResetRefusal = some o) :
    s.takePathReset = s.endCommand 7 o := by
  simp only [takePathReset, h]

theorem resetPath_of_jammed {s : State} (h : s.ctl.state = .jammed) :
    resetPath s = (s.clearPath.onJam fun u => { u with recoveryPending := true }).enterHalted := if_pos h

theorem resetPath_of_not_jammed {s : State} (h : s.ctl.state ≠ .jammed) : resetPath s = s.clearPath := if_neg h

theorem pathCleared_resetPath (s : State) : PathCleared s (resetPath s) := by
  by_cases hjam : s.ctl.state = .jammed
  · rw [resetPath_of_jammed hjam]
    exact ((pathCleared_clearPath s).onJam _).enterHalted
  · rw [resetPath_of_not_jammed hjam]
    exact pathCleared_clearPath s

theorem resetPath_state {s : State} (h : PathResetAllowed s) : (resetPath s).ctl.state = .halted := by
  obtain ⟨hjam, -⟩ | hhalted := h
  · rw [resetPath_of_jammed hjam]
    exact enterHalted_state _
  · rw [resetPath_of_not_jammed (by simp [hhalted])]
    simpa using hhalted

theorem resetPath_jam (s : State) : (resetPath s).jam =
    { s.jam with recoveryPending := s.jam.recoveryPending || s.ctl.state == .jammed } := by
  by_cases hjam : s.ctl.state = .jammed
  · simp [resetPath_of_jammed hjam, hjam]
  · have hpending : (s.jam.recoveryPending || s.ctl.state == .jammed) = s.jam.recoveryPending := by simp [hjam]
    rw [resetPath_of_not_jammed hjam, hpending]
    rfl

theorem resetPath_attnHas {s : State} (h : s.ctl.state = .jammed) : (resetPath s).attnHas .halted = true := by
  rw [resetPath_of_jammed h]
  exact enterHalted_attnHas _

theorem exec_pathReset_idle {s : State} (h : s.ctl.cmd = none) :
    exec .pathReset s = .next s.fresh.takePathReset.finish :=
  command_idle h 7 takePathReset

theorem exec_pathReset_of_clear {s : State} (hidle : s.ctl.cmd = none) (hallowed : PathResetAllowed s)
    (hclear : s.allClear) :
    exec .pathReset s = .next ((resetPath s.fresh).endCommand 7 .accepted).finish := by
  have hnone : s.fresh.pathResetRefusal = none := pathResetRefusal_of_clear hallowed hclear
  rw [exec_pathReset_idle hidle, takePathReset_of_none hnone]

theorem exec_pathReset_of_covered {s : State} (hidle : s.ctl.cmd = none) (hallowed : PathResetAllowed s)
    (hcovered : ¬s.allClear) : exec .pathReset s = .next (s.ended 7 .pathNotClear).finish := by
  have hsome : s.fresh.pathResetRefusal = some .pathNotClear := pathResetRefusal_of_covered hallowed hcovered
  rw [exec_pathReset_idle hidle, takePathReset_of_some hsome, ended_eq]

/-- Settles O17: the accepted command is `resetPath` with the command ended, the refused one ends alone. -/
theorem pathResetClearsThePath : Obligations.PathResetClearsThePath := by
  refine fun s hidle => ⟨fun hallowed hclear => ⟨_, exec_pathReset_of_clear hidle hallowed hclear, ?_⟩,
    exec_pathReset_of_covered hidle⟩
  have hpath := (pathCleared_resetPath s.fresh).endCommand 7 .accepted
  have hstate : (resetPath s.fresh).ctl.state = .halted := resetPath_state hallowed
  have hattn (hjam : s.ctl.state = .jammed) : ((resetPath s.fresh).endCommand 7 .accepted).attnHas .halted = true :=
    endCommand_keeps_attnHas 7 .accepted (resetPath_attnHas hjam)
  exact ⟨hpath.sheets, hpath.queues, hpath.fifo, hpath.tracking, hpath.d1, hpath.launch, hpath.ring,
    hpath.compares, hstate, resetPath_jam s.fresh, hattn, hpath.config, hpath.mail, hpath.retire, hpath.exit,
    hpath.mem, rfl, rfl, hpath.count⟩

end Sys2Proof.Machine
end

section
/-! PROOFS. The registers after the reset line and under the other commands (O4). -/

namespace Sys2Proof.Machine

open State

/-! ## The reset line (R55, R172) -/

theorem resetPart_attnHas (l : PerCheckpoint Bool) (y : PerTray Bool) (s : State) (f : AttnFlag) :
    (s.resetPart l y).attnHas f = false :=
  BitVec.getLsbD_zero

/-- With no flag set and none enabled, the attention line is not asserted (R171). -/
theorem resetPart_attentionLine (l : PerCheckpoint Bool) (y : PerTray Bool) (s : State) :
    (s.resetPart l y).attentionLine = false := by
  show State.reset.attentionLine = false
  decide

/-- Every field of STAT word 0 has the code 0 at reset (R174). -/
theorem resetPart_statWord0 (l : PerCheckpoint Bool) (y : PerTray Bool) (s : State) :
    (s.resetPart l y).statWord0 = 0 := by
  show State.reset.statWord0 = 0
  decide

/-- An access that the reset line finds on the bus runs on cut off, so it is no longer a read in progress. -/
theorem resetPart_readInProgress (l : PerCheckpoint Bool) (y : PerTray Bool) (s : State) :
    (s.resetPart l y).readInProgress = none := by
  cases hbus : s.mem.bus with
  | none => simp [readInProgress, resetPart, hbus]
  | some b => simp [readInProgress, resetPart, hbus]

/-! ## The front (R59, R75) -/

/-- An order taken at the front is an OPEN whose wait ends, or the front order dealt with. -/
theorem takeFront_cases {s t : State} (ht : s.takeFront = some t) :
    ∃ e, t = s.askWake.acceptOpen e ∨ t = s.askWake.handleFront e := by
  unfold takeFront at ht
  split at ht
  case isFalse => cases ht
  case isTrue =>
    split at ht
    · cases ht
    · grind

/-! ## A flag that is set stays set (R170)

Every flag is set by `setAttn`, which clears none. The lemmas follow the blocks' operations up to the end of an event;
an operation that sets no flag leaves ATTN as it is by its frame lemma. -/

/-- The flag is set, read at its bit of ATTN, where the frame lemmas of the operations apply. -/
@[simp] abbrev FlagOn (f : AttnFlag) (s : State) : Prop := s.ctl.attn.getLsbD f.bit = true

theorem attnHas_iff_flagOn (f : AttnFlag) (s : State) : s.attnHas f = true ↔ FlagOn f s := Iff.rfl

section
variable {f : AttnFlag}

@[simp] theorem FlagOn.ite {p : Prop} {_ : Decidable p} {t u : State} (ht : FlagOn f t) (hu : FlagOn f u) :
    FlagOn f (if p then t else u) := by
  split <;> assumption

theorem FlagOn.foldl {α : Type} {g : State → α → State} (hg : ∀ u a, FlagOn f u → FlagOn f (g u a)) (l : List α)
    {s : State} (h : FlagOn f s) : FlagOn f (l.foldl g s) := by
  induction l generalizing s with
  | nil => exact h
  | cons a l ih => exact ih (hg s a h)

variable {s : State} (h : FlagOn f s)
include h

/-- A write that finds no room is held without the steps after it, any other goes on with them. -/
@[simp] theorem flagOn_issueWrite (w : Write) (later : HeldSteps) {steps : State → State}
    (hsteps : ∀ u, FlagOn f u → FlagOn f (steps u)) : FlagOn f (s.issueWrite w later steps) :=
  .ite (hsteps _ h) h

/-! ### Control, the purge count and the transport (R13, R69, R160 to R162) -/

@[simp] theorem flagOn_setAttn (g : AttnFlag) : FlagOn f (s.setAttn g) := setAttn_keeps_attnHas g h

@[simp] theorem flagOn_reevaluatePurgeFull : FlagOn f s.reevaluatePurgeFull :=
  .ite (.ite (flagOn_setAttn h _) h) h

@[simp] theorem flagOn_reportPurged (m : Nat) : FlagOn f (s.reportPurged m) := by
  simp [reportPurged, h]

@[simp] theorem flagOn_judgeDeviation (b : ConfigBlock) : FlagOn f (s.judgeDeviation b) :=
  .ite (.ite h (flagOn_setAttn h _)) h

@[simp] theorem flagOn_endCommand (code : Word) (o : CommandOutcome) : FlagOn f (s.endCommand code o) :=
  endCommand_keeps_attnHas code o h

@[simp] theorem flagOn_overrunCommand (code : Word) : FlagOn f (s.overrunCommand code) :=
  flagOn_setAttn (s := s.onCtl _) h _

@[simp] theorem flagOn_enterHalted : FlagOn f s.enterHalted := by
  simp [enterHalted, h]

@[simp] theorem flagOn_enterDraining : FlagOn f s.enterDraining :=
  .ite (flagOn_enterHalted h) h

@[simp] theorem flagOn_enterStandby : FlagOn f s.enterStandby := by
  simp [enterStandby, h]

@[simp] theorem flagOn_considerStandby : FlagOn f s.considerStandby :=
  .ite (flagOn_enterStandby h) h

/-! ### The Order Fetch Unit (R41 to R51) -/

@[simp] theorem flagOn_tellChainFault : FlagOn f s.tellChainFault := flagOn_setAttn h .chainFault

@[simp] theorem flagOn_chainFault (src : FaultSource) (bad : Word) : FlagOn f (s.chainFault src bad) := by
  have hpos : FlagOn f (s.setPos (.chainFault src)) := h
  exact flagOn_issueWrite hpos _ _ fun _ hu => flagOn_tellChainFault hu

@[simp] theorem flagOn_follow (src : FaultSource) (addr : Word) : FlagOn f (s.follow src addr) :=
  .ite h (flagOn_chainFault h src addr)

@[simp] theorem flagOn_startMainResume : FlagOn f s.startMainResume :=
  .ite h (flagOn_follow h _ _)

@[simp] theorem flagOn_switchToMain : FlagOn f s.switchToMain :=
  flagOn_startMainResume (s := s.onFetch _) h

@[simp] theorem flagOn_followLink (block link : Word) : FlagOn f (s.followLink block link) :=
  .ite (.ite (flagOn_switchToMain h) h) (flagOn_follow h _ _)

@[simp] theorem flagOn_sequenceFault : FlagOn f s.sequenceFault := by
  unfold sequenceFault
  split <;> simp [h]

@[simp] theorem flagOn_refuseCall (call : Nat) (block link : Word) (why : Reason) :
    FlagOn f (s.refuseCall call block link why) := by
  simp only [refuseCall]
  split <;> simp [h]

@[simp] theorem flagOn_enterSequence (call : Nat) (head : Word) (w : OrderWords) :
    FlagOn f (s.enterSequence call head w) := by
  simp [enterSequence, h]

@[simp] theorem flagOn_takeHead (call : Nat) (head : Word) (w : OrderWords) : FlagOn f (s.takeHead call head w) := by
  unfold takeHead
  split
  · exact h
  · exact .ite (flagOn_issueWrite h _ _ fun _ hu => flagOn_enterSequence hu call head w) (flagOn_refuseCall h _ _ _ _)

@[simp] theorem flagOn_takeCall (e : Entry) : FlagOn f (s.takeCall e) := by
  unfold takeCall
  refine .ite ?_ (.ite ?_ (.ite ?_ (.ite ?_ ?_))) <;> simp [h]

@[simp] theorem flagOn_takeBlock (addr : Word) (w : OrderWords) : FlagOn f (s.takeBlock addr w) := by
  unfold takeBlock
  refine .ite (flagOn_takeCall h _) (.ite (by simp [h]) ?_)
  split
  case h_1 =>
    split
    · simp [h]
    · dsimp only
      split <;> simp [h]
  case h_2 | h_3 | h_4 =>
    refine .ite (by simp [h]) ?_
    dsimp only
    split <;> simp [h]
  all_goals simp [h]

@[simp] theorem flagOn_takeFetched (w : OrderWords) : FlagOn f (s.takeFetched w) := by
  unfold takeFetched
  split <;> simp [h]

@[simp] theorem flagOn_takeReturnLink (v : Word) : FlagOn f (s.takeReturnLink v) := by
  unfold takeReturnLink
  split <;> simp [h]

@[simp] theorem flagOn_takeContinuation (v : Word) : FlagOn f (s.takeContinuation v) := by
  unfold takeContinuation
  split <;> simp [h]

@[simp] theorem flagOn_takeTail (v : Word) : FlagOn f (s.takeTail v) := by
  unfold takeTail
  split <;> simp [h]

@[simp] theorem flagOn_takeFaultSource (v : Word) : FlagOn f (s.takeFaultSource v) := by
  unfold takeFaultSource
  split
  case h_1 => split <;> simp [h]
  all_goals exact h

@[simp] theorem flagOn_startFromWord2 (v : Word) : FlagOn f (s.startFromWord2 v) :=
  .ite h (flagOn_follow h _ _)

@[simp] theorem flagOn_startFromWord3 (v : Word) : FlagOn f (s.startFromWord3 v) :=
  .ite (flagOn_switchToMain h) (flagOn_follow h _ _)

@[simp] theorem flagOn_extendFetch : FlagOn f s.extendFetch := by
  unfold extendFetch
  split <;> simp [h]

/-! ### Orders at the front and the launch decision (R59, R78 to R81) -/

@[simp] theorem flagOn_takePause (id : Nat) : FlagOn f (s.takePause id) :=
  .ite (flagOn_enterHalted (s := State.setState _ _) h) (flagOn_enterDraining (s := State.onCtl _ _) h)

@[simp] theorem flagOn_handleFront (e : Entry) : FlagOn f (s.handleFront e) := by
  unfold handleFront
  split
  · exact h
  · refine .ite h ?_
    split <;> simp [h]

@[simp] theorem flagOn_skipAttention (r : SkipReason) : FlagOn f (s.skipAttention r) := by
  unfold skipAttention
  split
  case h_1 | h_2 | h_3 => exact .ite (flagOn_setAttn h _) h
  all_goals exact h

@[simp] theorem flagOn_skip (r : SkipReason) : FlagOn f (s.skip r) := by
  simp [skip, h]

@[simp] theorem flagOn_decideLaunch (k : Installed) (p : Word) : FlagOn f (s.decideLaunch k p) := by
  unfold decideLaunch
  split
  · exact h
  · split <;> simp [h]

@[simp] theorem flagOn_launchDecision : FlagOn f s.launchDecision := by
  unfold launchDecision
  split
  · exact h
  · refine .ite ?_ h
    split <;> simp [h]

theorem flagOn_takeFront {t : State} (ht : s.takeFront = some t) : FlagOn f t := by
  obtain ⟨e, rfl | rfl⟩ := takeFront_cases ht <;> simp [h]

/-! ### Jams and the path (R98 to R104, R140 to R148) -/

@[simp] theorem flagOn_primaryJam (r : Report) : FlagOn f (s.primaryJam r) := by
  simp [primaryJam, h]

@[simp] theorem flagOn_report (r : Report) : FlagOn f (s.report r) := by
  unfold report
  split <;> simp [h]

@[simp] theorem flagOn_pathFault (cause : Cause) (c : Checkpoint) (sheet : Option Nat) (counts : PerSection Pos) :
    FlagOn f (s.pathFault cause c sheet counts) :=
  flagOn_report (s := s.haltSections _) h _

@[simp] theorem flagOn_afterSettlement (wasFull : Bool) : FlagOn f (s.afterSettlement wasFull) := by
  have hdrain : FlagOn f (s.settleMailpieces false).enterDraining := by simp [h]
  simp only [afterSettlement]
  split
  · split <;> simp [hdrain]
  · split <;> simp [h]

@[simp] theorem flagOn_settleSheet (x : Sheet) (d : Dest) : FlagOn f (s.settleSheet x d) := by
  cases d <;> simp [settleSheet, h]

@[simp] theorem flagOn_checkCommitted (c : Checkpoint) (id : Nat) (latch : PerSection Pos) :
    FlagOn f (s.checkCommitted c id latch) := by
  unfold checkCommitted
  split
  · exact .ite h (flagOn_pathFault h _ _ _ _)
  · exact h

@[simp] theorem flagOn_onTime (k : Installed) (c : Checkpoint) (x : Sheet) (latch : PerSection Pos) :
    FlagOn f (s.onTime k c x latch) :=
  .ite (flagOn_pathFault h _ _ _ _) (by simp [h])

@[simp] theorem flagOn_matchLeading (c : Checkpoint) (latch : PerSection Pos) : FlagOn f (s.matchLeading c latch) := by
  unfold matchLeading
  split
  · split
    · split <;> simp [h]
    · simp [h]
  · simp [h]

@[simp] theorem flagOn_leadingEdge (c : Checkpoint) : FlagOn f (s.leadingEdge c) :=
  .ite h (.ite (flagOn_matchLeading (s := s.setSensor _ _) h _ _) h)

@[simp] theorem flagOn_afterOccupancy (k : Installed) (c : Checkpoint) (x : Sheet) (o : Occupancy)
    (latch : PerSection Pos) : FlagOn f (s.afterOccupancy k c x o latch) := by
  refine .ite (.ite h (by simpa using h)) (.ite (flagOn_pathFault h _ _ _ _) ?_)
  split
  · exact flagOn_settleSheet h _ _
  · exact .ite (by simpa using h) h

@[simp] theorem flagOn_matchTrailing (c : Checkpoint) (latch : PerSection Pos) :
    FlagOn f (s.matchTrailing c latch) := by
  unfold matchTrailing
  split
  · split <;> simp [h]
  · exact h

@[simp] theorem flagOn_trailingEdge (c : Checkpoint) : FlagOn f (s.trailingEdge c) :=
  .ite (.ite (flagOn_matchTrailing (s := s.setSensor _ _) h _ _) h) h

/-! ### Compares and samples (R5, R11 to R15) -/

@[simp] theorem flagOn_takeCompare (owner : CompareOwner) (latch : PerSection Pos) :
    FlagOn f (s.takeCompare owner latch) := by
  cases owner with
  | boundary | pick => simp [takeCompare, h]
  | late t =>
    simp only [takeCompare]
    split
    · split <;> simp [h]
    · exact h
  | stuck t c =>
    simp only [takeCompare]
    split <;> simp [h]

@[simp] theorem flagOn_takeAtOnce (n : Nat) : FlagOn f (s.takeAtOnce n) := by
  induction n generalizing s with
  | zero => exact h
  | succ n ih =>
    unfold takeAtOnce
    split
    · split
      · exact ih (flagOn_takeCompare (s := s.withdrawOwner _) h _ _)
      · exact h
    · exact h

@[simp] theorem flagOn_reportStalls (stalled : List Section) : FlagOn f (s.reportStalls stalled) :=
  .foldl (fun _ _ hu => flagOn_report hu _) stalled h

@[simp] theorem flagOn_enterAtSpeed : FlagOn f s.enterAtSpeed := by
  simp [enterAtSpeed, h]

@[simp] theorem flagOn_sampleRunUp (b : ConfigBlock) : FlagOn f (s.sampleRunUp b) :=
  .ite (flagOn_enterAtSpeed (s := State.onTransport _ _) h) h

@[simp] theorem flagOn_sampleAtSpeed (b : ConfigBlock) : FlagOn f (s.sampleAtSpeed b) := by
  simp [sampleAtSpeed, h]

@[simp] theorem flagOn_sample : FlagOn f s.sample := by
  unfold sample
  split <;> simp [h]

@[simp] theorem flagOn_runUpExpiry : FlagOn f s.runUpExpiry :=
  .ite (flagOn_report (by simpa using h) _) h

/-! ### Writes and the end of an event (R54) -/

@[simp] theorem flagOn_announceWrite (t : WriteTag) : FlagOn f (s.announceWrite t) := by
  cases t <;> simp [announceWrite, h]

@[simp] theorem flagOn_runSteps (l : HeldSteps) : FlagOn f (runSteps l s) := by
  cases l <;> simp [runSteps, h]

@[simp] theorem flagOn_admitHeld : FlagOn f s.admitHeld := by
  unfold admitHeld
  refine .ite ?_ h
  split
  · exact flagOn_runSteps (s := s.onMem _) h _
  · exact h

@[simp] theorem flagOn_completeWrite : FlagOn f s.completeWrite := by
  unfold completeWrite
  split <;> simp [h]

@[simp] theorem flagOn_frontLoop (n : Nat) : FlagOn f (s.frontLoop n) := by
  induction n generalizing s with
  | zero => exact h
  | succ n ih =>
    unfold frontLoop
    split
    next => exact h
    next t ht => exact ih (by simpa using flagOn_takeFront h ht)

@[simp] theorem flagOn_finish : FlagOn f s.finish := by
  simp [finish, h]

/-! ### LOAD CONFIG and the commands of the host (R164 to R169) -/

@[simp] theorem flagOn_endLoad (why : Option Validation) : FlagOn f (s.endLoad why) :=
  flagOn_endCommand (s := s.onCtl _) h _ _

@[simp] theorem flagOn_takeConfigAddress (v : Word) : FlagOn f (s.takeConfigAddress v) :=
  .ite h (flagOn_endLoad h _)

@[simp] theorem flagOn_install (b : ConfigBlock) : FlagOn f (s.install b) := by
  simp only [install]
  split <;> simp [h]

@[simp] theorem flagOn_validateAndInstall (ws : List Word) : FlagOn f (s.validateAndInstall ws) := by
  unfold validateAndInstall
  split <;> simp [h]

@[simp] theorem flagOn_takeConfigWord (v : Word) : FlagOn f (s.takeConfigWord v) := by
  unfold takeConfigWord
  split
  · exact .ite h (flagOn_validateAndInstall h _)
  · exact h

@[simp] theorem flagOn_takeMainHead (v : Word) : FlagOn f (s.takeMainHead v) :=
  flagOn_endCommand (.ite (flagOn_startFromWord2 h v) h) _ _

@[simp] theorem flagOn_takeRecoveryHead (v : Word) : FlagOn f (s.takeRecoveryHead v) :=
  flagOn_endCommand (.ite (flagOn_startFromWord3 h v) h) _ _

@[simp] theorem flagOn_takeLoadConfig : FlagOn f s.takeLoadConfig :=
  .ite h (flagOn_endCommand h _ _)

@[simp] theorem flagOn_takeRun : FlagOn f s.takeRun := by
  unfold takeRun
  split <;> simp [h]

@[simp] theorem flagOn_takeHalt : FlagOn f s.takeHalt := by
  unfold takeHalt
  split <;> simp [h]

@[simp] theorem flagOn_takeResume : FlagOn f s.takeResume := by
  unfold takeResume
  split
  · exact flagOn_endCommand h _ _
  · exact flagOn_endCommand (.ite (by simp [h]) (by simpa using h)) _ _

@[simp] theorem flagOn_takeRecover : FlagOn f s.takeRecover := by
  unfold takeRecover
  split
  · exact flagOn_endCommand h _ _
  · exact .ite (by simpa using h) (by simp [h])

@[simp] theorem flagOn_takeExtend : FlagOn f s.takeExtend := by
  unfold takeExtend
  split <;> simp [h]

@[simp] theorem flagOn_resetPath : FlagOn f (resetPath s) := by
  have hclear : FlagOn f s.clearPath := by simpa using h
  exact .ite (flagOn_enterHalted (s := State.onJam _ _) hclear) hclear

@[simp] theorem flagOn_takePathReset : FlagOn f s.takePathReset := by
  cases hrefusal : s.pathResetRefusal with
  | some o => simp [takePathReset_of_some hrefusal, h]
  | none => simp [takePathReset_of_none hrefusal, h]

end

/-! ## AREA, AMASK and the flags through the shared forms of the commands -/

/-- AREA and AMASK of the two states are the same, and every flag set in the first is set in the second. -/
structure SameRegisters (s t : State) : Prop where
  area : t.ctl.area = s.ctl.area
  amask : t.ctl.amask = s.ctl.amask
  attn : ∀ f, FlagOn f s → FlagOn f t

theorem SameRegisters.of_ctl {s t : State} (h : t.ctl = s.ctl) : SameRegisters s t :=
  ⟨congrArg Control.area h, congrArg Control.amask h, fun f hf => by simpa [h] using hf⟩

theorem SameRegisters.refl (s : State) : SameRegisters s s := .of_ctl rfl

theorem SameRegisters.trans {s t u : State} (hst : SameRegisters s t) (htu : SameRegisters t u) : SameRegisters s u :=
  ⟨htu.area.trans hst.area, htu.amask.trans hst.amask, fun f hf => htu.attn f (hst.attn f hf)⟩

theorem SameRegisters.ite {s t u : State} {p : Prop} [Decidable p] (ht : SameRegisters s t) (hu : SameRegisters s u) :
    SameRegisters s (if p then t else u) := by
  split <;> assumption

theorem SameRegisters.finish {s t : State} (h : SameRegisters s t) : SameRegisters s t.finish :=
  h.trans ⟨by simp, by simp, fun _ hf => flagOn_finish hf⟩

/-- An update of the part that leaves AREA and AMASK as they stand and clears no flag. -/
def KeepsRegisters (g : State → State) : Prop := ∀ s, SameRegisters s (g s)

/-- An event begins with nothing given out, which touches no register. -/
theorem KeepsRegisters.of_fresh {g : State → State} (hg : KeepsRegisters g) (s : State) : SameRegisters s (g s.fresh) :=
  SameRegisters.trans (t := s.fresh) (.of_ctl (fresh_ctl s)) (hg s.fresh)

theorem SameRegisters.of_next {s t u : State} (h : (.next u : Host.Outcome State Fault Refusal) = .next t)
    (hu : SameRegisters s u) : SameRegisters s t := by
  rw [Host.Outcome.next.injEq] at h
  exact h ▸ hu

/-- A command of the host, taken or answered by an overrun. -/
theorem SameRegisters.of_command {code : Word} {take : State → State} {s t : State} (htake : KeepsRegisters take)
    (h : command code take s = .next t) : SameRegisters s t :=
  .of_next h (.ite ⟨by simp, by simp, fun _ hf => by simp [hf]⟩ (htake.of_fresh s).finish)

/-- A read completes with its value used, frees the bus alone, or is not in progress. -/
theorem KeepsRegisters.completeRead {use : State → State} (huse : KeepsRegisters use) (p : Purpose) :
    KeepsRegisters (completeRead p use) := fun s => by
  have hfree : SameRegisters s s.freeBus := .of_ctl (by simp)
  exact .ite (hfree.trans (huse _)).finish (.ite hfree.finish (.refl s))

theorem KeepsRegisters.useFetchRead {use : State → State} (huse : KeepsRegisters use) (k : FetchRead) :
    KeepsRegisters (useFetchRead k use) := fun s => by
  have hend : SameRegisters s s.endRead := .of_ctl (by simp)
  exact .ite (hend.trans (huse _)) hend

theorem KeepsRegisters.completeFetchRead {use : State → State} (huse : KeepsRegisters use) (k : FetchRead) :
    KeepsRegisters (completeFetchRead k use) :=
  (huse.useFetchRead k).completeRead _

theorem keepsRegisters_takeReached (p : CompareOwner → Bool) : KeepsRegisters (takeReached p) := fun s => by
  unfold takeReached
  split
  · split
    · exact ⟨by simp, by simp, fun _ hf => by simp [hf]⟩
    · exact .refl s
  · exact .refl s

/-- An order fetch that completes asks for a wake evaluation after its block is taken (R89). -/
theorem keepsRegisters_takeOrderFetch (w : OrderWords) :
    KeepsRegisters fun s => (s.useFetchRead .order (takeFetched w)).askWake := fun s => by
  have huse : KeepsRegisters (takeFetched w) := fun u => ⟨by simp, by simp, fun _ hf => by simp [hf]⟩
  exact (huse.useFetchRead .order s).trans (.of_ctl (by simp))

/-! ## Every command but the reset line (R158, R170 to R172) -/

/-- The registers of the second state are those of the first, but for AREA after a write of AREA (R158), AMASK after a
write of AMASK (R171) and the flags after a read of ATTN (R170). -/
structure RegistersKeptBut (c : Instr) (s t : State) : Prop where
  area : (∀ v, c ≠ .areaWrite v) → t.ctl.area = s.ctl.area
  amask : (∀ v, c ≠ .amaskWrite v) → t.ctl.amask = s.ctl.amask
  attn : c ≠ .attnRead → ∀ f, FlagOn f s → FlagOn f t

theorem SameRegisters.keptBut {s t : State} (h : SameRegisters s t) (c : Instr) : RegistersKeptBut c s t :=
  ⟨fun _ => h.area, fun _ => h.amask, fun _ => h.attn⟩

theorem exec_areaWrite_keptBut {v : Word} {s t : State} (h : exec (.areaWrite v) s = .next t) :
    RegistersKeptBut (.areaWrite v) s t := by
  simp only [exec, execAreaWrite, event_eq, Host.Outcome.next.injEq] at h
  subst h
  split <;> exact ⟨fun hc => absurd rfl (hc v), fun _ => rfl, fun _ _ hf => hf⟩

theorem exec_amaskWrite_keptBut {v : Word} {s t : State} (h : exec (.amaskWrite v) s = .next t) :
    RegistersKeptBut (.amaskWrite v) s t := by
  simp only [exec, execAmaskWrite, event_eq, Host.Outcome.next.injEq] at h
  subst h
  exact ⟨fun _ => rfl, fun hc => absurd rfl (hc v), fun _ _ hf => hf⟩

theorem exec_attnRead_keptBut {s t : State} (h : exec .attnRead s = .next t) : RegistersKeptBut .attnRead s t := by
  simp only [exec, execAttnRead, event_eq, Host.Outcome.next.injEq] at h
  subst h
  exact ⟨fun _ => rfl, fun _ => rfl, fun hc => absurd rfl hc⟩

/-- The read names the sheet it was made for, and its value is used, discarded with the bus freed, or absent (R110). -/
theorem exec_invReadyWordRead_sameRegisters {v : Word} {s t : State} (h : exec (.invReadyWordRead v) s = .next t) :
    SameRegisters s t := by
  refine .of_next h ?_
  dsimp only
  split
  · exact .finish (.of_ctl (by simp))
  · exact .ite (.finish (.of_ctl (by simp))) (.of_ctl rfl)

/-- The commands that access none of the three registers and are not the reset line. -/
theorem exec_sameRegisters {c : Instr} {s t : State} (hreset : ∀ l y, c ≠ .resetLine l y)
    (harea : ∀ v, c ≠ .areaWrite v) (hamask : ∀ v, c ≠ .amaskWrite v) (hattn : c ≠ .attnRead)
    (h : exec c s = .next t) : SameRegisters s t := by
  cases c with
  | resetLine l y => exact absurd rfl (hreset l y)
  | areaWrite v => exact absurd rfl (harea v)
  | amaskWrite v => exact absurd rfl (hamask v)
  | attnRead => exact absurd rfl hattn
  | pitchBoundary | pick | lateDeadline | stuckDeadline =>
    exact .of_next h ((keepsRegisters_takeReached _).of_fresh s).finish
  | encoderStep | leadingEdge | trailingEdge | sample | runupTimeout | transferDone | transferFault | markValue
  | markNoRead | unloadEvent | trayEmptyInput | writeComplete =>
    exact .of_next h ⟨by simp, by simp, fun _ hf => by simp [hf]⟩
  | refillEvent | overrun =>
    exact .of_next h (.ite ⟨by simp, by simp, fun _ hf => by simp [hf]⟩ (.of_ctl rfl))
  | ignoredRegisterWrite => exact .of_next h (.of_ctl rfl)
  | orderFetchComplete w => exact .of_next h (((keepsRegisters_takeOrderFetch w).completeRead _).of_fresh s)
  | tailReread | chainFaultReread | returnLinkRead | continuationRead =>
    refine .of_next h ((KeepsRegisters.completeFetchRead (fun u => ?_) _).of_fresh s)
    exact ⟨by simp, by simp, fun _ hf => by simp [hf]⟩
  | candidateReadyWordRead | windowLengthRead | configAddressRead | configBlockRead | mainHeadRead
  | recoveryHeadRead =>
    refine .of_next h ((KeepsRegisters.completeRead (fun u => ?_) _).of_fresh s)
    exact ⟨by simp, by simp, fun _ hf => by simp [hf]⟩
  | invReadyWordRead v => exact exec_invReadyWordRead_sameRegisters h
  | loadConfig | run | halt | resume | recover | extend | pathReset =>
    exact .of_command (fun u => ⟨by simp, by simp, fun _ hf => by simp [hf]⟩) h
  | unknownCommand code =>
    simp only [exec, execUnknownCommand] at h
    split at h
    · cases h
    · exact .of_command (fun u => ⟨by simp, by simp, fun _ hf => flagOn_endCommand hf _ _⟩) h

theorem exec_registersKeptBut {c : Instr} {s t : State} (hreset : ∀ l y, c ≠ .resetLine l y)
    (h : exec c s = .next t) : RegistersKeptBut c s t := by
  by_cases haccess : (∃ v, c = .areaWrite v) ∨ (∃ v, c = .amaskWrite v) ∨ c = .attnRead
  · obtain ⟨v, rfl⟩ | ⟨v, rfl⟩ | rfl := haccess
    · exact exec_areaWrite_keptBut h
    · exact exec_amaskWrite_keptBut h
    · exact exec_attnRead_keptBut h
  · obtain ⟨harea, hamask, hattn⟩ : (∀ v, c ≠ .areaWrite v) ∧ (∀ v, c ≠ .amaskWrite v) ∧ c ≠ .attnRead := by
      simpa only [not_or, not_exists] using haccess
    exact (exec_sameRegisters hreset harea hamask hattn h).keptBut c

/-- Settles O4: the reset line by its state, every other command by `exec_registersKeptBut`. -/
theorem registersAfterReset : Obligations.RegistersAfterReset := by
  refine ⟨fun l y s => ⟨_, exec_resetLine_eq l y s, rfl, rfl, rfl, rfl, rfl, rfl, rfl, rfl, resetPart_attnHas l y _,
    rfl, resetPart_attentionLine l y _, rfl, rfl, rfl, rfl, rfl, rfl, rfl, resetPart_statWord0 l y _, rfl, rfl,
    resetPart_readInProgress l y _⟩, fun c s t h hreset => ?_⟩
  obtain ⟨harea, hamask, hattn⟩ := exec_registersKeptBut hreset h
  exact ⟨harea, fun hc => congrArg (BitVec.setWidth 32) (hamask hc),
    fun hc f hf => (attnHas_iff_flagOn f t).mpr (hattn hc f ((attnHas_iff_flagOn f s).mp hf))⟩

end Sys2Proof.Machine
end

section
/-! PROOFS. What every command keeps, once for all invariants; the sheet books (O57) and the admitted commands (O2). -/

namespace Sys2Proof.Machine

open State

/-! ## An invariant through the shared forms of the commands -/

/-- An update of the part keeps a property of its states. -/
def Keeps (P : State → Prop) (f : State → State) : Prop := ∀ s, P s → P (f s)

/-- Every update that the commands are made of keeps a property of the states. -/
structure CommandsKeep (P : State → Prop) : Prop where
  fresh : Keeps P fresh
  finish : Keeps P finish
  resetPart (l : PerCheckpoint Bool) (y : PerTray Bool) : Keeps P (resetPart l y)
  stepCounter (x : Section) : Keeps P (stepCounter x)
  leadingEdge (c : Checkpoint) : Keeps P (leadingEdge c)
  trailingEdge (c : Checkpoint) : Keeps P (trailingEdge c)
  sample : Keeps P sample
  runUpExpiry : Keeps P runUpExpiry
  withdrawOwner (p : CompareOwner → Bool) : Keeps P (withdrawOwner p)
  takeCompare (o : CompareOwner) (latch : PerSection Pos) : Keeps P (takeCompare o latch)
  answerDone : Keeps P answerDone
  answerFault : Keeps P answerFault
  attributeMark (r : MarkResult) : Keeps P (attributeMark r)
  unload (d : Dest) : Keeps P (unload d)
  askWake : Keeps P askWake
  trayLevel (t : Tray) (b : Bool) : Keeps P (onLaunch fun u => { u with trays := u.trays.set t b })
  freeBus : Keeps P freeBus
  endRead : Keeps P endRead
  takeFetched (w : OrderWords) : Keeps P (takeFetched w)
  takeTail (v : Word) : Keeps P (takeTail v)
  takeFaultSource (v : Word) : Keeps P (takeFaultSource v)
  takeReturnLink (v : Word) : Keeps P (takeReturnLink v)
  takeContinuation (v : Word) : Keeps P (takeContinuation v)
  takeCandidateReady (v : Word) : Keeps P (takeCandidateReady v)
  takeInvReady (t : Nat) (v : Word) : Keeps P (takeInvReady t v)
  takeWindowLength (v : Word) : Keeps P (takeWindowLength v)
  takeConfigAddress (v : Word) : Keeps P (takeConfigAddress v)
  takeConfigWord (v : Word) : Keeps P (takeConfigWord v)
  takeMainHead (v : Word) : Keeps P (takeMainHead v)
  takeRecoveryHead (v : Word) : Keeps P (takeRecoveryHead v)
  completeWrite : Keeps P completeWrite
  area (v : Word) : Keeps P (onCtl fun u => { u with area := v })
  amask (v : FlagBits) : Keeps P (onCtl fun u => { u with amask := v })
  readAttn : Keeps P fun s => (s.emit (.attnValue s.attnWord)).onCtl fun u => { u with attn := 0 }
  takeLoadConfig : Keeps P takeLoadConfig
  takeRun : Keeps P takeRun
  takeHalt : Keeps P takeHalt
  takeResume : Keeps P takeResume
  takeRecover : Keeps P takeRecover
  takeExtend : Keeps P takeExtend
  takePathReset : Keeps P takePathReset
  endCommand (code : Word) (o : CommandOutcome) : Keeps P (endCommand code o)
  overrunCommand (code : Word) : Keeps P (overrunCommand code)

section
variable {P : State → Prop}

theorem Keeps.id : Keeps P id := fun _ h => h

theorem Keeps.comp {f g : State → State} (hf : Keeps P f) (hg : Keeps P g) : Keeps P fun s => g (f s) :=
  fun s h => hg _ (hf s h)

theorem Keeps.ite {c : State → Prop} [∀ s, Decidable (c s)] {f g : State → State} (hf : Keeps P f) (hg : Keeps P g) :
    Keeps P fun s => if c s then f s else g s := fun s h => by
  dsimp only
  split
  · exact hf s h
  · exact hg s h

/-- A fold of updates that each keep a property keeps it. -/
theorem Keeps.foldl {α : Type} {f : State → α → State} (hf : ∀ a, Keeps P (f · a)) :
    (l : List α) → Keeps P fun s => l.foldl f s
  | [], _, h => h
  | a :: l, s, h => Keeps.foldl hf l (f s a) (hf a s h)

namespace CommandsKeep

variable (hP : CommandsKeep P)
include hP

/-- What a command answers, with the update it makes of the state in which nothing is given out yet. -/
theorem event {s t u : State} (ht : (.next u : Host.Outcome State Fault Refusal) = .next t) (hs : P s)
    (hu : P s.fresh → P u) : P t := by
  rw [Host.Outcome.next.injEq] at ht
  exact ht ▸ hu (hP.fresh s hs)

theorem command {take : State → State} (htake : Keeps P take) {code : Word} {s t : State} (hs : P s)
    (ht : command code take s = .next t) : P t :=
  hP.event ht hs (Keeps.ite (c := fun s => s.commandBusy = true) (hP.overrunCommand code) (htake.comp hP.finish) _)

theorem completeRead {use : State → State} (huse : Keeps P use) (p : Purpose) : Keeps P (completeRead p use) :=
  .ite (c := fun s => s.readInProgress = some p) ((hP.freeBus.comp huse).comp hP.finish)
    (.ite (c := fun s => s.cutRead (· == p) = true) (hP.freeBus.comp hP.finish) .id)

theorem useFetchRead {use : State → State} (huse : Keeps P use) (k : FetchRead) : Keeps P (useFetchRead k use) :=
  .ite (c := fun s => s.fetch.read = some ⟨k, false⟩) (hP.endRead.comp huse) hP.endRead

theorem completeFetchRead {use : State → State} (huse : Keeps P use) (k : FetchRead) :
    Keeps P (completeFetchRead k use) :=
  hP.completeRead (hP.useFetchRead huse k) _

theorem takeReached (p : CompareOwner → Bool) : Keeps P (takeReached p) := fun s hs => by
  unfold State.takeReached
  split
  · split
    · exact hP.takeCompare _ _ _ (hP.withdrawOwner _ _ hs)
    · exact hs
  · exact hs

theorem invReadyWordRead {v : Word} {s t : State} (hs : P s) (ht : execInvReadyWordRead v s = .next t) : P t := by
  refine hP.event ht hs fun hu => ?_
  dsimp only
  split
  · exact hP.finish _ (hP.takeInvReady _ _ _ (hP.freeBus _ hu))
  · split
    · exact hP.finish _ (hP.freeBus _ hu)
    · exact hu

/-- What every update of the commands keeps, every command keeps. -/
theorem exec {c : Instr} {s t : State} (hs : P s) (ht : exec c s = .next t) : P t := by
  cases c with
  | resetLine l y => exact hP.event ht hs (hP.resetPart l y _)
  | encoderStep x => exact hP.event ht hs (hP.stepCounter x _)
  | leadingEdge c => exact hP.event ht hs ((hP.leadingEdge c).comp hP.finish _)
  | trailingEdge c => exact hP.event ht hs ((hP.trailingEdge c).comp hP.finish _)
  | sample => exact hP.event ht hs (hP.sample.comp hP.finish _)
  | runupTimeout => exact hP.event ht hs (hP.runUpExpiry.comp hP.finish _)
  | pitchBoundary | pick | lateDeadline | stuckDeadline =>
    exact hP.event ht hs (fun hu => hP.finish _ (hP.takeReached _ _ hu))
  | transferDone => exact hP.event ht hs (hP.answerDone _)
  | transferFault => exact hP.event ht hs (hP.answerFault.comp hP.finish _)
  | markValue | markNoRead => exact hP.event ht hs (hP.attributeMark _ _)
  | unloadEvent d => exact hP.event ht hs (((hP.unload d).comp hP.askWake).comp hP.finish _)
  | refillEvent t =>
    exact hP.event ht hs (Keeps.ite (c := fun s => s.launch.trays.get t = true)
      (((hP.trayLevel t false).comp hP.askWake).comp hP.finish) .id _)
  | trayEmptyInput t => exact hP.event ht hs (hP.trayLevel t true _)
  | orderFetchComplete w =>
    exact hP.event ht hs (hP.completeRead ((hP.useFetchRead (hP.takeFetched w) .order).comp hP.askWake) _ _)
  | tailReread v => exact hP.event ht hs (hP.completeFetchRead (hP.takeTail v) _ _)
  | chainFaultReread v => exact hP.event ht hs (hP.completeFetchRead (hP.takeFaultSource v) _ _)
  | returnLinkRead v => exact hP.event ht hs (hP.completeFetchRead (hP.takeReturnLink v) _ _)
  | continuationRead v => exact hP.event ht hs (hP.completeFetchRead (hP.takeContinuation v) _ _)
  | candidateReadyWordRead v => exact hP.event ht hs (hP.completeRead (hP.takeCandidateReady v) _ _)
  | invReadyWordRead v => exact hP.invReadyWordRead hs ht
  | windowLengthRead v => exact hP.event ht hs (hP.completeRead (hP.takeWindowLength v) _ _)
  | configAddressRead v => exact hP.event ht hs (hP.completeRead (hP.takeConfigAddress v) _ _)
  | configBlockRead v => exact hP.event ht hs (hP.completeRead (hP.takeConfigWord v) _ _)
  | mainHeadRead v => exact hP.event ht hs (hP.completeRead (hP.takeMainHead v) _ _)
  | recoveryHeadRead v => exact hP.event ht hs (hP.completeRead (hP.takeRecoveryHead v) _ _)
  | writeComplete => exact hP.event ht hs (hP.completeWrite.comp hP.finish _)
  | areaWrite v => exact hP.event ht hs (Keeps.ite (c := fun s => s.areaWritable = true) (hP.area _) .id _)
  | loadConfig => exact hP.command hP.takeLoadConfig hs ht
  | run => exact hP.command hP.takeRun hs ht
  | halt => exact hP.command hP.takeHalt hs ht
  | resume => exact hP.command hP.takeResume hs ht
  | recover => exact hP.command hP.takeRecover hs ht
  | extend => exact hP.command hP.takeExtend hs ht
  | pathReset => exact hP.command hP.takePathReset hs ht
  | unknownCommand code =>
    simp only [Machine.exec, execUnknownCommand] at ht
    split at ht
    · cases ht
    · exact hP.command (hP.endCommand _ _) hs ht
  | overrun code =>
    exact hP.event ht hs (Keeps.ite (c := fun s => s.commandBusy = true) (hP.overrunCommand code) .id _)
  | attnRead => exact hP.event ht hs (hP.readAttn _)
  | amaskWrite v => exact hP.event ht hs (hP.amask _ _)
  | ignoredRegisterWrite r v => exact hP.event ht hs (Keeps.id _)

/-- With the queue of commands of no account to it, a property that the commands keep is kept by every step. -/
theorem step (hpending : ∀ s rest, P s → P { s with pending := rest }) {s t : State} (hs : P s)
    (ht : step s = .next t) : P t := by
  unfold Machine.step at ht
  split at ht
  · rw [Host.Outcome.next.injEq] at ht
    exact ht ▸ hs
  · exact hP.exec (hpending s _ hs) ht

end CommandsKeep
end

/-! ## The sheet books (R133, R161) -/

namespace State

/-- The two states agree in all that the sheet books speak of. -/
def SameBooks (s t : State) : Prop :=
  t.retire.launched = s.retire.launched ∧ t.retire.stacked = s.retire.stacked ∧ t.retire.purged = s.retire.purged
    ∧ t.retire.lost = s.retire.lost ∧ t.track.nextId = s.track.nextId ∧ t.sheetIds = s.sheetIds
    ∧ t.ctl.state = s.ctl.state

theorem SheetBooks.of_same {s t : State} (h : s.SheetBooks) (hst : SameBooks s t) : t.SheetBooks := by
  obtain ⟨hl, hst, hp, hlo, hn, hi, hc⟩ := hst
  exact h.same hl hst hp hlo hn hi hc

theorem SheetBooks.sheetIds_nil {s : State} (h : s.SheetBooks) (hs : emptyPathState s.ctl.state = true) :
    s.sheetIds = [] :=
  State.sheetIds_nil.mpr (h.idle hs)

@[simp] theorem setState_state (c : ControllerState) (s : State) : (s.setState c).ctl.state = c := rfl

theorem sheetBooks_resetPart (l : PerCheckpoint Bool) (y : PerTray Bool) (s : State) : (s.resetPart l y).SheetBooks where
  relation := rfl
  distinct := List.nodup_nil
  below := fun _ hx => nomatch hx
  idle := fun _ => rfl


/-- A state of the controller that asks for an empty path is entered with an empty track table alone. -/
theorem SheetBooks.of_state {s t : State} (h : s.SheetBooks)
    (hst : SameBooks s { t with ctl := { t.ctl with state := s.ctl.state } })
    (hc : emptyPathState t.ctl.state = true → s.sheetIds = []) : t.SheetBooks := by
  obtain ⟨hl, hst, hp, hlo, hn, hi, -⟩ := hst
  exact h.go hl hst hp hlo hn hi hc

/-- An installation brings UNCONFIGURED to READY and leaves every other state (R165). -/
theorem install_state (b : ConfigBlock) (s : State) :
    (s.install b).ctl.state = if s.ctl.state = .unconfigured then .ready else s.ctl.state := by
  simp only [install]
  split <;> simp_all

theorem SheetBooks.validateAndInstall {s : State} (h : s.SheetBooks) (ws : List Word) :
    (s.validateAndInstall ws).SheetBooks := by
  unfold State.validateAndInstall
  split
  · exact h.of_same (by simp [SameBooks, sheetIds])
  · refine h.of_state (by simp [SameBooks, sheetIds]) fun he => ?_
    have hstate : ((s.install (configBlockOf ws)).endLoad none).ctl.state = (s.install (configBlockOf ws)).ctl.state := by
      simp
    rw [hstate, install_state] at he
    refine h.sheetIds_nil ?_
    split at he
    next hs => simp [hs, emptyPathState]
    next => exact he

theorem SheetBooks.takeRun {s : State} (h : s.SheetBooks) : s.takeRun.SheetBooks := by
  unfold State.takeRun
  split
  · exact h.of_same (by simp [SameBooks, sheetIds])
  · exact h.of_state (by simp [SameBooks, sheetIds]) (by simp [emptyPathState])

theorem SheetBooks.takeHalt {s : State} (h : s.SheetBooks) : s.takeHalt.SheetBooks := by
  have hended : (s.endCommand 3 .accepted).SheetBooks := h.of_same (by simp [SameBooks, sheetIds])
  unfold State.takeHalt
  split
  next => exact hended.enterDraining
  next hs => exact hended.enterHalted (hended.sheetIds_nil (by simp [hs, emptyPathState]))
  all_goals exact h.of_same (by simp [SameBooks, sheetIds])

theorem SheetBooks.takeResume {s : State} (h : s.SheetBooks) : s.takeResume.SheetBooks := by
  unfold State.takeResume
  split
  · exact h.of_same (by simp [SameBooks, sheetIds])
  · refine h.of_state ?_ ?_
    · dsimp only
      split <;> simp [SameBooks, sheetIds]
    · dsimp only
      split <;> simp [emptyPathState, restart]

theorem SheetBooks.takeRecover {s : State} (h : s.SheetBooks) : s.takeRecover.SheetBooks := by
  unfold State.takeRecover
  split
  · exact h.of_same (by simp [SameBooks, sheetIds])
  · refine h.of_state ?_ ?_
    · dsimp only
      split <;> simp [SameBooks, sheetIds]
    · dsimp only
      split <;> simp [emptyPathState, restart]

theorem pathResetAllowed_of_none {s : State} (h : s.pathResetRefusal = none) : PathResetAllowed s := by
  unfold pathResetRefusal at h
  split at h
  · cases h
  next hs =>
    simp only [Bool.not_eq_true', Bool.not_eq_false, Bool.or_eq_true, Bool.and_eq_true, beq_iff_eq] at hs
    exact hs

theorem SheetBooks.resetPath {s : State} (h : s.SheetBooks) (hs : emptyPathState s.ctl.state = true) :
    (resetPath s).SheetBooks := by
  have hcleared := pathCleared_resetPath s
  have hnil : (Machine.resetPath s).sheetIds = [] := by simp [sheetIds, hcleared.sheets]
  have hnext : (Machine.resetPath s).track.nextId = s.track.nextId := by
    unfold Machine.resetPath
    split <;> simp
  exact h.go (by rw [hcleared.retire]) (by rw [hcleared.retire]) (by rw [hcleared.retire]) (by rw [hcleared.retire])
    hnext (by rw [hnil, h.sheetIds_nil hs]) (fun _ => h.sheetIds_nil hs)

theorem SheetBooks.takePathReset {s : State} (h : s.SheetBooks) : s.takePathReset.SheetBooks := by
  cases hr : s.pathResetRefusal with
  | some o =>
    rw [takePathReset_of_some hr]
    exact h.of_same (by simp [SameBooks, sheetIds])
  | none =>
    rw [takePathReset_of_none hr]
    have hempty : emptyPathState s.ctl.state = true := by
      obtain ⟨hjam, -⟩ | hhalted := pathResetAllowed_of_none hr
      · simp [hjam, emptyPathState]
      · simp [hhalted, emptyPathState]
    exact (h.resetPath hempty).of_same (by simp [SameBooks, sheetIds])

theorem sheetBooks_commandsKeep : CommandsKeep SheetBooks where
  fresh s h := h.of_same (by simp [SameBooks, sheetIds])
  finish _ h := h.finish
  resetPart l y s _ := sheetBooks_resetPart l y s
  stepCounter x s h := h.of_same (by simp [SameBooks, sheetIds])
  leadingEdge c _ h := h.leadingEdge c
  trailingEdge c _ h := h.trailingEdge c
  sample _ h := h.sample
  runUpExpiry _ h := h.runUpExpiry
  withdrawOwner p _ h := h.withdraw p
  takeCompare o latch _ h := h.takeCompare o latch
  answerDone s h := h.of_same (by simp [SameBooks])
  answerFault s h := h.of_same (by simp [SameBooks])
  attributeMark r s h := h.of_same (by simp [SameBooks])
  unload d s h := h.of_same (by simp [SameBooks, sheetIds])
  askWake s h := h.of_same (by simp [SameBooks, sheetIds])
  trayLevel t b s h := h.of_same (by simp [SameBooks, sheetIds])
  freeBus s h := h.of_same (by simp [SameBooks, sheetIds])
  endRead s h := h.of_same (by simp [SameBooks, sheetIds])
  takeFetched w s h := h.of_same (by simp [SameBooks, sheetIds])
  takeTail v s h := h.of_same (by simp [SameBooks, sheetIds])
  takeFaultSource v s h := h.of_same (by simp [SameBooks, sheetIds])
  takeReturnLink v s h := h.of_same (by simp [SameBooks, sheetIds])
  takeContinuation v s h := h.of_same (by simp [SameBooks, sheetIds])
  takeCandidateReady v s h := h.of_same (by simp [SameBooks, sheetIds])
  takeInvReady t v s h := h.of_same (by simp [SameBooks])
  takeWindowLength v s h := h.of_same (by simp [SameBooks, sheetIds])
  takeConfigAddress v s h := h.of_same (by simp [SameBooks, sheetIds])
  takeConfigWord v s h := by
    unfold State.takeConfigWord
    split
    · dsimp only
      split
      · exact h.of_same (by simp [SameBooks, sheetIds])
      · exact h.validateAndInstall _
    · exact h
  takeMainHead v s h := h.of_same (by simp [SameBooks, sheetIds])
  takeRecoveryHead v s h := h.of_same (by simp [SameBooks, sheetIds])
  completeWrite _ h := h.completeWrite
  area v s h := h.of_same (by simp [SameBooks, sheetIds])
  amask v s h := h.of_same (by simp [SameBooks, sheetIds])
  readAttn s h := h.of_same (by simp [SameBooks, sheetIds])
  takeLoadConfig s h := h.of_same (by simp [SameBooks, sheetIds])
  takeRun _ h := h.takeRun
  takeHalt _ h := h.takeHalt
  takeResume _ h := h.takeResume
  takeRecover _ h := h.takeRecover
  takeExtend s h := h.of_same (by simp [SameBooks, sheetIds])
  takePathReset _ h := h.takePathReset
  endCommand code o s h := h.of_same (by simp [SameBooks, sheetIds])
  overrunCommand code s h := h.of_same (by simp [SameBooks, sheetIds])

end State

/-! ## The admitted commands (R160) -/

/-- No command takes another from the queue. -/
theorem pending_commandsKeep (queue : List Instr) : CommandsKeep fun s => s.pending = queue where
  fresh s h := by simp [h]
  finish s h := by simp [h]
  resetPart l y s h := by simp [resetPart, h]
  stepCounter x s h := by simp [h]
  leadingEdge c s h := by simp [h]
  trailingEdge c s h := by simp [h]
  sample s h := by simp [h]
  runUpExpiry s h := by simp [h]
  withdrawOwner p s h := by simp [h]
  takeCompare o latch s h := by simp [h]
  answerDone s h := by simp [h]
  answerFault s h := by simp [h]
  attributeMark r s h := by simp [h]
  unload d s h := by simp [h]
  askWake s h := by simp [h]
  trayLevel t b s h := by simp [h]
  freeBus s h := by simp [h]
  endRead s h := by simp [h]
  takeFetched w s h := by simp [h]
  takeTail v s h := by simp [h]
  takeFaultSource v s h := by simp [h]
  takeReturnLink v s h := by simp [h]
  takeContinuation v s h := by simp [h]
  takeCandidateReady v s h := by simp [h]
  takeInvReady t v s h := by simp [h]
  takeWindowLength v s h := by simp [h]
  takeConfigAddress v s h := by simp [h]
  takeConfigWord v s h := by simp [h]
  takeMainHead v s h := by simp [h]
  takeRecoveryHead v s h := by simp [h]
  completeWrite s h := by simp [h]
  area v s h := by simp [h]
  amask v s h := by simp [h]
  readAttn s h := by simp [h]
  takeLoadConfig s h := by simp [h]
  takeRun s h := by simp [h]
  takeHalt s h := by simp [h]
  takeResume s h := by simp [h]
  takeRecover s h := by simp [h]
  takeExtend s h := by simp [h]
  takePathReset s h := by simp [h]
  endCommand code o s h := by simp [h]
  overrunCommand code s h := by simp [h]

/-- Every command answers a next state, but UNKNOWN_COMMAND with a code that names a command. -/
theorem exec_answers (c : Instr) (s : State) :
    (c.wellFormed = true → ∃ t, exec c s = .next t) ∧ (c.wellFormed = false → exec c s = .fault .codeNamesACommand) := by
  cases c with
  | unknownCommand code =>
    cases hn : namesCommand code
    · exact ⟨fun _ => ⟨_, by simp [exec, execUnknownCommand, hn, command, event_eq]; rfl⟩,
        fun h => by simp [Instr.wellFormed, hn] at h⟩
    · exact ⟨fun h => by simp [Instr.wellFormed, hn] at h, fun _ => by simp [exec, execUnknownCommand, hn]⟩
  | _ => exact ⟨fun _ => ⟨_, rfl⟩, fun h => nomatch h⟩

/-- Settles O2: a next state by the command's own arm (`exec_answers`), the queue by `pending_commandsKeep`. -/
theorem admittedCommandsComplete : Obligations.AdmittedCommandsComplete := by
  intro c s
  obtain ⟨hnext, hfault⟩ := exec_answers c s
  refine ⟨fun hc => ?_, hfault⟩
  obtain ⟨t, ht⟩ := hnext hc
  exact ⟨t, ht, (pending_commandsKeep s.pending).exec rfl ht⟩

/-- Settles O57: every update of the commands keeps the sheet books (`sheetBooks_commandsKeep`). -/
theorem sheetBooksKept : Obligations.SheetBooksKept := by
  intro s t h hst
  exact sheetBooks_commandsKeep.step (fun u rest hu => hu.of_same ⟨rfl, rfl, rfl, rfl, rfl, rfl, rfl⟩) h hst

end Sys2Proof.Machine
end

section
/-! PROOFS. Updates under which no table, queue or stack grows, for the invariants on sizes, on the installed configuration
and on open mailpieces (O58, O59, O60). -/

namespace Sys2Proof.Machine.State

/-! ## The mailpiece table -/

/-- The second table is no longer than the first, and what is closed in the first is closed in the second. -/
def TableWithin (l l' : List Mailpiece) : Prop :=
  l'.length ≤ l.length ∧ (l.dropLast.all (·.closed) = true → l'.dropLast.all (·.closed) = true)
    ∧ (l.all (·.closed) = true → l'.all (·.closed) = true)

@[simp] theorem TableWithin.refl (l : List Mailpiece) : TableWithin l l := ⟨Nat.le_refl _, id, id⟩

theorem TableWithin.trans {a b c : List Mailpiece} (hab : TableWithin a b) (hbc : TableWithin b c) : TableWithin a c :=
  ⟨Nat.le_trans hbc.1 hab.1, hbc.2.1 ∘ hab.2.1, hbc.2.2 ∘ hab.2.2⟩

/-- An update that opens no record. -/
theorem tableWithin_map {f : Mailpiece → Mailpiece} (hf : ∀ m, m.closed = true → (f m).closed = true)
    (l : List Mailpiece) : TableWithin l (l.map f) := by
  have hall : ∀ l : List Mailpiece, l.all (·.closed) = true → (l.map f).all (·.closed) = true := fun l h => by
    simp only [List.all_map, List.all_eq_true, Function.comp] at h ⊢
    exact fun m hm => hf m (h m hm)
  refine ⟨by simp, fun h => ?_, hall l⟩
  rw [← List.map_dropLast]
  exact hall _ h

theorem tableWithin_map_if {p : Mailpiece → Prop} [DecidablePred p] {f : Mailpiece → Mailpiece}
    (hf : ∀ m, m.closed = true → (f m).closed = true) (l : List Mailpiece) :
    TableWithin l (l.map fun m => if p m then f m else m) :=
  tableWithin_map (fun m hm => by split <;> simp_all) l

theorem dropLast_append_last {α : Type} {l : List α} {a : α} (h : l.getLast? = some a) : l = l.dropLast ++ [a] := by
  obtain ⟨init, rfl⟩ := List.getLast?_eq_some_iff.mp h
  rw [List.dropLast_concat]

theorem tableWithin_filter (p : Mailpiece → Bool) (l : List Mailpiece) : TableWithin l (l.filter p) := by
  have hall : ∀ l : List Mailpiece, l.all (·.closed) = true → (l.filter p).all (·.closed) = true := fun l h => by
    simp only [List.all_eq_true, List.mem_filter] at h ⊢
    exact fun m hm => h m hm.1
  refine ⟨List.length_filter_le p l, fun h => ?_, hall l⟩
  cases hl : l.getLast? with
  | none => simp_all
  | some m =>
    have hsplit : l = l.dropLast ++ [m] := dropLast_append_last hl
    have hd := hall _ h
    rw [hsplit, List.filter_append]
    by_cases hp : p m = true
    · simpa [List.filter_cons, hp] using hd
    · have hlast := List.dropLast_subset (l.dropLast.filter p)
      simp only [List.all_eq_true] at hd ⊢
      simp only [List.filter_cons, hp, Bool.false_eq_true, if_false, List.filter_nil, List.append_nil]
      exact fun x hx => hd x (hlast hx)

/-! ## The whole part -/

/-- No table, queue, stack or ring of the second state is larger than in the first, no mailpiece is opened, and what the
installed configuration fixes is unchanged. -/
def Within (s t : State) : Prop :=
  t.fetch.window.length ≤ s.fetch.window.length ∧ t.fetch.stack.length ≤ s.fetch.stack.length
    ∧ TableWithin s.mail.table t.mail.table
    ∧ (t.mail.waitingOpen = s.mail.waitingOpen ∨ t.mail.waitingOpen = none)
    ∧ t.sheetIds.length ≤ s.sheetIds.length ∧ t.launch.schedule.length ≤ s.launch.schedule.length
    ∧ t.track.fifo.length ≤ s.track.fifo.length ∧ t.mem.queue.length ≤ s.mem.queue.length
    ∧ t.clock.ring.Sublist s.clock.ring ∧ t.config = s.config ∧ t.clock.loopUnusable = s.clock.loopUnusable
    ∧ t.mail.purgeFull = s.mail.purgeFull ∧ t.mail.purgeCount = s.mail.purgeCount
    ∧ t.retire.retired = s.retire.retired ∧ t.retire.batching = s.retire.batching

@[simp] theorem Within.refl (s : State) : Within s s := by simp [Within]

theorem Within.trans {s t u : State} (hst : Within s t) (htu : Within t u) : Within s u := by
  obtain ⟨a1, a2, a3, a4, a5, a6, a7, a8, a9, a10, a11, a12, a13, a14, a15⟩ := hst
  obtain ⟨b1, b2, b3, b4, b5, b6, b7, b8, b9, b10, b11, b12, b13, b14, b15⟩ := htu
  refine ⟨Nat.le_trans b1 a1, Nat.le_trans b2 a2, a3.trans b3, ?_, Nat.le_trans b5 a5, Nat.le_trans b6 a6, Nat.le_trans b7 a7, Nat.le_trans b8 a8, b9.trans a9,
    b10.trans a10, b11.trans a11, b12.trans a12, b13.trans a13, b14.trans a14, b15.trans a15⟩
  obtain hb | hb := b4
  · rw [hb]
    exact a4
  · exact .inr hb

theorem Within.ite {s t u : State} {p : Prop} [Decidable p] (ht : Within s t) (hu : Within s u) :
    Within s (if p then t else u) := by
  split <;> assumption

theorem within_foldl {α : Type} {f : State → α → State} (hf : ∀ s a, Within s (f s a)) :
    (l : List α) → (s : State) → Within s (l.foldl f s)
  | [], s => .refl s
  | a :: l, s => (hf s a).trans (within_foldl hf l (f s a))

section
variable (s : State)

/-! ### Updates of one table -/

theorem within_updMp {f : Mailpiece → Mailpiece} (hf : ∀ m, m.closed = true → (f m).closed = true) (id : Nat) :
    Within s (s.updMp id f) := by
  simpa [Within, sheetIds] using tableWithin_map_if (p := fun m => m.id = id) hf s.mail.table

theorem within_updEntry (id : Nat) (f : Entry → Entry) : Within s (s.updEntry id f) := by
  simp [Within, sheetIds]

theorem within_setEntry (id : Nat) (st : EntryState) (r : Result) (why : Option Reason) :
    Within s (s.setEntry id st r why) := by
  simp [Within, sheetIds]

theorem within_updBin (b : Bin) (f : BinCounts → BinCounts) : Within s (s.updBin b f) := by
  simp [Within, sheetIds]

theorem within_updSheet {f : Sheet → Sheet} (hf : ∀ x, (f x).id = x.id) (id : Nat) : Within s (s.updSheet id f) := by
  simp [Within, hf]

theorem within_onLaunch {f : Launch → Launch} (hf : (f s.launch).schedule = s.launch.schedule) :
    Within s (s.onLaunch f) := by
  simp [Within, sheetIds, hf]

theorem within_onCtl (f : Control → Control) : Within s (s.onCtl f) := by
  simp [Within, sheetIds]

theorem within_onTransport (f : Transport → Transport) : Within s (s.onTransport f) := by
  simp [Within, sheetIds]

theorem within_onJam (f : Jam → Jam) : Within s (s.onJam f) := by
  simp [Within, sheetIds]

theorem within_onRetire {f : Retire → Retire}
    (hf : (f s.retire).retired = s.retire.retired ∧ (f s.retire).batching = s.retire.batching) :
    Within s (s.onRetire f) := by
  simp [Within, sheetIds, hf]

theorem within_freeSheet (track : Nat) : Within s (s.freeSheet track) := by
  have hlen := List.length_filter_le (fun i => !decide (i = track)) s.sheetIds
  have hfifo : (s.freeSheet track).track.fifo.length = s.track.fifo.length := by simp [freeSheet]
  simp [Within, hlen, hfifo]

theorem within_releaseReturn (track : Nat) : Within s (s.releaseReturn track) := by
  simp [Within, sheetIds, releaseReturn]

/-! ### The Mailpiece Unit (R57 to R73) -/

theorem within_countTaken (m : Nat) : Within s (s.countTaken m) :=
  within_updMp s (by simp_all) m

theorem within_skipCandidate (m : Nat) : Within s (s.skipCandidate m) := by
  unfold skipCandidate
  split
  · exact .ite (((within_setEntry s _ _ _ _).trans (within_onLaunch _ rfl)).trans (within_countTaken _ _)) (.refl s)
  · exact .refl s

theorem within_releaseReservation (m : Mailpiece) : Within s (s.releaseReservation m) := by
  simp [Within, sheetIds]

theorem within_markMailpieceSheets (m : Nat) : Within s (s.markMailpieceSheets m) := by
  simp [Within]

theorem within_enterPurging (m : Nat) (why : Reason) : Within s (s.enterPurging m why) := by
  unfold enterPurging
  split
  · exact .refl s
  · exact .ite ((((within_updMp s (by simp) m).trans (within_markMailpieceSheets _ m)).trans
      (within_releaseReservation _ _)).trans (within_skipCandidate _ m)) (.refl s)

theorem within_closeMp (m : Nat) : Within s (s.closeMp m) := within_updMp s (by simp) m

theorem within_closeShort (m : Mailpiece) : Within s (s.closeShort m) :=
  (Within.ite (within_enterPurging s _ _) (.refl s)).trans (within_closeMp _ _)

theorem within_skipSheet (e : Entry) (m : Nat) : Within s (s.skipSheet e m) :=
  (within_setEntry s _ _ _ _).trans (within_countTaken _ _)

theorem within_assignSheet (e : Entry) : Within s (s.assignSheet e) := by
  unfold assignSheet
  split
  · exact within_setEntry s _ _ _ _
  · split
    · exact within_skipSheet s _ _
    · split
      · exact (((within_setEntry s _ _ _ _).trans (within_updMp _ (by simp) _)).trans (within_enterPurging _ _ _)).trans
          (within_updMp _ (by simp_all) _)
      · exact within_onLaunch s rfl

theorem within_reserveBin (m : Mailpiece) (b : Bin) : Within s (s.reserveBin m b) :=
  (within_updMp s (by simp) _).trans (within_updBin _ _ _)

theorem within_binCheck : Within s s.binCheck.1 := by
  unfold binCheck
  split
  · exact .refl s
  · split
    · exact .refl s
    · split
      · exact within_reserveBin s _ _
      · exact .refl s

theorem within_checks1to4 : Within s s.checks1to4.1 := by
  have h := within_binCheck s
  unfold checks1to4
  split
  · exact .refl s
  · dsimp only
    repeat' split
    all_goals exact h

theorem within_reportStacked (m : Nat) (b : Bin) : Within s (s.reportStacked m b) :=
  (within_updBin s _ _).trans (within_updMp _ (by simp) _)

theorem within_reportLost (x : Sheet) : Within s (s.reportLost x) := by
  have h := within_updMp s (f := fun r => { r with lost := r.lost + 1 }) (by simp) x.mp
  unfold reportLost
  dsimp only
  split
  · exact h.trans (within_updBin _ _ _)
  · exact h

theorem within_settleMp (jam : Bool) (m : Mailpiece) : Within s (s.settleMp jam m) :=
  .ite ((within_updMp s (by simp) _).trans (within_setEntry _ _ _ _ _)) (.refl s)

theorem within_settleMailpieces (jam : Bool) : Within s (s.settleMailpieces jam) :=
  within_foldl (fun u m => within_settleMp u jam m) _ s

theorem within_giveMark (track : Nat) (why : Reason) : Within s (s.giveMark track why) := by
  unfold giveMark
  split
  · exact .refl s
  · exact .ite ((within_updSheet s (f := fun x => { x with purge := some why }) (fun _ => rfl) track).trans
      (within_enterPurging _ _ _)) (.refl s)

/-! ### Control, the transport and the Order Fetch Unit (R8 to R16, R47, R160 to R162) -/

theorem within_haltSections (named : PerSection Bool) : Within s (s.haltSections named) := by
  simp [Within]

theorem within_stopOrder (named : PerSection Bool) : Within s (s.stopOrder named) := by
  simp [Within]

theorem within_runOutOrder : Within s s.runOutOrder := by
  simp [Within, sheetIds]

theorem within_runUpOrder : Within s s.runUpOrder := by
  simp [Within, sheetIds]

theorem within_settlePause : Within s s.settlePause := by
  unfold settlePause
  split
  · exact .refl s
  · exact (within_updEntry s _ _).trans (within_onCtl _ _)

theorem within_setState (c : ControllerState) : Within s (s.setState c) := within_onCtl s _

theorem within_setAttn (f : AttnFlag) : Within s (s.setAttn f) := within_onCtl s _

theorem within_enterHalted : Within s s.enterHalted :=
  ((((within_setState s _).trans (within_haltSections _ _)).trans (within_runOutOrder _)).trans
    (within_settlePause _)).trans (within_setAttn _ _)

theorem within_enterDraining : Within s s.enterDraining :=
  .ite ((within_setState s _).trans (within_enterHalted _)) (within_setState s _)

theorem within_considerStandby : Within s s.considerStandby := by
  simp [Within, sheetIds]

theorem within_askWake : Within s s.askWake := by
  simp [Within, sheetIds]

theorem within_settleCalls : Within s s.settleCalls := by
  simp [Within, sheetIds, settleCalls]

theorem within_removeHead {e : Entry} {rest : List Entry} (hw : s.fetch.window = e :: rest) :
    Within s (s.removeHead e rest) := by
  have hbase : Within s ((s.onFetch fun u => { u with window := rest }).onRetire fun u => { u with step := none }) := by
    simp [Within, sheetIds, hw]
  refine hbase.trans (.ite (Within.trans ?_ (within_askWake _)) (.refl _))
  simpa [Within, sheetIds] using tableWithin_filter (fun m => !decide (m.openRef = e.id)) s.mail.table

theorem within_sequenceFault : Within s s.sequenceFault := by
  unfold sequenceFault
  refine Within.trans ?_ (within_setAttn _ _)
  split
  · exact within_updEntry s _ _
  · exact .refl s

theorem within_setPos (p : FetchPos) : Within s (s.setPos p) := by
  simp [Within, sheetIds]

theorem within_beginReturn : Within s s.beginReturn := by
  unfold beginReturn
  split
  · exact .refl s
  · exact within_setPos s _

theorem within_leaveSequence (block : Word) : Within s (s.leaveSequence block) := by
  unfold leaveSequence
  split
  · exact .refl s
  next hstack => simp [Within, sheetIds, hstack]

theorem within_askReread : Within s s.askReread := by
  simp [Within, sheetIds]

/-! ### Launching and skipping (R60, R79 to R89) -/

theorem within_takePause (id : Nat) : Within s (s.takePause id) := by
  have h := (within_setEntry s id .passed .passed none).trans
    (within_onCtl _ fun u => { u with pauseRec := some id })
  exact .ite ((h.trans (within_setState _ _)).trans (within_enterHalted _)) (h.trans (within_enterDraining _))

theorem within_takeCallAtFront (id : Nat) : Within s (s.takeCallAtFront id) := by
  unfold takeCallAtFront
  split
  · exact .ite (within_setEntry s _ _ _ _) (within_setEntry s _ _ _ _)
  · exact within_setEntry s _ _ _ _

theorem within_skipRequests (r : SkipReason) : Within s (s.skipRequests r) := by
  simp [Within, sheetIds]

theorem within_skipAttention (r : SkipReason) : Within s (s.skipAttention r) := by
  simp [Within, sheetIds]

theorem within_closeFullWindow (r : SkipReason) : Within s (s.closeFullWindow r) := by
  unfold closeFullWindow
  split
  · exact .ite (within_closeShort s _) (.refl s)
  · exact .refl s

theorem within_skip (r : SkipReason) : Within s (s.skip r) :=
  ((((((within_onCtl s _).trans (within_onRetire _ ⟨rfl, rfl⟩)).trans (within_onLaunch _ rfl)).trans
    (within_considerStandby _)).trans (within_skipRequests _ _)).trans (within_skipAttention _ _)).trans
    (within_closeFullWindow _ _)

theorem within_evaluateWake : Within s s.evaluateWake := by
  have h : Within s (s.onLaunch fun u => { u with wakeAsked := false }) := within_onLaunch s rfl
  exact .ite (.ite (.ite (((h.trans (within_checks1to4 _)).trans (within_setState _ _)).trans (within_runUpOrder _))
    (h.trans (within_checks1to4 _))) h) (.refl s)

theorem within_enterQueue (k : Installed) (track : Nat) (c : Checkpoint) (anchor : Pos) (segment : Nat) :
    Within s (s.enterQueue k track c anchor segment) := by
  simp [Within]

theorem within_issuePick (track : Nat) (latch : PerSection Pos) : Within s (s.issuePick track latch) := by
  have hlen : (s.issuePick track latch).launch.schedule.length ≤ s.launch.schedule.length := by
    unfold issuePick
    split
    · simpa using List.length_filter_le _ _
    · exact Nat.le_refl _
  simp [Within, hlen]

/-! ### Jams (R142 to R154) -/

theorem within_dropPick (q : Pick) : Within s (s.dropPick q) := by
  unfold dropPick
  split
  · exact .refl s
  · exact ((((within_freeSheet s _).trans (within_releaseReturn _ _)).trans (within_updMp _ (by simp) _)).trans
      (within_onRetire _ ⟨rfl, rfl⟩)).trans (within_updEntry _ _ _)

theorem within_dropPicks : Within s s.dropPicks := by
  unfold dropPicks
  refine (within_foldl within_dropPick s.launch.schedule s).trans ?_
  simp [Within, sheetIds]

theorem within_freeze (x : Nat) : Within s (s.freeze x) :=
  (within_updSheet s (f := fun r => { r with state := .frozen }) (fun _ => rfl) x).trans (within_onTransport _ _)

theorem within_freezeWhere (p : Sheet → Bool) : Within s (s.freezeWhere p) :=
  within_foldl (f := fun u (x : Sheet) => u.freeze x.id) (fun u x => within_freeze u x.id) _ s

theorem within_setInterrupted : Within s s.setInterrupted := by
  simpa [Within, sheetIds, setInterrupted] using
    tableWithin_map (f := fun m => { m with interrupted := s.becomesInterrupted m }) (by simp) s.mail.table

theorem within_markJam : Within s s.markJam := by
  unfold markJam
  refine Within.trans ?_ (within_foldl (fun u x => within_enterPurging u _ _) _ _)
  simp [Within, sheetIds]

theorem within_sumIntoCaller (order : Nat) (f : Summary → Summary) : Within s (s.sumIntoCaller order f) := by
  unfold sumIntoCaller
  split
  · exact within_updEntry s _ _
  · exact .refl s

theorem within_settleLost (x : Sheet) : Within s (s.settleLost x) :=
  (((((within_onJam s _).trans (within_reportLost _ x)).trans (within_onRetire _ ⟨rfl, rfl⟩)).trans
    (within_setEntry _ _ _ _ _)).trans (within_sumIntoCaller _ _ _)).trans
    ((within_releaseReturn _ _).trans (within_freeSheet _ _))

theorem within_assignResume (r : ResumePoint) : Within s (s.assignResume r) := by
  simp [Within]

theorem within_discardTail (r : ResumePoint) : Within s (s.discardTail r) := by
  unfold discardTail
  split
  · exact .refl s
  next _ id _ =>
    have hlen := (List.takeWhile_sublist (fun e : Entry => decide (e.id ≠ id)) (l := s.fetch.window)).length_le
    have htable := tableWithin_filter
      (fun m => (s.fetch.window.takeWhile (·.id ≠ id)).any (·.id == m.openRef)) s.mail.table
    simp_all [Within, sheetIds]

theorem within_clearFetch : Within s s.clearFetch := by
  simp [Within, clearFetch, sheetIds]

theorem within_settleOrders : Within s s.settleOrders := by
  simp [Within, sheetIds, settleOrders]

theorem within_closeMailpieces : Within s s.closeMailpieces := by
  unfold closeMailpieces
  refine Within.trans ?_ ((within_foldl (fun u m => within_enterPurging u _ _) _ _).trans (within_settleMailpieces _ _))
  simpa [Within, sheetIds] using tableWithin_map (f := fun m => { m with closed := true }) (by simp) s.mail.table

theorem within_jammedEntry : Within s s.jammedEntry :=
  ((within_stopOrder s _).trans (within_haltSections _ _)).trans <|
    (within_foldl within_settleLost _ _).trans <|
    (within_assignResume _ _).trans <| (within_discardTail _ _).trans <| (within_clearFetch _).trans <|
    (within_settleOrders _).trans <| (within_settleCalls _).trans <| (within_onJam _ _).trans <|
    (within_closeMailpieces _).trans (within_setState _ _)

theorem within_endOfDrain : Within s s.endOfDrain := .ite (within_jammedEntry s) (.refl s)

theorem within_secondaryJam (r : Report) : Within s (s.secondaryJam r) :=
  (within_onJam s _).trans <| (within_stopOrder _ _).trans <| (within_haltSections _ _).trans <|
    (within_freezeWhere _ _).trans <| (within_setInterrupted _).trans (within_jammedEntry _)

/-! ### The exit, the answers and the end of an event (R53, R114 to R125) -/

theorem within_tellCommit (x : Sheet) (d : Dest) (failure : Option Reason) : Within s (s.tellCommit x d failure) := by
  unfold tellCommit
  split
  · exact within_enterPurging s _ _
  · exact within_updMp s (by simp) _
  · exact .refl s

theorem within_moveToDest (k : Installed) (x : Sheet) (anchor : Pos) (d : Dest) :
    Within s (s.moveToDest k x anchor d) := by
  simp [Within]

theorem within_onExit (f : ExitUnit → ExitUnit) : Within s (s.onExit f) := by
  simp [Within]

theorem within_commit (k : Installed) (x : Sheet) (anchor : Pos) : Within s (s.commit k x anchor) := by
  rcases hd : chooseDest k s x with ⟨d, failure⟩
  simp only [commit, hd]
  refine Within.trans ?_ ((within_moveToDest _ _ _ _ _).trans (within_tellCommit _ _ _ _))
  exact Within.trans (within_updSheet s (by intro; rfl) _) (within_onExit _ _)

theorem within_settleSheetOrder (x : Sheet) (d : Dest) : Within s (s.settleSheetOrder x d) := by
  cases d <;> exact (within_setEntry s _ _ _ _).trans (within_sumIntoCaller _ _ _)

theorem within_afterSettlement (wasFull : Bool) : Within s (s.afterSettlement wasFull) := by
  have hfull (u : State) :
      Within u (if u.mail.purgeFull ∧ wasFull = false ∧ u.ctl.state = .running then u.enterDraining else u) :=
    .ite (within_enterDraining u) (.refl u)
  have hdrained (u : State) :
      Within u (if u.ctl.state = .draining ∧ u.track.sheets.isEmpty then u.enterHalted else u) :=
    .ite (within_enterHalted u) (.refl u)
  exact (within_settleMailpieces s false).trans <| (hfull _).trans <| (within_considerStandby _).trans <|
    (hdrained _).trans (within_endOfDrain _)

theorem within_issueReads : Within s s.issueReads := by
  simp [Within, sheetIds]

theorem within_grant : Within s s.grant := by
  simp [Within, sheetIds]

theorem within_answerDone : Within s s.answerDone := by
  have h : s.answerDone.track.fifo.length ≤ s.track.fifo.length := by
    unfold answerDone
    split
    · exact Nat.le_refl _
    next hfifo => dsimp only; split <;> simp [hfifo]
  simp [Within, h]

theorem within_answerFault : Within s s.answerFault := by
  unfold answerFault
  split
  · exact .refl s
  next t rest hfifo =>
    have hpop : Within s (s.onTrack fun u => { u with fifo := rest }) := by simp [Within, hfifo]
    exact hpop.trans (.ite ((within_updSheet _ (f := fun r => { r with transfer := .faulted }) (fun _ => rfl) _).trans
      (within_giveMark _ _ _)) (.refl _))

end

end Sys2Proof.Machine.State
end

section
/-! PROOFS. The few updates under which a table, queue or stack can grow or what the configuration fixes can change: what
they keep, and every update within bounds keeps, the commands keep (for O58, O59, O60). -/

namespace Sys2Proof.Machine

open State

/-! ## Closing short leaves no current mailpiece (R57) -/

theorem skipCandidate_ids (m : Nat) (s : State) :
    (s.skipCandidate m).mail.table.map (·.id) = s.mail.table.map (·.id) := by
  unfold skipCandidate
  split
  · split
    · simp only [countTaken, updMp_def, onMail_mail, List.map_map, onLaunch_mail, setEntry_def, updEntry_def,
        onFetch_mail]
      exact List.map_congr_left fun r _ => by simp only [Function.comp]; split <;> rfl
    · rfl
  · rfl

theorem enterPurging_ids (m : Nat) (why : Reason) (s : State) :
    (s.enterPurging m why).mail.table.map (·.id) = s.mail.table.map (·.id) := by
  unfold enterPurging
  split
  · rfl
  · split
    · rw [skipCandidate_ids]
      simp only [releaseReservation_frame, markMailpieceSheets_frame, updMp_def, onMail_mail, List.map_map]
      exact List.map_congr_left fun r _ => by simp only [Function.comp]; split <;> rfl
    · rfl

theorem currentMp_eq_some_iff {s : State} {m : Mailpiece} :
    s.currentMp = some m ↔ s.mail.table.getLast? = some m ∧ m.closed = false := by
  unfold currentMp
  split
  next m' hlast => cases hc : m'.closed <;> simp_all <;> rintro rfl <;> simp_all
  next hnone => simp [hnone]

theorem currentMp_eq_none_iff {s : State} :
    s.currentMp = none ↔ ∀ m, s.mail.table.getLast? = some m → m.closed = true := by
  unfold currentMp
  split
  next m hlast => simp [hlast]
  next hnone => simp [hnone]

/-- The record most recently allocated, once closed short, is current no more. -/
theorem currentMp_closeShort {s : State} {m : Mailpiece} (h : s.currentMp = some m) :
    (s.closeShort m).currentMp = none := by
  obtain ⟨hlast, -⟩ := currentMp_eq_some_iff.mp h
  have hids (u : State) (hu : u.mail.table.map (·.id) = s.mail.table.map (·.id)) : (u.closeMp m.id).currentMp = none := by
    rw [currentMp_eq_none_iff]
    intro r hr
    simp only [closeMp, updMp_def, onMail_mail, List.getLast?_map, Option.map_eq_some_iff] at hr
    obtain ⟨q, hq, rfl⟩ := hr
    have hid := congrArg List.getLast? hu
    simp only [List.getLast?_map, hq, hlast, Option.map_some, Option.some.injEq] at hid
    simp [hid]
  unfold closeShort
  split
  · exact hids _ (enterPurging_ids _ _ s)
  · exact hids s rfl

theorem within_emit (o : Output) (s : State) : Within s (s.emit o) := by simp [Within]

/-! ## The growing updates -/

/-- A property is kept by every update within bounds and by each of the updates that go beyond them. -/
structure UpdatesKeep (P : State → Prop) : Prop where
  within {s t : State} : Within s t → P s → P t
  addEntry (e : Entry) : Keeps P (addEntry e)
  pushFrame (call : Nat) (head : Word) : Keeps P (onFetch fun u =>
    { u with
      outer := if u.stack.isEmpty then some call else u.outer
      stack := if u.stack.length < Config.callStackDepth then ⟨head, call⟩ :: u.stack else u.stack })
  pushWrite (w : Write) {s : State} : s.queueHasRoom = true → P s → P (s.onMem fun u => { u with queue := u.queue ++ [w] })
  acceptOpen (e : Entry) {s : State} : s.mail.waitingOpen.isSome = true ∨ s.currentMp = none → s.tableHasRoom = true →
    P s → P (s.acceptOpen e)
  waitOpen (id : Nat) {s : State} : s.currentMp = none → P s → P (s.onMail fun u => { u with waitingOpen := some id })
  pushTransfer (t : Transfer) {s : State} : s.track.fifo.length < Config.transferFifoSize → P s →
    P (s.onTrack fun u => { u with fifo := u.fifo ++ [t] })
  launchCandidate {k : Installed} {c : Candidate} {p : Word} {s : State} : s.checks5to7 k c p = none → P s →
    P (s.launchCandidate k c p)
  retireAdvance (x : RetireStep) (n : Nat) : Keeps P (retireAdvance x n)
  reportPurged (m : Nat) : Keeps P (reportPurged m)
  unload (d : Dest) : Keeps P (unload d)
  install {b : ConfigBlock} : b.validate = none → Keeps P (install b)
  resetPart (l : PerCheckpoint Bool) (y : PerTray Bool) : Keeps P (resetPart l y)

namespace UpdatesKeep

variable {P : State → Prop} (hP : UpdatesKeep P)
include hP

/-! ### The Order Fetch Unit (R41 to R51) -/

theorem issueWrite (w : Write) (later : HeldSteps) {steps : State → State} (hsteps : Keeps P steps) :
    Keeps P (issueWrite w later steps) := fun s hs => by
  unfold State.issueWrite
  split
  next hroom => exact hsteps _ (hP.pushWrite w hroom hs)
  · exact hP.within (by simp [Within, sheetIds]) hs

theorem tellChainFault : Keeps P tellChainFault := fun s => hP.within ((within_setAttn s _).trans (within_onCtl _ _))

theorem chainFault (src : FaultSource) (bad : Word) : Keeps P (chainFault src bad) := fun s hs =>
  hP.issueWrite _ _ hP.tellChainFault _ (hP.within (within_setPos s _) hs)

theorem follow (src : FaultSource) (addr : Word) : Keeps P (follow src addr) :=
  .ite (c := fun s => s.orderAddrOk addr = true) (fun s => hP.within (within_setPos s _)) (hP.chainFault src addr)

theorem startMainResume : Keeps P startMainResume := fun s hs => by
  unfold State.startMainResume
  split
  · exact hP.within (within_setPos s _) hs
  · exact hP.follow _ _ s hs

theorem switchToMain : Keeps P switchToMain := fun s hs =>
  hP.startMainResume _ (hP.within (by simp [Within, sheetIds]) hs)

theorem followLink (block link : Word) : Keeps P (followLink block link) := fun s hs => by
  unfold State.followLink
  split
  · split
    · exact hP.switchToMain s hs
    · exact hP.within (within_setPos s _) hs
  · exact hP.follow _ _ s hs

theorem refuseCall (call : Nat) (block link : Word) (why : Reason) : Keeps P (refuseCall call block link why) :=
  fun s hs =>
    hP.followLink _ _ _ (hP.within ((within_updEntry s _ _).trans (.ite (.refl _) (within_sequenceFault _))) hs)

theorem enterSequence (call : Nat) (head : Word) (w : OrderWords) : Keeps P (enterSequence call head w) := fun s hs =>
  hP.followLink _ _ _ (hP.addEntry _ _ (hP.pushFrame call head s hs))

theorem takeHead (call : Nat) (head : Word) (w : OrderWords) : Keeps P (takeHead call head w) := fun s hs => by
  unfold State.takeHead
  split
  · exact hs
  · split
    · exact hP.issueWrite _ _ (hP.enterSequence call head w) s hs
    · exact hP.refuseCall _ _ _ _ s hs

theorem takeCall (e : Entry) : Keeps P (takeCall e) := fun s hs => by
  unfold State.takeCall
  dsimp only
  split
  · exact hP.followLink _ _ _ (hP.addEntry _ s hs)
  · split
    · exact hP.refuseCall _ _ _ _ _ (hP.addEntry _ s hs)
    · split
      · exact hP.refuseCall _ _ _ _ _ (hP.addEntry _ s hs)
      · split
        · exact hP.within (within_setPos _ _) (hP.addEntry _ s hs)
        · exact hP.chainFault _ _ _ (hP.addEntry _ s hs)

theorem takeBlock (addr : Word) (w : OrderWords) : Keeps P (takeBlock addr w) := fun s hs => by
  have hadd (e : Entry) : P (s.addEntry e) := hP.addEntry e s hs
  have hlink (e : Entry) : P ((s.addEntry e).followLink addr w.link) := hP.followLink _ _ _ (hadd e)
  unfold State.takeBlock
  dsimp only
  split
  · exact hP.takeCall _ s hs
  · split
    · exact hlink _
    · split
      · split
        · exact hlink _
        · exact hP.within ((Within.ite (.refl _) (within_sequenceFault _)).trans (within_beginReturn _)) (hadd _)
      iterate 3
        split
        · exact hP.within ((within_sequenceFault _).trans (within_beginReturn _)) (hadd _)
        · refine hP.followLink _ _ _ (hP.addEntry _ _ (hP.within (.ite ?_ (.refl s)) hs))
          simp [Within, sheetIds]
      all_goals exact hlink _

theorem takeFetched (w : OrderWords) : Keeps P (takeFetched w) := fun s hs => by
  unfold State.takeFetched
  split
  · exact hP.takeBlock _ _ s hs
  · exact hP.takeHead _ _ _ s hs
  all_goals exact hs

theorem takeCandidateReady (v : Word) : Keeps P (takeCandidateReady v) := fun s hs => by
  have hended : Within s (s.onLaunch fun u => { u with candRead := none }) := within_onLaunch s rfl
  unfold State.takeCandidateReady
  dsimp only
  split
  · exact hP.within (.ite (hended.trans ((within_updEntry _ _ _).trans (within_askWake _)))
      (hended.trans (within_askWake _))) hs
  · exact hP.within hended hs

theorem takeReturnLink (v : Word) : Keeps P (takeReturnLink v) := fun s hs => by
  unfold State.takeReturnLink
  split
  · split
    · exact hP.within (within_leaveSequence s _) hs
    · exact hP.chainFault _ _ s hs
  all_goals exact hs

theorem takeContinuation (v : Word) : Keeps P (takeContinuation v) := fun s hs => by
  unfold State.takeContinuation
  split
  · exact hP.followLink _ _ _ (hP.within (within_updEntry s _ _) hs)
  all_goals exact hs

theorem takeTail (v : Word) : Keeps P (takeTail v) := fun s hs => by
  unfold State.takeTail
  split
  · split
    · exact hs
    · exact hP.follow _ _ _ (hP.within (by simp [Within, sheetIds]) hs)
  all_goals exact hs

theorem takeFaultSource (v : Word) : Keeps P (takeFaultSource v) := fun s hs => by
  have hpos (p : FetchPos) : P (s.setPos p) := hP.within (within_setPos s p) hs
  unfold State.takeFaultSource
  split
  next _ src _ =>
    cases src with
    | link | controlWord2 =>
      dsimp only
      split
      · exact hpos _
      · exact hP.follow _ _ s hs
    | controlWord3 =>
      dsimp only
      split
      · exact hP.switchToMain s hs
      · exact hP.follow _ _ s hs
    | callHead =>
      dsimp only
      split
      · exact hpos _
      · exact hP.chainFault _ _ s hs
    | returnLink =>
      dsimp only
      split
      · exact hP.within (within_leaveSequence s _) hs
      · exact hP.chainFault _ _ s hs
    | value => exact hs
  all_goals exact hs

theorem extendFetch : Keeps P extendFetch := fun s hs => by
  unfold State.extendFetch
  split
  · exact hP.within (within_askReread s) hs
  · exact hP.follow _ _ s hs
  · split
    · exact hs
    · exact hP.within (by simp [Within, sheetIds]) hs
  all_goals exact hs

theorem startFromWord2 (v : Word) : Keeps P (startFromWord2 v) := fun s hs => by
  unfold State.startFromWord2
  split
  · exact hP.within (within_setPos s _) hs
  · exact hP.follow _ _ s hs

theorem startFromWord3 (v : Word) : Keeps P (startFromWord3 v) := fun s hs => by
  unfold State.startFromWord3
  split
  · exact hP.switchToMain s hs
  · exact hP.follow _ _ s hs

/-! ### Retirement and the stop record (R128 to R137, R154) -/

theorem retireMove {s t : State} (hs : P s) (ht : s.retireMove = some t) : P t := by
  unfold State.retireMove at ht
  split at ht
  · cases ht
  next e rest hwindow =>
    split at ht
    · cases ht
    · split at ht
      · rw [Option.some.injEq] at ht
        exact ht ▸ hP.within (within_removeHead s hwindow) hs
      · split at ht
        · rw [Option.some.injEq] at ht
          exact ht ▸ hP.issueWrite _ _ .id _ (hP.retireAdvance _ _ s hs)
        · rw [Option.some.injEq] at ht
          exact ht ▸ hP.within (within_removeHead s hwindow) hs

theorem retireLoop (n : Nat) : Keeps P (retireLoop n) := by
  induction n with
  | zero => exact .id
  | succ n ih =>
    intro s hs
    unfold State.retireLoop
    split
    · exact hs
    next hmove => exact ih _ (hP.retireMove hs hmove)

theorem issueStopRecord (l : List Write) : Keeps P (issueStopRecord l) := by
  induction l with
  | nil => exact fun s => hP.within (within_onJam s _)
  | cons w rest ih => exact hP.issueWrite _ _ ih

theorem beginStopRecord : Keeps P beginStopRecord := fun s hs => by
  unfold State.beginStopRecord
  split
  · exact hP.issueStopRecord _ _ (hP.within (within_onJam s _) hs)
  · exact hs

theorem settleBooks : Keeps P settleBooks := fun s hs =>
  hP.beginStopRecord _ (hP.retireLoop _ _
    (hP.within ((within_settleCalls s).trans (within_settleMailpieces _ _)) hs))

/-! ### Jams (R141 to R148) -/

theorem primaryJam (r : Report) : Keeps P (primaryJam r) := fun s hs => by
  refine hP.issueWrite _ _ (fun u => hP.within (within_endOfDrain u)) _ (hP.within ?_ hs)
  have hrecord : Within s (s.recordPrimary r) := within_onJam s _
  have hdiscard (u : State) : Within u u.discardRead := by simp [Within, sheetIds]
  exact hrecord.trans <| (within_onCtl _ _).trans <| (within_setAttn _ _).trans <| (hdiscard _).trans <|
    (within_stopOrder _ _).trans <| (within_haltSections _ _).trans <| (within_dropPicks _).trans <|
    (within_freezeWhere _ _).trans <| (within_setInterrupted _).trans (within_markJam _)

theorem report (r : Report) : Keeps P (report r) := fun s hs => by
  unfold State.report
  split
  case h_4 => exact hP.within (within_secondaryJam s r) hs
  all_goals first | exact hP.primaryJam r s hs | exact hs

theorem pathFault (cause : Cause) (c : Checkpoint) (sheet : Option Nat) (counts : PerSection Pos) :
    Keeps P (pathFault cause c sheet counts) := fun s hs =>
  hP.report _ _ (hP.within (within_haltSections s _) hs)

/-! ### Orders at the front and the launch decision (R58, R75 to R89) -/

theorem takeOpen (e : Entry) : Keeps P (takeOpen e) := fun s hs => by
  have hopen (u : State) (hu : P u) (hcur : u.currentMp = none) :
      P (match u.openRefusal e.words with
        | some why => u.setEntry e.id .settled .refused (some why)
        | none =>
          if u.tableHasRoom then u.acceptOpen e else u.onMail fun v => { v with waitingOpen := some e.id }) := by
    split
    · exact hP.within (within_setEntry u _ _ _ _) hu
    · split
      next hroom => exact hP.acceptOpen e (.inr hcur) hroom hu
      · exact hP.waitOpen _ hcur hu
  unfold State.takeOpen
  cases hcur : s.currentMp with
  | none => exact hopen s hs hcur
  | some m => exact hopen _ (hP.within (within_closeShort s m) hs) (currentMp_closeShort hcur)

theorem handleFront (e : Entry) : Keeps P (handleFront e) := fun s hs => by
  unfold State.handleFront
  split
  · exact hP.within (within_updEntry s _ _) hs
  · split
    · exact hP.within (within_setEntry s _ _ _ _) hs
    · cases e.kind with
      | mpOpen => exact hP.takeOpen e s hs
      | sheet => exact hP.within (within_assignSheet s e) hs
      | call => exact hP.within (within_takeCallAtFront s _) hs
      | pause => exact hP.within (within_takePause s _) hs
      | head | ret | nop | unknown => exact hP.within (within_setEntry s _ _ _ _) hs

theorem takeFront {s t : State} (hs : P s) (ht : s.takeFront = some t) : P t := by
  have hask : P s.askWake := hP.within (within_askWake s) hs
  unfold State.takeFront at ht
  split at ht
  · split at ht
    · cases ht
    · split at ht
      · cases ht
      · split at ht
        next hwaiting =>
          split at ht
          next hroom =>
            rw [Option.some.injEq] at ht
            exact ht ▸ hP.acceptOpen _ (.inl (by simp [hwaiting])) (by simpa [tableHasRoom] using hroom) hask
          · cases ht
        · rw [Option.some.injEq] at ht
          exact ht ▸ hP.handleFront _ _ hask
  · cases ht

theorem frontLoop (n : Nat) : Keeps P (frontLoop n) := by
  induction n with
  | zero => exact .id
  | succ n ih =>
    intro s hs
    unfold State.frontLoop
    split
    · exact hs
    next hfront => exact ih _ (hP.settleBooks _ (hP.takeFront hs hfront))

theorem decideLaunch (k : Installed) (p : Word) : Keeps P (decideLaunch k p) := fun s hs => by
  unfold State.decideLaunch
  split
  · exact hs
  · split
    · exact hP.within (within_skip s _) hs
    next hchecks => exact hP.launchCandidate hchecks hs

theorem launchDecision : Keeps P launchDecision := fun s hs => by
  unfold State.launchDecision
  split
  · exact hs
  · dsimp only
    split
    · split
      · exact hP.within ((within_checks1to4 s).trans (within_skip _ _)) hs
      · exact hP.decideLaunch _ _ _ (hP.within (within_checks1to4 s) hs)
    · exact hs

/-! ### The path (R98 to R125) -/

theorem transferAtReg (x : Sheet) : Keeps P (transferAtReg x) := fun s hs => by
  have hset (u : State) (t : TransferState) : Within u (u.updSheet x.id fun r => { r with transfer := t }) :=
    within_updSheet u (by intro; rfl) _
  unfold State.transferAtReg
  dsimp only
  split
  · exact hP.within (hset s _) hs
  · split
    · exact hP.within (hset s _) hs
    · split
      · exact hP.within ((hset s _).trans (within_giveMark _ _ _)) hs
      · split
        · exact hP.within ((hset s _).trans (within_giveMark _ _ _)) hs
        next hfull =>
          have hpush := hP.pushTransfer ⟨x.id, true⟩ (Nat.not_le.mp hfull) hs
          exact hP.within ((hset _ .outstanding).trans (within_emit _ _)) hpush

theorem endSide2Check (x : Sheet) : Keeps P (endSide2Check x) := fun s =>
  hP.within (.ite (within_updSheet s (by intro; rfl) _) (.refl s))

theorem workAtFus (x : Sheet) : Keeps P (workAtFus x) := fun s => by
  have habandon : Within s (s.onTrack fun u => { u with
      fifo := u.fifo.map fun t => if t.track = x.id then { t with live := false } else t }) := by
    simp [Within, sheetIds]
  have hd1 (u : State) (d : D1) : Within u (u.onTrack fun v => { v with d1 := d }) := by simp [Within]
  exact hP.within ((Within.ite ((habandon.trans (within_updSheet _ (f := fun r => { r with transfer := .abandoned })
    (fun _ => rfl) _)).trans (within_giveMark _ _ _)) (.refl s)).trans (hd1 _ _))

theorem workAtInv (x : Sheet) : Keeps P (workAtInv x) := fun s =>
  hP.within (.ite (by simp [Within]) (.refl s))

theorem workAtMrg (x : Sheet) : Keeps P (workAtMrg x) := fun s =>
  hP.within (.ite ((within_updSheet s (f := fun r => { r with pass2 := true }) (fun _ => rfl) _).trans
    (within_releaseReturn _ _)) (.refl s))

theorem checkpointWork (c : Checkpoint) (x : Sheet) : Keeps P (checkpointWork c x) := by
  cases c with
  | mrg => exact hP.workAtMrg x
  | reg => exact (hP.transferAtReg x).comp (hP.endSide2Check x)
  | fus => exact hP.workAtFus x
  | inv => exact hP.workAtInv x
  | fd | rtn | mrk | stk | prg => exact .id

theorem reanchor (k : Installed) (c : Checkpoint) (id : Nat) (latch : PerSection Pos) : Keeps P (reanchor k c id latch) :=
  fun s hs => by
    unfold State.reanchor
    split
    · exact hs
    · split
      · exact hP.within (within_enterQueue s _ _ _ _ _) hs
      · exact hP.within (within_updSheet s (by intro; rfl) _) hs

theorem checkCommitted (c : Checkpoint) (id : Nat) (latch : PerSection Pos) : Keeps P (checkCommitted c id latch) :=
  fun s hs => by
    unfold State.checkCommitted
    split
    · split
      · exact hs
      · exact hP.pathFault _ _ _ _ s hs
    · exact hs

theorem onTime (k : Installed) (c : Checkpoint) (x : Sheet) (latch : PerSection Pos) : Keeps P (onTime k c x latch) :=
  fun s hs => by
    unfold State.onTime
    split
    · exact hP.pathFault _ _ _ _ s hs
    · refine hP.checkCommitted _ _ _ _ (hP.reanchor _ _ _ _ _ (hP.checkpointWork _ _ _ (hP.within ?_ hs)))
      simp [Within]

theorem matchLeading (c : Checkpoint) (latch : PerSection Pos) : Keeps P (matchLeading c latch) := fun s hs => by
  unfold State.matchLeading
  split
  · split
    · split
      · exact hP.pathFault _ _ _ _ s hs
      · exact hP.onTime _ _ _ _ s hs
      · exact hP.pathFault _ _ _ _ s hs
    · exact hP.pathFault _ _ _ _ s hs
  · exact hP.pathFault _ _ _ _ s hs

theorem leadingEdge (c : Checkpoint) : Keeps P (leadingEdge c) := fun s hs => by
  have hset : P (s.setSensor c true) := hP.within (within_onTransport s _) hs
  unfold State.leadingEdge
  split
  · exact hs
  · dsimp only
    split
    · exact hP.matchLeading _ _ _ hset
    · exact hset

theorem settleSheet (x : Sheet) (d : Dest) : Keeps P (settleSheet x d) := fun s hs => by
  refine hP.within ((within_settleSheetOrder _ x d).trans ((within_freeSheet _ _).trans (within_afterSettlement _ _))) ?_
  cases d with
  | stk b => exact hP.within ((within_reportStacked s _ _).trans (within_onRetire _ ⟨rfl, rfl⟩)) hs
  | prg => exact hP.within (within_onRetire _ ⟨rfl, rfl⟩) (hP.reportPurged _ s hs)

theorem afterOccupancy (k : Installed) (c : Checkpoint) (x : Sheet) (o : Occupancy) (latch : PerSection Pos) :
    Keeps P (afterOccupancy k c x o latch) := fun s hs => by
  unfold State.afterOccupancy
  dsimp only
  split
  · exact hP.within (.ite (.refl s) (within_giveMark s _ _)) hs
  · split
    · exact hP.pathFault _ _ _ _ s hs
    · split
      · exact hP.settleSheet _ _ s hs
      · exact hP.within (.ite (within_commit s _ _ _) (.refl s)) hs

theorem matchTrailing (c : Checkpoint) (latch : PerSection Pos) : Keeps P (matchTrailing c latch) := fun s hs => by
  unfold State.matchTrailing
  split
  · split
    · exact hP.pathFault _ _ _ _ s hs
    · exact hP.afterOccupancy _ _ _ _ _ _ (hP.within (by simp [Within]) hs)
  · exact hs

theorem trailingEdge (c : Checkpoint) : Keeps P (trailingEdge c) := fun s hs => by
  have hset : P (s.setSensor c false) := hP.within (within_onTransport s _) hs
  unfold State.trailingEdge
  split
  · dsimp only
    split
    · exact hP.matchTrailing _ _ _ hset
    · exact hset
  · exact hs

/-! ### Compares, samples and the run-up timer (R5, R11 to R17) -/

theorem takeCompare (o : CompareOwner) (latch : PerSection Pos) : Keeps P (takeCompare o latch) := fun s hs => by
  cases o with
  | boundary => exact hP.launchDecision _ (hP.within (by simp [Within, sheetIds]) hs)
  | pick t => exact hP.within (within_issuePick s _ _) hs
  | late t =>
    simp only [State.takeCompare]
    split
    · split
      · exact hP.pathFault _ _ _ _ s hs
      · exact hs
    · exact hs
  | stuck t c =>
    simp only [State.takeCompare]
    split
    · exact hP.pathFault _ _ _ _ s hs
    · exact hs

theorem withdrawOwner (p : CompareOwner → Bool) : Keeps P (withdrawOwner p) := fun s =>
  hP.within (within_onTransport s _)

theorem takeAtOnce (n : Nat) : Keeps P (takeAtOnce n) := by
  induction n with
  | zero => exact .id
  | succ n ih =>
    intro s hs
    unfold State.takeAtOnce
    split
    · split
      · exact ih _ (hP.takeCompare _ _ _ (hP.withdrawOwner _ s hs))
      · exact hs
    · exact hs

theorem enterAtSpeed : Keeps P enterAtSpeed := fun s hs =>
  hP.launchDecision _ (hP.within (by simp [Within, sheetIds]) hs)

theorem takeSample (b : ConfigBlock) : Keeps P (takeSample b) := fun s => hP.within (within_onTransport s _)

theorem sampleRunUp (b : ConfigBlock) : Keeps P (sampleRunUp b) := fun s hs => by
  have hcounted (n : Nat) : P ((s.takeSample b).onTransport fun u => { u with allInBand := n }) :=
    hP.within (within_onTransport _ _) (hP.takeSample b s hs)
  have hentered (n : Nat) : P (if n = 3 then ((s.takeSample b).onTransport fun u => { u with allInBand := n }).enterAtSpeed
      else (s.takeSample b).onTransport fun u => { u with allInBand := n }) := by
    split
    · exact hP.enterAtSpeed _ (hcounted n)
    · exact hcounted n
  exact hentered _

theorem sampleAtSpeed (b : ConfigBlock) : Keeps P (sampleAtSpeed b) := fun s hs => by
  have hjudged : Within s (s.judgeDeviation b) := by simp [Within, sheetIds]
  exact Keeps.foldl (fun x u => hP.report _ u) _ _ (hP.takeSample b _ (hP.within hjudged hs))

theorem sampleRunOut (b : ConfigBlock) : Keeps P (sampleRunOut b) := fun s hs => by
  have hstopped (u : State) : Within u u.enterStopped := by simp [Within]
  exact hP.within (.ite (hstopped _) (.refl _)) (hP.takeSample b s hs)

theorem sample : Keeps P sample := fun s hs => by
  unfold State.sample
  split
  · exact hP.sampleRunUp _ s hs
  · exact hP.sampleAtSpeed _ s hs
  · exact hP.sampleRunOut _ s hs
  · exact hs

theorem runUpExpiry : Keeps P runUpExpiry := fun s hs => by
  unfold State.runUpExpiry
  split
  · exact hP.report _ _ (hP.within (by simp [Within, sheetIds]) hs)
  · exact hs

/-! ### Writes and the end of an event (R53, R54) -/

theorem runSteps (l : HeldSteps) : Keeps P (runSteps l) := by
  cases l with
  | retire | nothing => exact .id
  | enterSequence call head w => exact hP.enterSequence call head w
  | chainFault => exact hP.tellChainFault
  | endOfDrain => exact fun s => hP.within (within_endOfDrain s)
  | stopRecord rest => exact hP.issueStopRecord rest

theorem admitHeld : Keeps P admitHeld := fun s hs => by
  unfold State.admitHeld
  split
  next hroom =>
    split
    next h _ =>
      refine hP.runSteps _ _ (hP.within ?_ (hP.pushWrite h.w hroom hs))
      simp [Within, sheetIds]
    · exact hs
  · exact hs

theorem completeWrite : Keeps P completeWrite := fun s hs => by
  unfold State.completeWrite
  split
  · exact hP.admitHeld _ (hP.within (by simp [Within, sheetIds]) hs)
  · exact hP.within (by simp [Within, sheetIds]) hs
  · exact hs

theorem finish : Keeps P finish := fun s hs =>
  hP.within ((within_evaluateWake _).trans ((within_issueReads _).trans (within_grant _)))
    (hP.frontLoop _ _ (hP.settleBooks _ (hP.takeAtOnce _ s hs)))

/-! ### LOAD CONFIG and the commands of the host (R164 to R169) -/

theorem endCommand (code : Word) (o : CommandOutcome) : Keeps P (endCommand code o) := fun s =>
  hP.within ((within_onCtl s _).trans (within_setAttn _ _))

theorem takeConfigAddress (v : Word) : Keeps P (takeConfigAddress v) := fun s =>
  hP.within (.ite (by simp [Within, sheetIds]) (by simp [Within, sheetIds]))

theorem takeConfigWord (v : Word) : Keeps P (takeConfigWord v) := fun s hs => by
  unfold State.takeConfigWord
  split
  · dsimp only
    split
    · exact hP.within (by simp [Within, sheetIds]) hs
    · unfold validateAndInstall
      split
      · exact hP.within (by simp [Within, sheetIds]) hs
      next hvalid => exact hP.within (by simp [Within, sheetIds]) (hP.install hvalid s hs)
  · exact hs

theorem takeMainHead (v : Word) : Keeps P (takeMainHead v) :=
  (Keeps.ite (c := fun s => s.takesFront = true) (hP.startFromWord2 v) .id).comp (hP.endCommand _ _)

theorem takeRecoveryHead (v : Word) : Keeps P (takeRecoveryHead v) :=
  (Keeps.ite (c := fun s => s.takesFront = true) (hP.startFromWord3 v) .id).comp (hP.endCommand _ _)

theorem takeRun : Keeps P takeRun := fun s hs => by
  have hempty (u : State) : Within u u.emptyForRun := by
    simp [Within, emptyForRun, State.freshFetch, sheetIds, TableWithin]
  have hbegin (u : State) : Within u ((u.beginCommand 2 .runLength).requestRead .windowLength [u.controlWord 0]) := by
    simp [Within, sheetIds]
  unfold State.takeRun
  split
  · exact hP.endCommand _ _ s hs
  · exact hP.within ((within_setState s .running).trans <| (hempty _).trans <| (within_onJam _ _).trans <|
      (within_runUpOrder _).trans (hbegin _)) hs

theorem takeHalt : Keeps P takeHalt := fun s hs => by
  have hend (o : CommandOutcome) : P (s.endCommand 3 o) := hP.endCommand _ _ s hs
  unfold State.takeHalt
  split
  · exact hP.within (within_enterDraining _) (hend _)
  · exact hP.within (within_enterHalted _) (hend _)
  all_goals exact hend _

theorem restart : Keeps P restart := fun s =>
  hP.within ((within_setState s _).trans ((within_onJam _ _).trans (within_runUpOrder _)))

theorem freshFetch (chain : Stream) (resync : Bool) : Keeps P (freshFetch chain resync) := fun s =>
  hP.within (by simp [Within, State.freshFetch, sheetIds])

theorem takeResume : Keeps P takeResume := fun s hs => by
  unfold State.takeResume
  split
  · exact hP.endCommand _ _ s hs
  · dsimp only
    split
    · exact hP.endCommand _ _ _ (hP.startMainResume _ (hP.freshFetch _ _ _ (hP.restart s hs)))
    · exact hP.endCommand _ _ _ (hP.restart s hs)

theorem takeRecover : Keeps P takeRecover := fun s hs => by
  unfold State.takeRecover
  split
  · exact hP.endCommand _ _ s hs
  · have hfresh := hP.freshFetch .recovery false _ (hP.restart s hs)
    dsimp only
    split
    · exact hP.within (by simp [Within, sheetIds]) hfresh
    · exact hP.endCommand _ _ _ (hP.follow _ _ _ hfresh)

theorem takeExtend : Keeps P takeExtend := fun s hs => by
  have hfetch := hP.extendFetch s hs
  unfold State.takeExtend
  split
  case h_4 => exact hP.endCommand _ _ _ (hP.within (by simp [Within, sheetIds]) hfetch)
  all_goals first | exact hP.endCommand _ _ _ hfetch | exact hP.endCommand _ _ s hs

theorem resetPath : Keeps P resetPath := fun s => by
  have hclear : Within s s.clearPath := by simp [Within, clearPath, sheetIds]
  exact hP.within (.ite (hclear.trans ((within_onJam _ _).trans (within_enterHalted _))) hclear)

theorem takePathReset : Keeps P takePathReset := fun s hs => by
  cases hr : s.pathResetRefusal with
  | some o => exact takePathReset_of_some hr ▸ hP.endCommand _ _ s hs
  | none => exact takePathReset_of_none hr ▸ hP.endCommand _ _ _ (hP.resetPath s hs)

/-- What the updates keep, the commands keep. -/
theorem commandsKeep : CommandsKeep P where
  fresh s := hP.within (by simp [Within])
  finish := hP.finish
  resetPart := hP.resetPart
  stepCounter x s := hP.within (within_onTransport s _)
  leadingEdge := hP.leadingEdge
  trailingEdge := hP.trailingEdge
  sample := hP.sample
  runUpExpiry := hP.runUpExpiry
  withdrawOwner := hP.withdrawOwner
  takeCompare := hP.takeCompare
  answerDone s := hP.within (within_answerDone s)
  answerFault s := hP.within (within_answerFault s)
  attributeMark r s := hP.within (by simp [Within])
  unload := hP.unload
  askWake s := hP.within (within_askWake s)
  trayLevel t b s := hP.within (within_onLaunch s rfl)
  freeBus s := hP.within (by simp [Within, sheetIds])
  endRead s := hP.within (by simp [Within, sheetIds])
  takeFetched := hP.takeFetched
  takeTail := hP.takeTail
  takeFaultSource := hP.takeFaultSource
  takeReturnLink := hP.takeReturnLink
  takeContinuation := hP.takeContinuation
  takeCandidateReady := hP.takeCandidateReady
  takeInvReady t v s := hP.within (by simp [Within])
  takeWindowLength v s := hP.within (by simp [Within, sheetIds])
  takeConfigAddress := hP.takeConfigAddress
  takeConfigWord := hP.takeConfigWord
  takeMainHead := hP.takeMainHead
  takeRecoveryHead := hP.takeRecoveryHead
  completeWrite := hP.completeWrite
  area v s := hP.within (within_onCtl s _)
  amask v s := hP.within (within_onCtl s _)
  readAttn s := hP.within (by simp [Within])
  takeLoadConfig s := hP.within (by simp [Within, sheetIds])
  takeRun := hP.takeRun
  takeHalt := hP.takeHalt
  takeResume := hP.takeResume
  takeRecover := hP.takeRecover
  takeExtend := hP.takeExtend
  takePathReset := hP.takePathReset
  endCommand := hP.endCommand
  overrunCommand code s := hP.within ((within_onCtl s _).trans (within_setAttn _ _))

/-- What the updates keep, every step keeps. -/
theorem step {s t : State} (hs : P s) (ht : step s = .next t) : P t :=
  hP.commandsKeep.step (fun _ _ h => hP.within (by simp [Within, sheetIds]) h) hs ht

end UpdatesKeep

end Sys2Proof.Machine
end

section
/-! PROOFS. The sizes of the tables (O58), the installed configuration (O59) and the open mailpiece (O60). -/

namespace Sys2Proof.Machine

open State

namespace State

/-! ## The sizes of the tables (R26, R38, R45, R54, R56, R85, R92, R108) -/

theorem TablesFit.of_within {s t : State} (hst : Within s t) (h : s.TablesFit) : t.TablesFit := by
  obtain ⟨hwindow, hstack, htable, -, hsheets, hschedule, hfifo, hqueue, hring, -⟩ := hst
  rw [← sheetIds_len, ← sheetIds_len] at hsheets
  exact
    { window := Nat.le_trans hwindow h.window
      stack := Nat.le_trans hstack h.stack
      mailpieces := Nat.le_trans htable.1 h.mailpieces
      sheets := Nat.le_trans hsheets h.sheets
      schedule := Nat.le_trans hschedule h.schedule
      fifo := Nat.le_trans hfifo h.fifo
      queue := Nat.le_trans hqueue h.queue
      ring := h.ring.sublist (hring.map _) }

theorem TablesFit.addEntry {s : State} (h : s.TablesFit) (e : Entry) : (s.addEntry e).TablesFit := by
  have hstack : (s.addEntry e).fetch.stack = s.fetch.stack := by
    simp only [State.addEntry, onFetch_fetch]
    split <;> rfl
  have hwindow : (s.addEntry e).fetch.window.length ≤ Config.orderWindowSize := by
    simp only [State.addEntry, onFetch_fetch]
    split
    next hroom =>
      rw [List.length_append]
      exact hroom
    · exact h.window
  exact { h with window := hwindow, stack := hstack ▸ h.stack }

/-- What checks 5 to 7 leave room for (R80, R85). -/
theorem room_of_checks5to7 {k : Installed} {c : Candidate} {p : Word} {s : State} (h : s.checks5to7 k c p = none) :
    s.track.sheets.length < Config.trackRecords ∧ s.launch.schedule.length < Config.feedScheduleSize
      ∧ (modeOf c.order.words.w5 = .loop → s.ringFree (finalPitchOf k c.order.words p) = true) := by
  unfold checks5to7 at h
  split at h
  · cases h
  next hpath =>
    split at h
    · cases h
    next hreturn =>
      simp only [pathCheck, Bool.not_eq_true', Bool.not_eq_false, Bool.and_eq_true, decide_eq_true_eq] at hpath
      refine ⟨hpath.1.1, hpath.1.2, fun hloop => ?_⟩
      simp [returnCheck, hloop] at hreturn
      exact hreturn.2

/-- A launch takes one track record and one schedule entry, and only a LOOP sheet reserves its return (R27, R86). -/
theorem launchCandidate_tables (k : Installed) (c : Candidate) (p : Word) (s : State) :
    (s.launchCandidate k c p).track.sheets.length = s.track.sheets.length + 1
      ∧ (s.launchCandidate k c p).launch.schedule.length = s.launch.schedule.length + 1
      ∧ (s.launchCandidate k c p).mail.table = (s.countLaunch c.mp.id).mail.table
      ∧ (s.launchCandidate k c p).mail.waitingOpen = s.mail.waitingOpen
      ∧ (s.launchCandidate k c p).clock.ring = s.clock.ring
        ++ (if modeOf c.order.words.w5 = .loop then [⟨s.track.nextId, finalPitchOf k c.order.words p⟩] else [])
      ∧ (s.launchCandidate k c p).fetch.window.length = s.fetch.window.length := by
  unfold State.launchCandidate
  by_cases hloop : modeOf c.order.words.w5 = .loop <;> simp [hloop, newSheet, reserveReturn, countLaunch]

theorem countLaunch_table_length (m : Nat) (s : State) : (s.countLaunch m).mail.table.length = s.mail.table.length := by
  simp [countLaunch]

theorem TablesFit.launchCandidate {k : Installed} {c : Candidate} {p : Word} {s : State} (h : s.TablesFit)
    (hchecks : s.checks5to7 k c p = none) : (s.launchCandidate k c p).TablesFit := by
  obtain ⟨hsheetRoom, hscheduleRoom, hringFree⟩ := room_of_checks5to7 hchecks
  obtain ⟨hsheets, hschedule, htable, -, hring, hwindow⟩ := launchCandidate_tables k c p s
  have hdistinct : (s.launchCandidate k c p).RingDistinct := by
    unfold RingDistinct
    rw [hring]
    split
    next hloop =>
      have hfree := hringFree hloop
      simp only [ringFree, List.all_eq_true, bne_iff_ne] at hfree
      simp only [List.map_append, List.map_cons, List.map_nil, List.nodup_append]
      refine ⟨h.ring, by simp, fun a ha b hb => ?_⟩
      obtain ⟨r, hr, rfl⟩ := List.mem_map.mp ha
      rw [List.mem_singleton.mp hb]
      exact hfree r hr
    · rw [List.append_nil]
      exact h.ring
  exact
    { window := hwindow ▸ h.window
      stack := by simpa using h.stack
      mailpieces := by
        rw [htable, countLaunch_table_length]
        exact h.mailpieces
      sheets := hsheets ▸ hsheetRoom
      schedule := hschedule ▸ hscheduleRoom
      fifo := by simpa using h.fifo
      queue := by simpa using h.queue
      ring := hdistinct }

/-- Only what the purge count and the configuration are changes: the tables stay. -/
theorem TablesFit.of_frame {s t : State} (hfetch : t.fetch = s.fetch) (htable : t.mail.table.length = s.mail.table.length)
    (htrack : t.track = s.track) (hschedule : t.launch.schedule = s.launch.schedule) (hmem : t.mem = s.mem)
    (hring : t.clock.ring = s.clock.ring) (h : s.TablesFit) : t.TablesFit :=
  { window := hfetch ▸ h.window
    stack := hfetch ▸ h.stack
    mailpieces := htable ▸ h.mailpieces
    sheets := htrack ▸ h.sheets
    schedule := hschedule ▸ h.schedule
    fifo := htrack ▸ h.fifo
    queue := hmem ▸ h.queue
    ring := by
      unfold RingDistinct
      rw [hring]
      exact h.ring }

end State

theorem tablesFit_updatesKeep : UpdatesKeep TablesFit where
  within := TablesFit.of_within
  addEntry e _ h := h.addEntry e
  pushFrame call head s h := by
    have hstack : (if s.fetch.stack.length < Config.callStackDepth then (⟨head, call⟩ : Frame) :: s.fetch.stack
        else s.fetch.stack).length ≤ Config.callStackDepth := by
      split
      next hroom => exact hroom
      · exact h.stack
    exact { h with stack := hstack }
  pushWrite w s hroom h := by
    have hlt : s.mem.queue.length < Config.writeQueueSize := of_decide_eq_true hroom
    have hqueue : (s.mem.queue ++ [w]).length ≤ Config.writeQueueSize := by
      rw [List.length_append]
      exact hlt
    exact { h with queue := hqueue }
  acceptOpen e s _ hroom h := by
    have htable : (s.acceptOpen e).mail.table.length ≤ Config.mailpieceRecords := by
      have hlt : s.mail.table.length < Config.mailpieceRecords := of_decide_eq_true hroom
      have hlength : (s.acceptOpen e).mail.table.length = s.mail.table.length + 1 := by simp [acceptOpen]
      rw [hlength]
      exact hlt
    have hwindow : (s.acceptOpen e).fetch.window.length ≤ Config.orderWindowSize := by
      simpa [acceptOpen] using h.window
    exact { h with mailpieces := htable, window := hwindow }
  waitOpen id s _ h := { h with }
  pushTransfer t s hroom h := by
    have hfifo : (s.track.fifo ++ [t]).length ≤ Config.transferFifoSize := by
      rw [List.length_append]
      exact hroom
    exact { h with fifo := hfifo }
  launchCandidate hchecks h := h.launchCandidate hchecks
  retireAdvance x n s h := h.of_frame (by simp) (by simp) (by simp) (by simp) (by simp) (by simp)
  reportPurged m s h := h.of_frame (by simp) (by simp [reportPurged]) (by simp) (by simp) (by simp) (by simp)
  unload d s h := h.of_frame (by simp) (by simp) (by simp) (by simp) (by simp) (by simp)
  install _ s h := h.of_frame (by simp) (by simp) (by simp) (by simp) (by simp) (by simp)
  resetPart l y s _ := 
    { window := Nat.zero_le _
      stack := Nat.zero_le _
      mailpieces := Nat.zero_le _
      sheets := Nat.zero_le _
      schedule := Nat.zero_le _
      fifo := Nat.zero_le _
      queue := Nat.zero_le _
      ring := List.nodup_nil }

/-- Settles O58: the growing updates each look at the size first (`tablesFit_updatesKeep`). -/
theorem tablesFitKept : Obligations.TablesFitKept := fun _ _ => tablesFit_updatesKeep.step

/-! ## The installed configuration (R22, R25, R68, R137, R166) -/

namespace State

theorem purgeFullNow_congr {s t : State} (hconfig : t.config = s.config) (hcount : t.mail.purgeCount = s.mail.purgeCount) :
    t.purgeFullNow = s.purgeFullNow := by
  simp only [purgeFullNow, hconfig, hcount]

theorem retireBatch_congr {s t : State} (hconfig : t.config = s.config) : t.retireBatch = s.retireBatch := by
  simp only [retireBatch, hconfig]

/-- Evaluated anew, purge full is what the count and the capacity make it (R68). -/
theorem reevaluatePurgeFull_purgeFull (s : State) : s.reevaluatePurgeFull.mail.purgeFull = s.purgeFullNow := by
  unfold reevaluatePurgeFull
  split
  next hfull =>
    unfold notePurgeFull
    split
    · simp [hfull]
    next hnot =>
      rw [hfull]
      simpa [hfull] using hnot
  next hfull => simpa using hfull

/-- An empty purge bin is not full: a capacity that passed the checks is at least 1 (R166). -/
theorem purgeFullNow_of_empty {s : State} (hvalid : ∀ k, s.config = some k → k.block.validate = none)
    (hcount : s.mail.purgeCount = 0) : s.purgeFullNow = false := by
  unfold purgeFullNow
  split
  · rfl
  next k hconfig =>
    have hrange : k.block.rangeOk = true := by
      cases hbad : k.block.rangeOk with
      | true => rfl
      | false =>
        have hnone := hvalid k hconfig
        unfold ConfigBlock.validate at hnone
        rw [hbad, if_pos (by rfl)] at hnone
        cases hnone
    simp only [ConfigBlock.rangeOk, inRange, Bool.and_eq_true, decide_eq_true_eq] at hrange
    have hcapacity : 1 ≤ k.block.purgeCapacity := by omega
    rw [hcount]
    simpa using Nat.one_le_iff_ne_zero.mp hcapacity

namespace ConfigurationHolds

variable {s t : State}

theorem of_frame (hconfig : t.config = s.config) (hloop : t.clock.loopUnusable = s.clock.loopUnusable)
    (hretired : t.retire.retired = s.retire.retired) (hbatching : t.retire.batching = s.retire.batching)
    (hpurge : t.mail.purgeFull = t.purgeFullNow) (h : s.ConfigurationHolds) : t.ConfigurationHolds where
  valid k hk := h.valid k (hconfig ▸ hk)
  none_ hk := hloop.trans (h.none_ (hconfig ▸ hk))
  loop k hk := hloop.trans (h.loop k (hconfig ▸ hk))
  purgeFull := hpurge
  batching := by rw [hbatching, hretired, retireBatch_congr hconfig, h.batching]

theorem of_within (hst : Within s t) (h : s.ConfigurationHolds) : t.ConfigurationHolds := by
  obtain ⟨-, -, -, -, -, -, -, -, -, hconfig, hloop, hfull, hcount, hretired, hbatching⟩ := hst
  exact h.of_frame hconfig hloop hretired hbatching (by rw [hfull, h.purgeFull, purgeFullNow_congr hconfig hcount])

/-- An update that keeps the configuration and the counts of purging and retirement. -/
theorem of_same (hconfig : t.config = s.config) (hloop : t.clock.loopUnusable = s.clock.loopUnusable)
    (hretire : t.retire.retired = s.retire.retired ∧ t.retire.batching = s.retire.batching)
    (hfull : t.mail.purgeFull = s.mail.purgeFull) (hcount : t.mail.purgeCount = s.mail.purgeCount)
    (h : s.ConfigurationHolds) : t.ConfigurationHolds :=
  h.of_frame hconfig hloop hretire.1 hretire.2 (by rw [hfull, h.purgeFull, purgeFullNow_congr hconfig hcount])

theorem retireAdvance (h : s.ConfigurationHolds) (x : RetireStep) (n : Nat) : (s.retireAdvance x n).ConfigurationHolds := by
  have hkept : (s.retireAdvance x n).retire.batching
      = (s.retireAdvance x n).retire.retired.toNat % (s.retireAdvance x n).retireBatch := by
    rw [retireBatch_congr (s := s) (by simp)]
    cases x <;> simp [State.retireAdvance, h.batching]
  exact { h with batching := hkept }

theorem reportPurged (h : s.ConfigurationHolds) (m : Nat) : (s.reportPurged m).ConfigurationHolds := by
  refine h.of_frame (by simp) (by simp) (by simp) (by simp) ?_
  unfold State.reportPurged
  rw [reevaluatePurgeFull_purgeFull]
  exact purgeFullNow_congr (by simp) (by simp)

theorem unload (h : s.ConfigurationHolds) (d : Dest) : (s.unload d).ConfigurationHolds := by
  cases d with
  | stk b => exact h.of_same (by simp) (by simp) (by simp) (by simp [State.unload]) (by simp [State.unload])
  | prg =>
    refine h.of_frame (by simp) (by simp) (by simp) (by simp) (purgeFullNow_of_empty ?_ ?_).symm
    · exact fun k hk => (h.valid k hk).1
    · rfl

theorem install {b : ConfigBlock} (hb : b.validate = none) (s : State) : (s.install b).ConfigurationHolds := by
  have hconfig : (s.install b).config = some ⟨b, b.quantities⟩ := by
    simp only [State.install]
    split <;> simp
  exact
    { valid := by
        intro k hk
        obtain rfl := Option.some.inj (hconfig.symm.trans hk)
        exact ⟨hb, rfl⟩
      none_ := by
        intro hnone
        cases hconfig.symm.trans hnone
      loop := by
        intro k hk
        obtain rfl := Option.some.inj (hconfig.symm.trans hk)
        simp only [State.install]
        split <;> simp
      purgeFull := by
        have hnow : (s.install b).mail.purgeFull = ({ s with config := some ⟨b, b.quantities⟩ } : State).purgeFullNow := by
          simp only [State.install]
          split <;> simp [reevaluatePurgeFull_purgeFull] <;> rfl
        rw [hnow]
        exact (purgeFullNow_congr (by simp [hconfig]) (by simp)).symm
      batching := by
        rw [retireBatch_congr (s := ({ s with config := some ⟨b, b.quantities⟩ } : State)) hconfig]
        simp only [State.install]
        split <;> simp <;> exact congrArg (_ % ·) (retireBatch_congr (by simp)) }

end ConfigurationHolds

end State

theorem configurationHolds_updatesKeep : UpdatesKeep ConfigurationHolds where
  within := ConfigurationHolds.of_within
  addEntry e s h := h.of_same (by simp) (by simp) (by simp) (by simp) (by simp)
  pushFrame call head s h := h.of_same (by simp) (by simp) (by simp) (by simp) (by simp)
  pushWrite w s _ h := h.of_same (by simp) (by simp) (by simp) (by simp) (by simp)
  acceptOpen e s _ _ h := h.of_same (by simp) (by simp) (by simp) (by simp) (by simp)
  waitOpen id s _ h := h.of_same (by simp) (by simp) (by simp) (by simp) (by simp)
  pushTransfer t s _ h := h.of_same (by simp) (by simp) (by simp) (by simp) (by simp)
  launchCandidate {k c p s} _ h := h.of_same (by simp) (by simp) (by simp) (by simp) (by simp)
  retireAdvance x n s h := h.retireAdvance x n
  reportPurged m s h := h.reportPurged m
  unload d s h := h.unload d
  install hb s _ := .install hb s
  resetPart l y s _ :=
    { valid := by simp [resetPart, State.reset]
      none_ := by simp [resetPart, State.reset]
      loop := by simp [resetPart, State.reset]
      purgeFull := by simp [resetPart, State.reset, purgeFullNow]
      batching := by simp [resetPart, State.reset] }

/-- Settles O59: what is computed from the configuration is computed anew wherever it or the configuration changes
(`configurationHolds_updatesKeep`). -/
theorem configurationKept : Obligations.ConfigurationKept := fun _ _ => configurationHolds_updatesKeep.step

/-! ## The open mailpiece (R57, R59) -/

namespace State

namespace OneOpenMailpiece

variable {s t : State}

theorem of_frame (htable : t.mail.table = s.mail.table) (hwaiting : t.mail.waitingOpen = s.mail.waitingOpen)
    (h : s.OneOpenMailpiece) : t.OneOpenMailpiece where
  onlyLast := by
    rw [htable]
    exact h.onlyLast
  waiting := by
    rw [htable, hwaiting]
    exact h.waiting

/-- With no current mailpiece, or an OPEN that waits, every record is closed (R57). -/
theorem allClosed (h : s.OneOpenMailpiece) (hnone : s.mail.waitingOpen.isSome = true ∨ s.currentMp = none) :
    s.mail.table.all (·.closed) = true := by
  obtain hwaiting | hnone := hnone
  · exact h.waiting hwaiting
  · cases hlast : s.mail.table.getLast? with
    | none => simp [List.getLast?_eq_none_iff.mp hlast]
    | some m =>
      rw [dropLast_append_last hlast, List.all_append, h.onlyLast]
      simpa using currentMp_eq_none_iff.mp hnone m hlast

theorem of_tableWithin (htable : TableWithin s.mail.table t.mail.table)
    (hwaiting : t.mail.waitingOpen = s.mail.waitingOpen ∨ t.mail.waitingOpen = none) (h : s.OneOpenMailpiece) :
    t.OneOpenMailpiece where
  onlyLast := htable.2.1 h.onlyLast
  waiting hsome := by
    obtain hsame | hnone := hwaiting
    · exact htable.2.2 (h.waiting (hsame ▸ hsome))
    · simp [hnone] at hsome

end OneOpenMailpiece

end State

theorem oneOpenMailpiece_updatesKeep : UpdatesKeep OneOpenMailpiece where
  within hst h := by
    obtain ⟨-, -, htable, hwaiting, -⟩ := hst
    exact h.of_tableWithin htable hwaiting
  addEntry e s h := h.of_frame (by simp) (by simp)
  pushFrame call head s h := { h with }
  pushWrite w s _ h := { h with }
  acceptOpen e s hnone _ h :=
    { onlyLast := by simpa [acceptOpen] using h.allClosed hnone
      waiting := by simp [acceptOpen] }
  waitOpen id s hnone h := { h with waiting := fun _ => h.allClosed (.inr hnone) }
  pushTransfer t s _ h := { h with }
  launchCandidate {k c p s} _ h := by
    obtain ⟨-, -, htable, hwaiting, -⟩ := launchCandidate_tables k c p s
    refine h.of_tableWithin ?_ (.inl hwaiting)
    rw [htable]
    exact tableWithin_map_if (fun m hm => by simp [hm]) _
  retireAdvance x n s h := h.of_frame (by simp) (by simp)
  reportPurged m s h := by
    refine h.of_tableWithin ?_ (.inl (by simp))
    have htable : (s.reportPurged m).mail.table
        = s.mail.table.map fun r => if r.id = m then { r with purged := r.purged + 1 } else r := by
      simp [State.reportPurged]
    rw [htable]
    exact tableWithin_map (fun r hr => by split <;> exact hr) _
  unload d s h := h.of_frame (by simp) (by simp)
  install _ s h := h.of_frame (by simp) (by simp)
  resetPart l y s _ :=
    { onlyLast := rfl
      waiting := nofun }

/-- Settles O60: a record is opened only when every other is closed, and none is opened again
(`oneOpenMailpiece_updatesKeep`). -/
theorem oneOpenMailpieceKept : Obligations.OneOpenMailpieceKept := fun _ _ => oneOpenMailpiece_updatesKeep.step

end Sys2Proof.Machine
end

section
/-! PROOFS. The front of the queue, the reset line, overrun and unknown commands, LOAD CONFIG's reads
(O1, O3, O9, O10, O56). -/

namespace Sys2Proof

theorem PerSection.get_of {α : Type} (f : Section → α) (x : Section) : (PerSection.of f).get x = f x := by
  cases x <;> rfl

theorem PerSection.ext_get {α : Type} {p q : PerSection α} (h : ∀ x, p.get x = q.get x) : p = q := by
  cases p
  cases q
  exact (PerSection.mk.injEq ..).mpr ⟨h .up, h .loop, h .down⟩

namespace Machine

open State

theorem perSection_get {α : Type} (a : α) (x : Section) : (perSection a).get x = a := by
  cases x <;> rfl

theorem perBin_get {α : Type} (a : α) (b : Bin) : (perBin a).get b = a := by
  cases b <;> rfl

theorem stepTakesFrontCommand_of_pending {s : State} {c : Instr} {rest : List Instr} (h : s.pending = c :: rest) :
    step s = exec c { s with pending := rest } := by
  simp only [step, h]

/-- Settles O1: the two cases of the queue. -/
theorem stepTakesFrontCommand : Obligations.StepTakesFrontCommand :=
  ⟨fun _ _ _ => stepTakesFrontCommand_of_pending, fun s h => by simp only [step, h]⟩

/-- Settles O3: the part after the reset line is `resetPart`, whose fields are the reset values. -/
theorem resetLineResetsEveryBlock : Obligations.ResetLineResetsEveryBlock := fun covered trays s =>
  ⟨s.fresh.resetPart covered trays, rfl,
    fun x => ⟨perSection_get _ x, perSection_get _ x, perSection_get _ x, perSection_get _ x⟩,
    by simp [resetPart, State.reset, fresh, perBin_get, perCheckpoint_get]⟩

/-- Settles O56: at reset every table is empty and nothing is configured. -/
theorem invariantsAtReset : Obligations.InvariantsAtReset :=
  ⟨⟨rfl, by simp [State.reset], by simp [State.reset], by simp [State.reset]⟩,
    ⟨Nat.zero_le _, Nat.zero_le _, Nat.zero_le _, Nat.zero_le _, Nat.zero_le _, Nat.zero_le _, Nat.zero_le _, List.nodup_nil⟩,
    ⟨by simp [State.reset], by simp [State.reset], by simp [State.reset], rfl, by simp [State.reset]⟩,
    ⟨rfl, by simp [State.reset]⟩⟩

/-! ## Commands while a command is being taken (R160) -/

/-- A write to CMD is taken by `command`, but for the one that is an overrun already. -/
theorem exec_eq_command {c : Instr} {code : Word} (hwf : c.wellFormed = true) (hcode : c.cmdCode = some code) :
    c = .overrun code ∨ ∃ take, exec c = command code take := by
  cases c with
  | loadConfig | run | halt | resume | recover | extend | pathReset =>
    cases hcode
    exact .inr ⟨_, rfl⟩
  | overrun v =>
    cases hcode
    exact .inl rfl
  | unknownCommand v =>
    cases hcode
    refine .inr ⟨endCommand code .refusedState, funext fun s => ?_⟩
    simp only [Instr.wellFormed, Bool.not_eq_true'] at hwf
    simp only [exec, execUnknownCommand, hwf, Bool.false_eq_true, if_false]
  | _ => cases hcode

theorem exec_overrun_busy {s : State} (h : s.ctl.cmd.isSome = true) (code : Word) :
    exec (.overrun code) s = .next (s.fresh.overrunCommand code) := by
  have hbusy : s.fresh.commandBusy = true := h
  simp only [exec, execOverrun, event, hbusy, if_true]

theorem exec_overrun_idle {s : State} (h : s.ctl.cmd = none) (code : Word) : exec (.overrun code) s = .next s.fresh := by
  have hidle : s.fresh.commandBusy = false := by simp [commandBusy, fresh, h]
  simp only [exec, execOverrun, event, hidle, Bool.false_eq_true, if_false]

theorem namesCommand_iff (code : Word) : namesCommand code = true ↔ 1 ≤ code.toNat ∧ code.toNat < 8 := by
  simp only [namesCommand, Bool.and_eq_true, decide_eq_true_eq, Nat.lt_succ_iff]

theorem exec_unknownCommand_idle {s : State} (h : s.ctl.cmd = none) {code : Word} (hcode : code.toNat = 0 ∨ 8 ≤ code.toNat) :
    exec (.unknownCommand code) s = .next (s.ended code .refusedState).finish := by
  have hname : namesCommand code = false := by
    rw [← Bool.not_eq_true, namesCommand_iff]
    omega
  simp only [exec, execUnknownCommand, hname, Bool.false_eq_true, if_false, command_idle h, ended_eq]

/-- Settles O9: `exec_eq_command` and `command_busy`, and what an overrun and an unknown code do of themselves. -/
theorem overrunAndUnknownCommands : Obligations.OverrunAndUnknownCommands := by
  refine ⟨⟨fun c code s hwf hcode hbusy => ?_, fun code s hidle => exec_overrun_idle hidle code⟩,
    fun code s hcode hidle => exec_unknownCommand_idle hidle hcode⟩
  obtain rfl | ⟨take, htake⟩ := exec_eq_command hwf hcode
  · exact exec_overrun_busy hbusy code
  · rw [htake, command_busy hbusy]
    rfl

/-! ## LOAD CONFIG (R164, R165, R177) -/

theorem loadAllowed_iff (s : State) : s.loadAllowed = true
    ↔ s.ctl.state = .unconfigured ∨ s.ctl.state = .ready ∨ (s.ctl.state = .halted ∧ s.mail.table = []) := by
  unfold loadAllowed
  cases hstate : s.ctl.state <;> simp

theorem exec_loadConfig_allowed {s : State} (hidle : s.ctl.cmd = none) (hallowed : s.loadAllowed = true) :
    exec .loadConfig s = .next (State.finish
      { s with
        out := []
        ctl := { s.ctl with cmd := some ⟨1, .loadLength⟩ }
        mem := { s.mem with waiting := s.mem.waiting ++ [⟨.windowLength, [s.ctl.area]⟩] } }) := by
  have htake : takeLoadConfig s.fresh
      = (s.fresh.beginCommand 1 .loadLength).requestRead .windowLength [s.fresh.controlWord 0] := if_pos hallowed
  simp only [exec, execLoadConfig, command_idle hidle, htake, controlWord, wordAddr_zero]
  rfl

theorem exec_windowLengthRead {s : State} {r : ReadReq} (hbus : s.mem.bus = some ⟨.read r, false⟩)
    (hr : r.purpose = .windowLength) (v : Word) :
    exec (.windowLengthRead v) s = .next (s.fresh.freeBus.takeWindowLength v).finish := by
  simp only [exec, execWindowLengthRead, event, completeRead_of_read hbus hr]

theorem exec_configAddressRead {s : State} {r : ReadReq} (hbus : s.mem.bus = some ⟨.read r, false⟩)
    (hr : r.purpose = .configAddress) (v : Word) :
    exec (.configAddressRead v) s = .next (s.fresh.freeBus.takeConfigAddress v).finish := by
  simp only [exec, execConfigAddressRead, event, completeRead_of_read hbus hr]

/-- The command being taken goes on to its next phase. -/
theorem setPhase_of_cmd {s : State} {code : Word} {p : CommandPhase} (h : s.ctl.cmd = some ⟨code, p⟩) (q : CommandPhase) :
    s.setPhase q = { s with ctl := { s.ctl with cmd := some ⟨code, q⟩ } } := by
  simp only [setPhase, onCtl, h, Option.map_some]

theorem takeWindowLength_load {s : State} {code : Word} (h : s.ctl.cmd = some ⟨code, .loadLength⟩) (v : Word) :
    s.takeWindowLength v = { s with
      mem := { s.mem with windowLength := v, waiting := s.mem.waiting ++ [⟨.configAddress, [s.ctl.area + 4]⟩] }
      ctl := { s.ctl with cmd := some ⟨code, .loadAddress⟩ } } := by
  have hcmd : (s.onMem fun u => { u with windowLength := v }).ctl.cmd = some ⟨code, .loadLength⟩ := h
  simp only [takeWindowLength, hcmd, setPhase_of_cmd hcmd]
  rfl

theorem takeWindowLength_run {s : State} {code : Word} (h : s.ctl.cmd = some ⟨code, .runLength⟩) (v : Word) :
    s.takeWindowLength v = { s with
      mem := { s.mem with windowLength := v, waiting := s.mem.waiting ++ [⟨.mainHead, [s.ctl.area + 8]⟩] }
      ctl := { s.ctl with cmd := some ⟨code, .runHead⟩ } } := by
  have hcmd : (s.onMem fun u => { u with windowLength := v }).ctl.cmd = some ⟨code, .runLength⟩ := h
  simp only [takeWindowLength, hcmd, setPhase_of_cmd hcmd]
  rfl

theorem takeConfigAddress_ok {s : State} {code : Word} {p : CommandPhase} {v : Word} (h : s.ctl.cmd = some ⟨code, p⟩)
    (hok : recordInWindow s.ctl.area s.mem.windowLength v 256 = true) :
    s.takeConfigAddress v = { s with
      mem := { s.mem with waiting := s.mem.waiting ++ [⟨.configBlock, [v]⟩] }
      ctl := { s.ctl with cmd := some ⟨code, .loadBlock v []⟩ } } := by
  have haddr : s.configAddrOk v = true := hok
  simp only [takeConfigAddress, haddr, if_true, setPhase_of_cmd h, wordAddr_zero]
  rfl

theorem takeConfigAddress_bad {s : State} {v : Word} (hbad : recordInWindow s.ctl.area s.mem.windowLength v 256 = false) :
    s.takeConfigAddress v = s.endLoad (some .window) := by
  have haddr : s.configAddrOk v = false := hbad
  simp only [takeConfigAddress, haddr, Bool.false_eq_true, if_false]

/-- A record lies in the window when it is aligned, past the control area, and ends within the length (R34). -/
theorem recordInWindow_iff (area length a : Word) (bytes : Nat) : recordInWindow area length a bytes = true ↔
    a.toNat % 64 = 0 ∧ 640 ≤ (a.toNat + 4294967296 - area.toNat) % 4294967296
      ∧ (a.toNat + 4294967296 - area.toNat) % 4294967296 + bytes ≤ length.toNat := by
  have hoffset : windowOffset area a = (a.toNat + 4294967296 - area.toNat) % 4294967296 := by
    have harea := area.isLt
    simp only [windowOffset, BitVec.toNat_sub]
    congr 1
    omega
  simp [recordInWindow, hoffset, Config.controlAreaBytes, and_assoc]

/-- Settles O10: the reads of LOAD CONFIG and of RUN, one after the other, and the window check of the address. -/
theorem loadConfigReads : Obligations.LoadConfigReads := by
  refine ⟨⟨fun s hidle hstate => exec_loadConfig_allowed hidle ((loadAllowed_iff s).mpr hstate), ?_, ?_⟩,
    recordInWindow_iff⟩
  · refine fun v r s hbus hr => ⟨fun code hcmd => ?_, fun code hcmd => ?_⟩
    · rw [exec_windowLengthRead hbus hr, takeWindowLength_load (s := s.fresh.freeBus) hcmd]
      rfl
    · rw [exec_windowLengthRead hbus hr, takeWindowLength_run (s := s.fresh.freeBus) hcmd]
      rfl
  · refine fun v r s hbus hr hcmd => ⟨fun hok => ?_, fun hbad => ?_⟩
    · rw [exec_configAddressRead hbus hr, takeConfigAddress_ok (s := s.fresh.freeBus) hcmd hok]
      rfl
    · rw [exec_configAddressRead hbus hr, takeConfigAddress_bad (s := s.fresh.freeBus) hbad]
      rfl

end Machine
end Sys2Proof
end

section
/-! PROOFS. Attention registers, transport orders, halted tracking, the transfer decision and its answers
(O7, O13, O26, O30, O33, O43). -/

namespace Sys2Proof.Machine

open State

/-! ## Attention (R170, R171) -/

theorem AttnFlag.bit_lt (f : AttnFlag) : f.bit < 11 := by
  cases f <;> decide

/-- Every bit of the flag register belongs to a flag. -/
theorem AttnFlag.exists_bit_eq {k : Nat} (h : k < 11) : ∃ f : AttnFlag, f.bit = k := by
  have hall : ∀ i : Fin 11, ∃ f ∈ [AttnFlag.retired, .jam, .halted, .standby, .starved, .binWait, .trayEmpty, .chainFault,
      .purgeFull, .command, .speed], f.bit = i := by decide
  obtain ⟨f, -, hf⟩ := hall ⟨k, h⟩
  exact ⟨f, hf⟩

theorem AttnFlag.mask_getLsbD (f : AttnFlag) (k : Nat) : f.mask.getLsbD k = decide (k = f.bit) := by
  rw [AttnFlag.mask, BitVec.getLsbD_ofNat, Nat.testBit_two_pow]
  have hlt := f.bit_lt
  by_cases hk : f.bit = k
  · simp [← hk, hlt]
  · simp [hk, Ne.symm hk]

namespace State

theorem attentionLine_iff (s : State) : s.attentionLine = true
    ↔ ∃ f : AttnFlag, s.attnHas f = true ∧ s.ctl.amask.getLsbD f.bit = true := by
  simp only [attentionLine, attnHas, bne_iff_ne, ne_eq]
  constructor
  · intro hne
    refine Classical.byContradiction fun hnone => ?_
    refine hne (BitVec.eq_of_getLsbD_eq fun k hk => ?_)
    obtain ⟨f, rfl⟩ := AttnFlag.exists_bit_eq hk
    have hoff : ¬(s.ctl.attn.getLsbD f.bit = true ∧ s.ctl.amask.getLsbD f.bit = true) := fun hboth => hnone ⟨f, hboth⟩
    simpa using hoff
  · rintro ⟨f, hset, henabled⟩ hzero
    have hbit := congrArg (BitVec.getLsbD · f.bit) hzero
    simp [hset, henabled] at hbit

/-- A flag that is not enabled does not move the line (R171). -/
theorem setAttn_attentionLine_of_disabled {f : AttnFlag} {s : State} (h : s.ctl.amask.getLsbD f.bit = false) :
    (s.setAttn f).attentionLine = s.attentionLine := by
  have hmask : (s.ctl.attn ||| f.mask) &&& s.ctl.amask = s.ctl.attn &&& s.ctl.amask := by
    refine BitVec.eq_of_getLsbD_eq fun k _ => ?_
    by_cases hk : k = f.bit
    · simp [hk, h]
    · simp [AttnFlag.mask_getLsbD, hk]
  simp only [attentionLine, setAttn, onCtl, hmask]

end State

/-- A flag register read as a word shows its bits in their places. -/
theorem setWidth_getLsbD_flag (b : FlagBits) (k : Nat) : (b.setWidth 32).getLsbD k = b.getLsbD k := by
  rw [BitVec.getLsbD_setWidth, Bool.and_eq_right_iff_imp, decide_eq_true_iff]
  intro hset
  have hlt := BitVec.lt_of_getLsbD hset
  omega

/-- Settles O7: the enables as stored, the line as the flags and enables stand, and the read that clears them. -/
theorem attentionRegisters : Obligations.AttentionRegisters := by
  refine ⟨fun s v => ⟨rfl, fun f => ?_, fun k => ?_, fun k hk => ?_, attentionLine_iff s, fun f => ⟨setAttn_attnHas f s,
    setAttn_attentionLine_of_disabled⟩, _, rfl, ?_⟩, fun s r v => ⟨⟨s.attnWord, rfl, fun f => ?_, fun k hk => ?_⟩, rfl, rfl⟩⟩
  · simp [f.bit_lt]
  · exact setWidth_getLsbD_flag s.ctl.amask k
  · rw [amaskRead, setWidth_getLsbD_flag, BitVec.getLsbD_of_ge _ _ hk]
  · simp [attentionLine]
  · exact setWidth_getLsbD_flag s.ctl.attn f.bit
  · rw [attnWord, setWidth_getLsbD_flag, BitVec.getLsbD_of_ge _ _ hk]

/-! ## Run-up, run-out and stop orders (R9 to R11) -/

namespace State

theorem runUpOrder_stopped {s : State} (h : s.transport.state = .stopped) : s.runUpOrder = s.startRunUp := by
  simp only [runUpOrder, h]

theorem enterRunOut_runUp {s : State} (h : s.transport.state = .runUp) : s.enterRunOut =
    { s with transport := { s.transport with run := perSection false, runUpTimer := none, state := .runOut } } := by
  have hstate : ¬ s.transport.state = .atSpeed := by simp [h]
  simp only [enterRunOut, if_neg hstate]
  rfl

theorem enterRunOut_atSpeed {s : State} (h : s.transport.state = .atSpeed) : s.enterRunOut =
    { s with
      transport := { s.transport with
        run := perSection false, runUpTimer := none, state := .runOut, speedDeviation := false
        compares := s.transport.compares.filter fun k => k.owner != .boundary }
      clock := { s.clock with running := false } } := by
  simp only [enterRunOut, if_pos h]
  rfl

theorem stopOrder_kept {s : State} {named : PerSection Bool} (h : s.transport.state = .stopped ∨ s.transport.state = .runOut) :
    s.stopOrder named = { s with transport := { s.transport with
      heldRunUp := false, run := .of fun x => s.transport.run.get x && !named.get x } } := by
  obtain h | h := h <;> simp only [stopOrder, onTransport, h]

theorem PerSection.any_iff (p : PerSection Bool) : p.any = true ↔ ∃ x, p.get x = true := by
  simp only [PerSection.any, Bool.or_eq_true]
  constructor
  · rintro ((h | h) | h)
    · exact ⟨.up, h⟩
    · exact ⟨.loop, h⟩
    · exact ⟨.down, h⟩
  · rintro ⟨x, h⟩
    cases x with
    | up => exact .inl (.inl h)
    | loop => exact .inl (.inr h)
    | down => exact .inr h

theorem stopOrder_runUp {s : State} (named : PerSection Bool) (h : s.transport.state = .runUp) :
    s.stopOrder named = State.enterRunOut { s with transport := { s.transport with
      heldRunUp := false, run := .of fun x => s.transport.run.get x && !named.get x } } := by
  simp only [stopOrder, onTransport, h]

theorem stopOrder_atSpeed {s : State} (named : PerSection Bool) (h : s.transport.state = .atSpeed) :
    let kept : State := { s with transport := { s.transport with
      heldRunUp := false, run := .of fun x => s.transport.run.get x && !named.get x } }
    s.stopOrder named = if kept.transport.run.any then kept else kept.enterRunOut := by
  simp only [stopOrder, onTransport, h]

end State

/-- Settles O13: each order by the state it finds. -/
theorem transportOrders : Obligations.TransportOrders := by
  refine ⟨fun s => ⟨fun h => ⟨runUpOrder_stopped h, by simp only [runOutOrder, h]⟩, fun h => ⟨by simp only [runUpOrder, h], ?_⟩,
    fun h => ⟨by simp only [runUpOrder, h], ?_⟩, fun h => ⟨by simp only [runUpOrder, h, onTransport], by simp only [runOutOrder, h, onTransport]⟩,
    rfl, rfl⟩, fun s named => ⟨stopOrder_kept, fun h => ?_, fun h hrest => ?_, fun h hrest => ?_⟩⟩
  · simp only [runOutOrder, h, enterRunOut_runUp h]
  · simp only [runOutOrder, h, enterRunOut_atSpeed h]
  · rw [stopOrder_runUp named h]
    exact enterRunOut_runUp h
  · rw [stopOrder_atSpeed named h]
    exact if_pos ((PerSection.any_iff _).mpr hrest)
  · rw [stopOrder_atSpeed named h, if_neg]
    · exact enterRunOut_atSpeed h
    · rw [PerSection.any_iff]
      rintro ⟨x, hx⟩
      exact Bool.false_ne_true ((hrest x).symm.trans hx)

/-! ## Halted tracking (R7, R97) -/

theorem exec_leadingEdge_untracked {s : State} {c : Checkpoint} (hclear : s.transport.sensors.get c = false)
    (hhalted : s.track.tracking.get c.sec = false) :
    exec (.leadingEdge c) s = .next (s.fresh.setSensor c true).finish := by
  have h1 : s.fresh.transport.sensors.get c = false := hclear
  have h2 : (s.fresh.setSensor c true).isTracking c = false := hhalted
  simp only [exec, execLeadingEdge, event, leadingEdge, h1, h2, Bool.false_eq_true, if_false]

theorem exec_leadingEdge_covered {s : State} {c : Checkpoint} (hcovered : s.transport.sensors.get c = true) :
    exec (.leadingEdge c) s = .next s.fresh.finish := by
  have h1 : s.fresh.transport.sensors.get c = true := hcovered
  simp only [exec, execLeadingEdge, event, leadingEdge, h1, if_true]

theorem exec_trailingEdge_clear {s : State} {c : Checkpoint} (hclear : s.transport.sensors.get c = false) :
    exec (.trailingEdge c) s = .next s.fresh.finish := by
  have h1 : s.fresh.transport.sensors.get c = false := hclear
  simp only [exec, execTrailingEdge, event, trailingEdge, h1, Bool.false_eq_true, if_false]

theorem State.matchTrailing_of_none {s : State} {c : Checkpoint} (h : s.occupant c = none) (latch : PerSection Pos) :
    s.matchTrailing c latch = s := by
  unfold matchTrailing
  split
  next k x o _ hocc => cases h.symm.trans hocc
  · rfl

theorem exec_trailingEdge_unmatched {s : State} {c : Checkpoint} (hcovered : s.transport.sensors.get c = true)
    (hnone : s.track.tracking.get c.sec = false ∨ s.occupant c = none) :
    exec (.trailingEdge c) s = .next (s.fresh.setSensor c false).finish := by
  have h1 : s.fresh.transport.sensors.get c = true := hcovered
  simp only [exec, execTrailingEdge, event, trailingEdge, h1, if_true]
  obtain hhalted | hnone := hnone
  · have h2 : (s.fresh.setSensor c false).isTracking c = false := hhalted
    simp only [h2, Bool.false_eq_true, if_false]
  · have hocc : (s.fresh.setSensor c false).occupant c = none := hnone
    simp only [matchTrailing_of_none hocc, ite_self]

/-- Settles O30: a halt leaves out the named sections and their deadlines; an edge there only moves the sensor. -/
theorem haltedTracking : Obligations.HaltedTracking :=
  ⟨fun _ _ => ⟨_, rfl, fun x => PerSection.get_of _ x, rfl, rfl⟩,
    fun _ _ => ⟨exec_leadingEdge_untracked, exec_trailingEdge_unmatched, exec_leadingEdge_covered, exec_trailingEdge_clear⟩⟩

/-! ## The transfer decision at REG (R107) -/

theorem updSheet_eq_of_unique {s : State} {x : Sheet} (h : s.track.sheets.filter (·.id = x.id) = [x]) (f : Sheet → Sheet) :
    s.updSheet x.id f = { s with
      track := { s.track with sheets := s.track.sheets.map fun y => if y.id = x.id then f x else y } } := by
  rw [← updSheet_unique h f]
  rfl

/-- A first-pass sheet, or one whose second side is known to be ready, asks for its transfer when the FIFO has room. -/
theorem transferAtReg_ready {s : State} {x : Sheet} (hpurge : x.purge = none)
    (hready : x.pass2 = true → x.side2 ≠ none ∧ x.side2Check = .ready) :
    s.transferAtReg x =
      if 5 ≤ s.track.fifo.length then (s.updSheet x.id fun r => { r with transfer := .none }).giveMark x.id .transferFault
      else ((s.onTrack fun u => { u with fifo := u.fifo ++ [⟨x.id, true⟩] }).updSheet x.id fun r =>
        { r with transfer := .outstanding }).emit (.transferRequest
          (if x.pass2 then x.side2.getD 0 else (s.findEntry x.order).elim 0 (·.words.w6)) x.pass2) := by
  have hside : ¬(x.pass2 = true ∧ x.side2 = none) := fun h => (hready h.1).1 h.2
  have hcheck : ¬(x.pass2 = true ∧ x.side2Check ≠ .ready) := fun h => h.2 (hready h.1).2
  simp only [transferAtReg, hpurge, Option.isSome_none, Bool.false_eq_true, if_false, if_neg hside, if_neg hcheck,
    Config.transferFifoSize]
  cases s.findEntry x.order <;> rfl

/-- Settles O33: the four reasons against a transfer, and the request. -/
theorem transferDecisionAtReg : Obligations.TransferDecisionAtReg := by
  intro x s hunique
  have hkept : s.updSheet x.id (fun r => { r with transfer := .none }) = _ := updSheet_eq_of_unique hunique _
  refine ⟨fun hpurge => ?_, fun hpurge hpass hside => ?_, fun hpurge hpass hside hcheck => ?_, fun hpurge hready hfull => ?_,
    fun hpurge hready hroom => ?_⟩
  · rw [← hkept]
    simp [transferAtReg, Option.isSome_iff_ne_none.mpr hpurge]
  · rw [← hkept]
    simp [transferAtReg, hpurge, hpass, hside]
  · rw [← hkept]
    simp [transferAtReg, hpurge, hpass, hside, hcheck]
  · rw [← hkept, transferAtReg_ready hpurge hready, if_pos hfull]
  · rw [transferAtReg_ready hpurge hready, if_neg (Nat.not_le.mpr hroom), updSheet_eq_of_unique (by exact hunique), ← hpurge]
    rfl

/-! ## Answers and operator inputs (R67, R84, R108) -/

namespace State

theorem answerDone_cons {s : State} {f : Transfer} {rest : List Transfer} (h : s.track.fifo = f :: rest) :
    s.answerDone = if f.live then (s.onTrack fun u => { u with fifo := rest }).updSheet f.track fun r => { r with transfer := .done }
      else s.onTrack fun u => { u with fifo := rest } := by
  simp only [answerDone, h]

theorem answerFault_cons {s : State} {f : Transfer} {rest : List Transfer} (h : s.track.fifo = f :: rest) :
    s.answerFault = if f.live then ((s.onTrack fun u => { u with fifo := rest }).updSheet f.track fun r =>
        { r with transfer := .faulted }).giveMark f.track .transferFault
      else s.onTrack fun u => { u with fifo := rest } := by
  simp only [answerFault, h]

theorem answer_nil {s : State} (h : s.track.fifo = []) : s.answerDone = s ∧ s.answerFault = s := by
  simp only [answerDone, answerFault, h, and_self]

/-- An event of R89 asks for a wake evaluation in STANDBY alone. -/
theorem askWake_eq (s : State) : s.askWake
    = { s with launch := { s.launch with wakeAsked := s.launch.wakeAsked || s.ctl.state == .standby } } := by
  unfold askWake
  split
  next h => simp [h, onLaunch]
  next h => rw [beq_false_of_ne h, Bool.or_false]

end State

/-- Settles O43: the oldest FIFO entry is answered, and an input in STANDBY asks for a wake evaluation. -/
theorem answersAndOperatorInputs : Obligations.AnswersAndOperatorInputs := by
  refine ⟨fun f rest s => ⟨fun hfifo => ⟨?_, fun hlive => ?_, fun hdead => ?_⟩, fun hfifo => ⟨?_, ?_⟩⟩,
    fun b s => ⟨?_, ?_⟩, fun t s => ⟨rfl, fun hempty => ?_⟩⟩
  · simp only [exec, execTransferDone, event, answerDone_cons (s := s.fresh) hfifo]
    cases f.live <;> rfl
  · simp only [exec, execTransferFault, event, answerFault_cons (s := s.fresh) hfifo, hlive]
    rfl
  · simp only [exec, execTransferFault, event, answerFault_cons (s := s.fresh) hfifo, hdead]
    rfl
  · simp only [exec, execTransferDone, event, (answer_nil (s := s.fresh) hfifo).1]
    rfl
  · simp only [exec, execTransferFault, event, (answer_nil (s := s.fresh) hfifo).2]
    rfl
  · simp only [exec, execUnloadEvent, event, askWake_eq]
    rfl
  · simp only [exec, execUnloadEvent, event, askWake_eq]
    rfl
  · have htray : s.fresh.launch.trays.get t = true := hempty
    simp only [exec, execRefillEvent, event, askWake_eq, htray, if_true]
    rfl

end Sys2Proof.Machine
end

section
/-! PROOFS. Encoder steps and position compares (O26). -/

namespace Sys2Proof

theorem PerSection.get_set {α : Type} (p : PerSection α) (x y : Section) (a : α) :
    (p.set x a).get y = if y = x then a else p.get y := by
  cases x <;> cases y <;> rfl

namespace Machine

open State

/-- A count that comes to reach a position at a step stands exactly at it (R5). -/
theorem reached_at_step {a p : Pos} (hbefore : ¬0 ≤ posDiff a p) (hafter : 0 ≤ posDiff (a + 1) p) : a + 1 = p := by
  have hstep : a + 1 - p = a - p + 1 := by bv_omega
  have hzero : a - p + 1 = 0 := by
    apply BitVec.eq_of_toNat_eq
    unfold posDiff at hbefore hafter
    rw [hstep] at hafter
    generalize a - p = d at hbefore hafter ⊢
    rw [BitVec.toInt_eq_toNat_cond] at hbefore hafter
    have hd := d.isLt
    have hadd : (d + 1).toNat = (d.toNat + 1) % 16777216 := BitVec.toNat_add ..
    simp only [hadd] at hafter ⊢
    simp only [BitVec.ofNat_eq_ofNat, BitVec.toNat_ofNat]
    split at hbefore <;> split at hafter <;> omega
  bv_omega

theorem reaches_iff (a p : Pos) : reaches a p = true ↔ 0 ≤ posDiff a p := by
  simp [reaches]

theorem toNat_succ_pos (a : Pos) : (a + 1).toNat = if a.toNat = 16777215 then 0 else a.toNat + 1 := by
  have ha := a.isLt
  have hadd : (a + 1).toNat = (a.toNat + 1) % 16777216 := BitVec.toNat_add ..
  rw [hadd]
  split <;> omega

theorem exec_encoderStep (x : Section) (s : State) :
    let counts := s.transport.count.set x (s.transport.count.get x + 1)
    exec (.encoderStep x) s = .next
      { s with
        out := []
        transport := { s.transport with
          count := counts
          compares := s.transport.compares.map fun k =>
            if k.event = none ∧ k.sec = x ∧ 0 ≤ posDiff (counts.get x) k.pos then
              { k with event := some counts }
            else k } } := by
  have hreach : ∀ (counts : PerSection Pos) (k : Compare),
      (k.event.isNone && k.sec == x && reaches (counts.get x) k.pos) = true
        ↔ k.event = none ∧ k.sec = x ∧ 0 ≤ posDiff (counts.get x) k.pos := fun counts k => by
    simp [reaches_iff, and_assoc]
  simp only [exec, execEncoderStep, event, stepCounter, hreach]
  rfl

theorem registerCompare_eq (owner : CompareOwner) (x : Section) (pos : Pos) (s : State) :
    s.registerCompare owner x pos = { s with transport := { s.transport with
      compares := s.transport.compares ++ [
        { owner := owner, sec := x, pos := pos
          event := if 0 ≤ posDiff (s.transport.count.get x) pos then some s.transport.count else none
          atOnce := decide (0 ≤ posDiff (s.transport.count.get x) pos) }] } } := by
  simp only [registerCompare, onTransport, reaches, decide_eq_true_eq]

theorem takeAtOnce_none {s : State} (h : ∀ q ∈ s.transport.compares, q.atOnce = false) (n : Nat) : s.takeAtOnce n = s := by
  cases n with
  | zero => rfl
  | succ n =>
    have hnone : s.transport.compares.find? (·.atOnce) = none := by simpa using h
    simp only [takeAtOnce, hnone]

theorem takeAtOnce_succ {before after : List Compare} {q : Compare} {latch : PerSection Pos} {s : State}
    (hlist : s.transport.compares = before ++ q :: after) (hbefore : ∀ y ∈ before, y.atOnce = false) (hq : q.atOnce = true)
    (hevent : q.event = some latch) (n : Nat) :
    s.takeAtOnce (n + 1) = ((s.withdrawOwner (· == q.owner)).takeCompare q.owner latch).takeAtOnce n := by
  have hfind : s.transport.compares.find? (·.atOnce) = some q := by
    have hnone : before.find? (·.atOnce) = none := by simpa using hbefore
    simp [hlist, List.find?_append, hnone, hq]
  simp only [takeAtOnce, hfind, hevent]

theorem takeReached_of_first {q : Compare} {latch : PerSection Pos} {s : State} (hevent : q.event = some latch)
    (p : CompareOwner → Bool) (hfirst : s.transport.compares.find? (fun y => y.event.isSome && p y.owner) = some q) :
    s.fresh.takeReached p = (s.fresh.withdrawOwner (· == q.owner)).takeCompare q.owner latch := by
  have hfresh : s.fresh.transport.compares.find? (fun y => y.event.isSome && p y.owner) = some q := hfirst
  simp only [takeReached, reachedCompare, hfresh, hevent]

/-- Settles O26: a step and the compares it reaches, the registration, and the taking of one event. -/
theorem encoderStepCounts : Obligations.EncoderStepCounts := by
  refine ⟨fun x s => ⟨exec_encoderStep x s, ?_, fun y hy => ?_, fun p hbefore hafter => ?_⟩, fun owner x pos s =>
    registerCompare_eq owner x pos s, fun n s h => takeAtOnce_none h n,
    fun before after q latch s hlist hbefore hq hevent n => takeAtOnce_succ hlist hbefore hq hevent n,
    fun q latch s hevent => ⟨fun hfirst => ?_, fun hfirst => ?_, fun c hfirst => ?_, fun c hfirst => ?_⟩,
    fun x c latch s hfind => ⟨fun hnext => ?_, ?_⟩⟩
  · rw [PerSection.get_set, if_pos rfl, toNat_succ_pos]
  · rw [PerSection.get_set, if_neg hy]
  · rw [PerSection.get_set, if_pos rfl] at hafter ⊢
    exact reached_at_step hbefore hafter
  · simp only [exec, execPitchBoundary, event, takeReached_of_first hevent (· == .boundary) hfirst]
    rfl
  · simp only [exec, execPick, event, takeReached_of_first hevent isPick hfirst]
    rfl
  · simp only [exec, execLateDeadline, event, takeReached_of_first hevent (s.fresh.isLateAt c) hfirst]
    rfl
  · simp only [exec, execStuckDeadline, event, takeReached_of_first hevent (isStuckAt c) hfirst]
    rfl
  · simp only [takeCompare, hfind, hnext, pathFault]
  · simp only [takeCompare, hfind, pathFault]

end Machine
end Sys2Proof
end

section
/-! PROOFS. The completion of a write and the steps that go on after a held one (O24). -/

namespace Sys2Proof.Machine

open State

namespace State

theorem queueHasRoom_iff (s : State) : s.queueHasRoom = true ↔ s.mem.queue.length < 16 := decide_eq_true_iff

/-! ## The held write that enters (R54) -/

theorem firstHeld_mem {l : List HeldWrite} {h : HeldWrite} (hl : firstHeld l = some h) : h ∈ l := by
  induction l with
  | nil => cases hl
  | cons y rest ih =>
    simp only [firstHeld] at hl
    split at hl
    · cases hl
      exact List.mem_cons_self
    next b hb =>
      split at hl
      · cases hl
        exact List.mem_cons_self
      · exact List.mem_cons_of_mem _ (ih (hb.trans hl))

/-- The held write of the highest class, and within it the one held first. -/
theorem firstHeld_eq {before after : List HeldWrite} {h : HeldWrite} (hbefore : ∀ y ∈ before, h.w.cls < y.w.cls)
    (hafter : ∀ y ∈ after, h.w.cls ≤ y.w.cls) : firstHeld (before ++ h :: after) = some h := by
  induction before with
  | nil =>
    rw [List.nil_append, firstHeld]
    cases hrest : firstHeld after with
    | none => rfl
    | some b => exact if_pos (hafter b (firstHeld_mem hrest))
  | cons y before ih =>
    have hrest := ih fun z hz => hbefore z (List.mem_cons_of_mem _ hz)
    rw [List.cons_append, firstHeld, hrest]
    exact if_neg (Nat.not_le.mpr (hbefore y List.mem_cons_self))

theorem admitHeld_nil {s : State} (h : s.mem.held = []) : s.admitHeld = s := by
  simp only [admitHeld, h, firstHeld, ite_self]

theorem admitHeld_full {s : State} (h : 16 ≤ s.mem.queue.length) : s.admitHeld = s := by
  have hroom : ¬s.queueHasRoom = true := by
    rw [queueHasRoom_iff]
    exact Nat.not_lt.mpr h
  simp only [admitHeld, if_neg hroom]

theorem admitHeld_first {s : State} {before after : List HeldWrite} {h : HeldWrite} (hheld : s.mem.held = before ++ h :: after)
    (hbefore : ∀ y ∈ before, h.w.cls < y.w.cls) (hafter : ∀ y ∈ after, h.w.cls ≤ y.w.cls)
    (hroom : s.mem.queue.length < 16) :
    s.admitHeld = runSteps h.steps
      { s with mem := { s.mem with queue := s.mem.queue ++ [h.w], held := before ++ after } } := by
  have hnew : h ∉ before := fun hmem => Nat.lt_irrefl _ (hbefore h hmem)
  have herase : (before ++ h :: after).erase h = before ++ after := by
    rw [List.erase_append_right _ hnew, List.erase_cons_head]
  simp only [admitHeld, if_pos ((queueHasRoom_iff s).mpr hroom), hheld, firstHeld_eq hbefore hafter, onMem, herase]

/-! ## The write in progress completes (R54, R137, R154) -/

/-- The attention that the completion of a write sets. -/
def tagFlags : WriteTag → FlagBits
  | .plain => 0
  | .retiredCount => 1
  | .validWord => 2

theorem announceWrite_eq (t : WriteTag) (s : State) :
    s.announceWrite t = { s with ctl := { s.ctl with attn := s.ctl.attn ||| tagFlags t } } := by
  cases t with
  | plain =>
    have hsame : s.ctl.attn ||| tagFlags .plain = s.ctl.attn := BitVec.or_zero
    rw [hsame]
    rfl
  | retiredCount | validWord => rfl

/-- The write has left the queue and its attention is set; a held write may enter now. -/
def written (w : Write) (s : State) : State :=
  { s with
    out := [.memoryWrite w.addr w.value]
    mem := { s.mem with bus := none, queue := s.mem.queue.tail }
    ctl := { s.ctl with attn := s.ctl.attn ||| tagFlags w.tag } }

end State

theorem exec_writeComplete {s : State} {w : Write} (h : s.mem.bus = some ⟨.write w, false⟩) :
    exec .writeComplete s = .next (s.written w).admitHeld.finish := by
  have hbus : s.fresh.mem.bus = some ⟨.write w, false⟩ := h
  simp only [exec, execWriteComplete, event, completeWrite, hbus, announceWrite_eq]
  rfl

theorem exec_writeComplete_cut {s : State} {w : Write} (h : s.mem.bus = some ⟨.write w, true⟩) :
    exec .writeComplete s = .next (State.finish { s with
      out := [.memoryWrite w.addr w.value], mem := { s.mem with bus := none } }) := by
  have hbus : s.fresh.mem.bus = some ⟨.write w, true⟩ := h
  simp only [exec, execWriteComplete, event, completeWrite, hbus]
  rfl

/-! ## The steps after a held write (R42, R46, R142, R154) -/

namespace State

theorem endOfDrain_eq (s : State) : s.endOfDrain
    = if s.ctl.state = .stopping ∧ ∀ x ∈ s.track.sheets, x.state = .frozen then s.jammedEntry else s := by
  simp only [endOfDrain, List.all_eq_true, beq_iff_eq]

theorem issueStopRecord_room {s : State} (h : s.queueHasRoom = true) (w : Write) (rest : List Write) :
    issueStopRecord (w :: rest) s = issueStopRecord rest { s with mem := { s.mem with queue := s.mem.queue ++ [w] } } := by
  rw [issueStopRecord, issueWrite_room h]

theorem issueStopRecord_full {s : State} (h : s.queueHasRoom = false) (w : Write) (rest : List Write) :
    issueStopRecord (w :: rest) s = { s with mem := { s.mem with held := s.mem.held ++ [⟨w, .stopRecord rest⟩] } } := by
  rw [issueStopRecord, issueWrite_full h]

theorem addEntry_of_room {s : State} (h : s.fetch.window.length < 64) (e : Entry) : s.addEntry e =
    { s with fetch := { s.fetch with window := s.fetch.window ++ [e], nextId := s.fetch.nextId + 1 } } := by
  have hroom : s.fetch.window.length < Config.orderWindowSize := h
  simp only [addEntry, onFetch, if_pos hroom]

/-- Step 6 of R46: the head is pushed, its entry added, its link followed. -/
theorem enterSequence_eq {s : State} (hwindow : s.fetch.window.length < 64) (hstack : s.fetch.stack.length < 4) (call : Nat)
    (head : Word) (w : OrderWords) :
    let outer := if s.fetch.stack = [] then some call else s.fetch.outer
    let entry : Entry :=
      { id := s.fetch.nextId, addr := head, kind := kindOf w.kind, chain := .sequence, caller := outer
        words := w, state := .fetched, draft := none, notAllowed := false
        summary := ⟨0, 0, 0, false⟩, callStatus := .notEntered, dropped := false }
    s.enterSequence call head w = State.followLink head w.link { s with
      fetch := { s.fetch with
        outer := outer, stack := ⟨head, call⟩ :: s.fetch.stack
        window := s.fetch.window ++ [entry], nextId := s.fetch.nextId + 1 } } := by
  have hroom : s.fetch.stack.length < Config.callStackDepth := hstack
  dsimp only
  simp only [enterSequence]
  rw [addEntry_of_room (by exact hwindow)]
  simp only [onFetch, if_pos hroom, newEntry, List.isEmpty_cons, Bool.false_eq_true, if_false, List.isEmpty_iff]
  rfl

end State

/-- Settles O24: the completion frees the queue's place, the first held write takes it, and its block goes on. -/
theorem writeCompletes : Obligations.WriteCompletes := by
  refine ⟨⟨fun w s => ⟨fun hbus hheld => ?_, fun h hbus hheld hroom => ?_, exec_writeComplete_cut⟩,
    fun w h before after s hbus hheld hbefore hafter => ⟨fun hroom => ?_, fun hfull => ?_⟩⟩,
    fun s => ⟨rfl, rfl, rfl, endOfDrain_eq s, rfl, fun w rest => ⟨fun hroom => issueStopRecord_room hroom w rest,
      fun hfull => issueStopRecord_full hfull w rest⟩, fun call head w hwindow hstack => enterSequence_eq hwindow hstack call head w⟩⟩
  · rw [exec_writeComplete hbus, admitHeld_nil (by exact hheld)]
    rfl
  · rw [exec_writeComplete hbus, admitHeld_first (before := []) (after := []) (by exact hheld) (by simp) (by simp)
      (by exact hroom)]
    rfl
  · rw [exec_writeComplete hbus, admitHeld_first (by exact hheld) hbefore hafter (by exact hroom)]
    rfl
  · rw [exec_writeComplete hbus, admitHeld_full (by exact hfull)]
    rfl

end Sys2Proof.Machine
end

section
/-! PROOFS. The register map (O5). -/

namespace Sys2Proof.Machine

open State

/-! ## Words made of fields -/

/-- A field of a word: its place, its width and its value. -/
structure WordField where
  lo : Nat
  width : Nat
  value : Nat

/-- The word in which the fields stand at their places. -/
def packed (fields : List WordField) : Word := fields.foldr (fun g x => placed g.lo g.value ||| x) 0

/-- Two fields do not share a place. -/
def WordField.Apart (g h : WordField) : Prop := g.lo + g.width ≤ h.lo ∨ h.lo + h.width ≤ g.lo

theorem WordField.apart_of_pairwise {fields : List WordField} (h : fields.Pairwise WordField.Apart) {a b : WordField}
    (ha : a ∈ fields) (hb : b ∈ fields) (hne : a ≠ b) : a.Apart b := by
  induction fields with
  | nil => cases ha
  | cons x rest ih =>
    obtain ⟨hx, hrest⟩ := List.pairwise_cons.mp h
    obtain rfl | harest := List.mem_cons.mp ha
    · exact hx b ((List.mem_cons.mp hb).resolve_left hne.symm)
    · obtain rfl | hbrest := List.mem_cons.mp hb
      · exact (hx a harest).symm
      · exact ih hrest harest hbrest

theorem packed_getLsbD (fields : List WordField) (k : Nat) : (packed fields).getLsbD k
    = fields.any fun g => (placed g.lo g.value).getLsbD k := by
  induction fields with
  | nil => exact BitVec.getLsbD_zero
  | cons g rest ih =>
    rw [List.any_cons, ← ih, ← BitVec.getLsbD_or]
    rfl

/-- A field has no bit outside its place. -/
theorem placed_getLsbD_outside {g : WordField} (hfit : g.value < 2 ^ g.width) {k : Nat} (hk : k < g.lo ∨ g.lo + g.width ≤ k) :
    (placed g.lo g.value).getLsbD k = false := by
  rw [placed_getLsbD]
  obtain hk | hk := hk
  · simp [Nat.not_le.mpr hk]
  · have hbit : g.value.testBit (k - g.lo) = false :=
      Nat.testBit_lt_two_pow (Nat.lt_of_lt_of_le hfit (Nat.pow_le_pow_right (by decide) (by omega)))
    simp [hbit]

theorem packed_getLsbD_unused {fields : List WordField} (hfit : ∀ g ∈ fields, g.value < 2 ^ g.width) {k : Nat}
    (hk : ∀ g ∈ fields, k < g.lo ∨ g.lo + g.width ≤ k) : (packed fields).getLsbD k = false := by
  rw [packed_getLsbD, List.any_eq_false]
  intro g hg
  rw [placed_getLsbD_outside (hfit g hg) (hk g hg)]
  exact Bool.false_ne_true

/-- Within its place, a field that stands apart from the others shows its value. -/
theorem packed_getLsbD_field {fields : List WordField} (hfit : ∀ g ∈ fields, g.value < 2 ^ g.width)
    (hapart : fields.Pairwise WordField.Apart) {g : WordField} (hg : g ∈ fields) {i : Nat} (hi : i < g.width)
    (hword : g.lo + g.width ≤ 32) : (packed fields).getLsbD (g.lo + i) = g.value.testBit i := by
  have hown : (placed g.lo g.value).getLsbD (g.lo + i) = g.value.testBit i := by
    rw [placed_getLsbD, Nat.add_sub_cancel_left]
    have hlt : g.lo + i < 32 := by omega
    simp [hlt]
  rw [packed_getLsbD, ← hown]
  have hother : ∀ h ∈ fields, h = g ∨ (placed h.lo h.value).getLsbD (g.lo + i) = false := by
    intro h hh
    by_cases hsame : h = g
    · exact .inl hsame
    · have happ : h.Apart g := WordField.apart_of_pairwise hapart hh hg hsame
      refine .inr (placed_getLsbD_outside (hfit h hh) ?_)
      unfold WordField.Apart at happ
      omega
  cases hbit : (placed g.lo g.value).getLsbD (g.lo + i) with
  | true => exact List.any_eq_true.mpr ⟨g, hg, hbit⟩
  | false =>
    refine List.any_eq_false.mpr fun h hh => ?_
    obtain rfl | hoff := hother h hh
    · simp [hbit]
    · simp [hoff]

theorem packed_extract {fields : List WordField} (hfit : ∀ g ∈ fields, g.value < 2 ^ g.width)
    (hapart : fields.Pairwise WordField.Apart) {lo width value : Nat} (hg : ⟨lo, width, value⟩ ∈ fields)
    (hword : lo + width ≤ 32) : (packed fields).extractLsb' lo width = BitVec.ofNat width value := by
  refine BitVec.eq_of_getLsbD_eq fun i hi => ?_
  rw [BitVec.getLsbD_extractLsb', BitVec.getLsbD_ofNat, packed_getLsbD_field hfit hapart hg hi hword]

theorem packed_flag {fields : List WordField} (hfit : ∀ g ∈ fields, g.value < 2 ^ g.width)
    (hapart : fields.Pairwise WordField.Apart) {k : Nat} {b : Bool} (hg : ⟨k, 1, b.toNat⟩ ∈ fields) (hk : k < 32) :
    (packed fields).getLsbD k = b := by
  have hbit := packed_getLsbD_field hfit hapart hg (i := 0) (by simp) hk
  rw [Nat.add_zero] at hbit
  rw [hbit]
  cases b <;> simp

/-! ## STAT word 0 (R159, R174) -/

namespace State

/-- The fields of STAT word 0. -/
def statFields (s : State) : List WordField :=
  [⟨0, 4, s.ctl.state.code⟩, ⟨4, 2, s.transport.state.code⟩, ⟨6, 1, s.commandBusy.toNat⟩,
    ⟨8, 4, codeOr0 BitVec.toNat s.ctl.lastCommand % 16⟩, ⟨12, 4, codeOr0 CommandOutcome.code s.ctl.lastOutcome⟩,
    ⟨16, 4, codeOr0 Validation.code s.ctl.validation⟩, ⟨20, 1, s.clock.loopUnusable.toNat⟩,
    ⟨21, 1, s.jam.recoveryPending.toNat⟩, ⟨22, 1, s.transport.speedDeviation.toNat⟩, ⟨23, 1, s.mail.purgeFull.toNat⟩,
    ⟨24, 4, codeOr0 SkipReason.code s.ctl.lastSkip⟩]

theorem statWord0_eq_packed (s : State) : s.statWord0 = packed s.statFields := by
  simp [statWord0, packed, statFields, BitVec.or_assoc]

theorem codeOr0_lt {α : Type} {code : α → Nat} {n : Nat} (hn : 0 < n) (hcode : ∀ a, code a < n) (a : Option α) :
    codeOr0 code a < n := by
  cases a with
  | none => exact hn
  | some a => exact hcode a

theorem statFields_fit (s : State) : ∀ g ∈ s.statFields, g.value < 2 ^ g.width := by
  have hstate : s.ctl.state.code < 16 := by cases s.ctl.state <;> decide
  have htransport : s.transport.state.code < 4 := by cases s.transport.state <;> decide
  have hlast : codeOr0 BitVec.toNat s.ctl.lastCommand % 16 < 16 := Nat.mod_lt _ (by decide)
  have houtcome : codeOr0 CommandOutcome.code s.ctl.lastOutcome < 16 :=
    codeOr0_lt (by decide) (fun o => by cases o <;> decide) _
  have hvalidation : codeOr0 Validation.code s.ctl.validation < 16 :=
    codeOr0_lt (by decide) (fun v => by cases v <;> decide) _
  have hskip : codeOr0 SkipReason.code s.ctl.lastSkip < 16 := codeOr0_lt (by decide) (fun r => by cases r <;> decide) _
  simp only [statFields, List.forall_mem_cons, List.not_mem_nil, false_implies, implies_true, and_true]
  exact ⟨hstate, htransport, Bool.toNat_lt _, hlast, houtcome, hvalidation, Bool.toNat_lt _, Bool.toNat_lt _, Bool.toNat_lt _,
    Bool.toNat_lt _, hskip⟩

theorem statFields_apart (s : State) : s.statFields.Pairwise WordField.Apart := by
  simp [statFields, WordField.Apart]

/-- Every field of STAT word 0 stands at its place, and bits 7 and 28 to 31 read as 0. -/
theorem statWord0_fields (s : State) :
    s.statWord0.extractLsb' 0 4 = BitVec.ofNat 4 s.ctl.state.code
      ∧ s.statWord0.extractLsb' 4 2 = BitVec.ofNat 2 s.transport.state.code
      ∧ s.statWord0.getLsbD 6 = s.ctl.cmd.isSome ∧ s.statWord0.getLsbD 7 = false
      ∧ s.statWord0.extractLsb' 8 4 = ((s.ctl.lastCommand.getD 0).setWidth 4)
      ∧ s.statWord0.extractLsb' 12 4 = BitVec.ofNat 4 (codeOr0 CommandOutcome.code s.ctl.lastOutcome)
      ∧ s.statWord0.extractLsb' 16 4 = BitVec.ofNat 4 (codeOr0 Validation.code s.ctl.validation)
      ∧ s.statWord0.getLsbD 20 = s.clock.loopUnusable ∧ s.statWord0.getLsbD 21 = s.jam.recoveryPending
      ∧ s.statWord0.getLsbD 22 = s.transport.speedDeviation ∧ s.statWord0.getLsbD 23 = s.mail.purgeFull
      ∧ s.statWord0.extractLsb' 24 4 = BitVec.ofNat 4 (codeOr0 SkipReason.code s.ctl.lastSkip)
      ∧ s.statWord0.extractLsb' 28 4 = 0 := by
  have hfit := s.statFields_fit
  have hapart := s.statFields_apart
  have hlast : BitVec.ofNat 4 (codeOr0 BitVec.toNat s.ctl.lastCommand % 16) = (s.ctl.lastCommand.getD 0).setWidth 4 := by
    apply BitVec.eq_of_toNat_eq
    cases s.ctl.lastCommand <;> simp [codeOr0]
  have hreserved : (packed s.statFields).extractLsb' 28 4 = 0 := by
    refine BitVec.eq_of_getLsbD_eq fun i hi => ?_
    rw [BitVec.getLsbD_extractLsb', packed_getLsbD_unused hfit]
    · simp
    · simp [statFields]
      omega
  rw [statWord0_eq_packed, ← hlast]
  exact ⟨packed_extract hfit hapart (by simp [statFields]) (by decide),
    packed_extract hfit hapart (by simp [statFields]) (by decide),
    packed_flag hfit hapart (by simp [statFields, commandBusy]) (by decide),
    packed_getLsbD_unused hfit (by simp [statFields]),
    packed_extract hfit hapart (by simp [statFields]) (by decide),
    packed_extract hfit hapart (by simp [statFields]) (by decide),
    packed_extract hfit hapart (by simp [statFields]) (by decide),
    packed_flag hfit hapart (by simp [statFields]) (by decide), packed_flag hfit hapart (by simp [statFields]) (by decide),
    packed_flag hfit hapart (by simp [statFields]) (by decide), packed_flag hfit hapart (by simp [statFields]) (by decide),
    packed_extract hfit hapart (by simp [statFields]) (by decide), hreserved⟩

end State

/-! ## The register window (R174) -/

theorem registerAt_eq_none {o : Nat} (h : o ∉ [0x00, 0x04, 0x08, 0x0C, 0x10, 0x14]) : registerAt o = none := by
  unfold registerAt
  split <;> simp_all

theorem commandOfCode_unknown {v : Word} (h : v.toNat = 0 ∨ 8 ≤ v.toNat) : commandOfCode v = .unknownCommand v := by
  unfold commandOfCode
  split
  case h_8 => rfl
  all_goals omega

/-- The command that a code names carries that code, and its row admits it (R160). -/
theorem commandOfCode_carries (v : Word) :
    (commandOfCode v).cmdCode = some v ∧ (commandOfCode v).wellFormed = true := by
  by_cases hunknown : v.toNat = 0 ∨ 8 ≤ v.toNat
  · have hname : namesCommand v = false := by
      rw [← Bool.not_eq_true, namesCommand_iff]
      omega
    rw [commandOfCode_unknown hunknown]
    exact ⟨rfl, by simp only [Instr.wellFormed, hname, Bool.not_false]⟩
  · have hnamed : v = 1 ∨ v = 2 ∨ v = 3 ∨ v = 4 ∨ v = 5 ∨ v = 6 ∨ v = 7 := by bv_omega
    obtain rfl | rfl | rfl | rfl | rfl | rfl | rfl := hnamed <;> exact ⟨rfl, rfl⟩

/-- Settles O5: the fields of STAT word 0 (`statWord0_fields`) and the six registers of the window. -/
theorem registerMap : Obligations.RegisterMap := by
  refine ⟨⟨fun s => ?_, rfl, rfl, rfl, rfl, rfl⟩, fun s v => ⟨fun hidle => ?_, fun hbusy => ?_, ?_, fun o ho => ?_, rfl,
    commandOfCode_unknown, ?_, ?_, rfl⟩⟩
  · obtain ⟨hstate, htransport, hbusy, hzero, hlast, houtcome, hvalidation, hloop, hrecovery, hspeed, hfull, hskip, hunused⟩ :=
      s.statWord0_fields
    exact ⟨hstate, htransport, hbusy, hzero, hlast, houtcome, hvalidation, hloop, hrecovery, hspeed, hfull, hskip, hunused, rfl⟩
  · simp [windowWrite, registerAt, registerWrite, commandBusy, hidle]
  · simp [windowWrite, registerAt, registerWrite, commandBusy, hbusy]
  · cases h : s.ctl.cmd <;> simp [windowRead, registerAt, registerRead, areaRead, cmdRead, attnWord, amaskRead, h]
  · simp [windowWrite, windowRead, registerAt_eq_none ho]
  · exact (commandOfCode_carries v).1
  · exact (commandOfCode_carries v).2

end Sys2Proof.Machine
end

section
/-! PROOFS. The control area as the part addresses it (O6). -/

namespace Sys2Proof.Machine

open State

/-! ## AREA (R158) -/

/-- Clearing the two low bits takes a word down to a multiple of 4. -/
theorem and_not_three (v : Word) : v &&& ~~~(3 : Word) = BitVec.ofNat 32 (v.toNat / 4 * 4) := by
  refine BitVec.eq_of_getLsbD_eq fun k hk => ?_
  have hdown : (v.toNat / 4 * 4).testBit k = (decide (2 ≤ k) && v.toNat.testBit k) := by
    rw [show v.toNat / 4 * 4 = v.toNat / 2 ^ 2 * 2 ^ 2 from rfl, Nat.testBit_mul_two_pow, Nat.testBit_div_two_pow]
    by_cases hle : 2 ≤ k
    · simp [hle]
    · simp [hle]
  have hlow : (3 : Word).getLsbD k = decide (k < 2) := Nat.testBit_two_pow_sub_one 2 k
  rw [BitVec.getLsbD_and, BitVec.getLsbD_not, hlow, BitVec.getLsbD_ofNat, hdown]
  by_cases hle : 2 ≤ k
  · have hlt : ¬k < 2 := Nat.not_lt.mpr hle
    simp only [hk, hle, hlt, decide_true, decide_false, Bool.true_and, Bool.not_false, Bool.and_true]
    rfl
  · simp [hle, Nat.not_le.mp hle]

theorem areaWritable_iff (s : State) : s.areaWritable = true
    ↔ s.ctl.state = .unconfigured ∨ s.ctl.state = .ready ∨ s.ctl.state = .halted := by
  unfold areaWritable
  cases s.ctl.state <;> simp

theorem exec_areaWrite_writable {s : State} (h : s.ctl.state = .unconfigured ∨ s.ctl.state = .ready ∨ s.ctl.state = .halted)
    (v : Word) : exec (.areaWrite v) s
      = .next { s with out := [], ctl := { s.ctl with area := BitVec.ofNat 32 (v.toNat / 4 * 4) } } := by
  have hwritable : s.fresh.areaWritable = true := (areaWritable_iff s).mpr h
  simp only [exec, execAreaWrite, event, hwritable, if_true, and_not_three]
  rfl

theorem exec_areaWrite_ignored {s : State} (h : ¬(s.ctl.state = .unconfigured ∨ s.ctl.state = .ready ∨ s.ctl.state = .halted))
    (v : Word) : exec (.areaWrite v) s = .next { s with out := [] } := by
  have hwritable : ¬s.fresh.areaWritable = true := fun hw => h ((areaWritable_iff s).mp hw)
  simp only [exec, execAreaWrite, event, if_neg hwritable]
  rfl

/-! ## The reads of commands (R165, R167, R168) -/

theorem exec_loadConfig_reads {s : State} (hidle : s.ctl.cmd = none) (hstate : s.ctl.state = .unconfigured ∨ s.ctl.state = .ready) :
    ∃ u : State, exec .loadConfig s = .next u.finish
      ∧ u.mem.waiting = s.mem.waiting ++ [⟨.windowLength, [s.ctl.area]⟩] :=
  ⟨_, exec_loadConfig_allowed hidle ((loadAllowed_iff s).mpr (hstate.imp_right .inl)), rfl⟩

theorem runRefusal_eq_none {s : State} (hstate : s.ctl.state = .ready) (hclear : s.allClear) (hpurge : s.mail.purgeFull = false) :
    s.runRefusal = none := by
  simp [runRefusal, hstate, (sensorsClear_iff s).mpr hclear, hpurge]

theorem exec_run_reads {s : State} (hidle : s.ctl.cmd = none) (hstate : s.ctl.state = .ready) (hclear : s.allClear)
    (hpurge : s.mail.purgeFull = false) : ∃ u : State, exec .run s = .next u.finish
      ∧ u.mem.waiting = s.mem.waiting ++ [⟨.windowLength, [s.ctl.area]⟩] := by
  have hok : s.fresh.runRefusal = none := runRefusal_eq_none (s := s.fresh) hstate hclear hpurge
  refine ⟨s.fresh.takeRun, command_idle hidle 2 takeRun, ?_⟩
  simp [takeRun, hok, emptyForRun, clearResume, beginCommand, controlWord]

theorem exec_recover_reads {s : State} (hidle : s.ctl.cmd = none) (hstate : s.ctl.state = .halted)
    (hpending : s.jam.recoveryPending = true) (hpurge : s.mail.purgeFull = false) (hzero : s.jam.recoveryResume = 0) :
    ∃ u : State, exec .recover s = .next u.finish
      ∧ u.mem.waiting = s.mem.waiting ++ [⟨.recoveryHead, [s.ctl.area + 12]⟩] := by
  have hok : s.fresh.restartRefusal true = none := by simp [restartRefusal, hstate, hpending, hpurge]
  refine ⟨s.fresh.takeRecover, command_idle hidle 5 takeRecover, ?_⟩
  simp [takeRecover, hok, hzero, restart, beginCommand, controlWord, wordAddr]

/-! ## The stop record (R154, R178) -/

theorem chainFault_queue {s : State} (hroom : s.queueHasRoom = true) (src : FaultSource) (bad : Word) :
    (s.chainFault src bad).mem.queue = s.mem.queue ++ [⟨5, s.ctl.area + 44, bad, .plain⟩] := by
  have hroom' : (s.setPos (.chainFault src)).queueHasRoom = true := hroom
  simp only [chainFault, issueWrite_room hroom']
  rfl

/-- The places of the stop record's words lie in its part of the control area. -/
theorem stopRecordWords_place {j : Jam} (hstranded : j.stranded.length ≤ 24) (hinterrupted : j.interrupted.length ≤ 32)
    {p : Nat × Word} (hp : p ∈ stopRecordWords j) : 16 ≤ p.1 ∧ p.1 < 160 := by
  simp only [stopRecordWords, List.mem_append, or_assoc] at hp
  obtain hcause | hfixed | hplace | hcount | hnumber | hvalid := hp
  · have hall : ∀ c : Option PrimaryCause, ∀ q ∈ primaryWords c, 16 ≤ q.1 ∧ q.1 < 160 := fun c => by
      cases c <;> simp [primaryWords]
    exact hall _ p hcause
  · have hall : ∀ q : Nat × Word, q.1 ∈ [23, 24, 25, 26, 27, 28, 29] → 16 ≤ q.1 ∧ q.1 < 160 := by simp
    refine hall p ?_
    have hmem := List.mem_map_of_mem (f := Prod.fst) hfixed
    simpa using hmem
  · obtain ⟨⟨x, i⟩, hx, hword⟩ := List.mem_flatMap.mp hplace
    have hi := (List.mem_zipIdx hx).2.1
    have hmem := List.mem_map_of_mem (f := Prod.fst) hword
    simp only [strandedWords, List.map_cons, List.map_nil, List.mem_cons, List.not_mem_nil, or_false] at hmem
    omega
  · rw [List.mem_singleton.mp hcount]
    simp
  · obtain ⟨⟨n, i⟩, hn, rfl⟩ := List.mem_map.mp hnumber
    have hi := (List.mem_zipIdx hn).2.1
    dsimp only
    omega
  · rw [List.mem_singleton.mp hvalid]
    simp

/-- Settles O6: every access of the control area is at a distance from AREA. -/
theorem areaHoldsAWordAddress : Obligations.AreaHoldsAWordAddress := by
  refine ⟨fun s v => ⟨fun h => exec_areaWrite_writable h v, fun h => exec_areaWrite_ignored h v, rfl, fun a => ⟨rfl, rfl⟩,
    fun e => ⟨rfl, rfl, fun k _ => ?_⟩⟩, fun s => ⟨exec_loadConfig_reads, exec_run_reads, fun v r hbus hr =>
      ⟨fun code hcmd => ?_, fun code hcmd => ?_⟩, exec_recover_reads, rfl, rfl, fun src bad hroom => chainFault_queue hroom src bad, ?_,
      fun hstranded hinterrupted p => stopRecordWords_place hstranded hinterrupted⟩⟩
  · show s.ctl.area + BitVec.ofNat 32 (4 * (6 + k)) = _
    rw [Nat.mul_add]
  · refine ⟨_, exec_windowLengthRead hbus hr v, ?_⟩
    rw [takeWindowLength_load (s := s.fresh.freeBus) hcmd]
    rfl
  · refine ⟨_, exec_windowLengthRead hbus hr v, ?_⟩
    rw [takeWindowLength_run (s := s.fresh.freeBus) hcmd]
    rfl
  · rw [stopRecordWrites, List.map_map]
    rfl

end Sys2Proof.Machine
end

section
/-! PROOFS. Rules of the Order Fetch Unit and of the run-up order, for the commands and the completions of reads. -/

namespace Sys2Proof.Machine.State

/-! ## Chain faults and links (R41, R42, R51, R156) -/

theorem chainFault_room {s : State} (h : s.queueHasRoom = true) (src : FaultSource) (bad : Word) :
    s.chainFault src bad = { s with
      fetch := { s.fetch with pos := .chainFault src }
      mem := { s.mem with queue := s.mem.queue ++ [⟨5, s.ctl.area + 44, bad, .plain⟩] }
      ctl := { s.ctl with attn := s.ctl.attn ||| 0x80, lastSkip := some .chainFault } } := by
  have hroom : (s.setPos (.chainFault src)).queueHasRoom = true := h
  simp only [chainFault, issueWrite_room hroom]
  rfl

theorem chainFault_full {s : State} (h : s.queueHasRoom = false) (src : FaultSource) (bad : Word) :
    s.chainFault src bad = { s with
      fetch := { s.fetch with pos := .chainFault src }
      mem := { s.mem with held := s.mem.held ++ [⟨⟨5, s.ctl.area + 44, bad, .plain⟩, .chainFault⟩] } } := by
  have hfull : (s.setPos (.chainFault src)).queueHasRoom = false := h
  simp only [chainFault, issueWrite_full hfull]
  rfl

theorem chainFault_fetch (src : FaultSource) (bad : Word) (s : State) :
    (s.chainFault src bad).fetch = { s.fetch with pos := .chainFault src } := by
  cases hroom : s.queueHasRoom with
  | true => rw [chainFault_room hroom]
  | false => rw [chainFault_full hroom]

theorem follow_ok {s : State} {a : Word} (h : s.orderAddrOk a = true) (src : FaultSource) :
    s.follow src a = { s with fetch := { s.fetch with pos := .next a } } := by
  simp only [follow, h, if_true]
  rfl

theorem follow_bad {s : State} {a : Word} (h : s.orderAddrOk a = false) (src : FaultSource) :
    s.follow src a = s.chainFault src a := by
  simp only [follow, h, Bool.false_eq_true, if_false]

theorem startMainResume_zero {s : State} (h : s.jam.mainResume = 0) :
    s.startMainResume = { s with fetch := { s.fetch with pos := .chainEnd .controlWord2 } } := by
  simp only [startMainResume, h, if_true]
  rfl

theorem startMainResume_ok {s : State} (hne : s.jam.mainResume ≠ 0) (h : s.orderAddrOk s.jam.mainResume = true) :
    s.startMainResume = { s with fetch := { s.fetch with pos := .next s.jam.mainResume } } := by
  simp only [startMainResume, if_neg hne, follow_ok h]

theorem startMainResume_bad {s : State} (hne : s.jam.mainResume ≠ 0) (h : s.orderAddrOk s.jam.mainResume = false) :
    s.startMainResume = s.chainFault (.value s.jam.mainResume) s.jam.mainResume := by
  simp only [startMainResume, if_neg hne, follow_bad h]

/-- The Order Fetch Unit on the main chain, at the resync flag of its resume point (R51). -/
def onMain (s : State) : State := { s with fetch := { s.fetch with chain := .main, resync := s.jam.mainResync } }

theorem switchToMain_eq (s : State) : s.switchToMain = s.onMain.startMainResume := rfl

theorem switchToMain_zero {s : State} (h : s.jam.mainResume = 0) :
    s.switchToMain = { s.onMain with fetch := { s.onMain.fetch with pos := .chainEnd .controlWord2 } } :=
  startMainResume_zero (s := s.onMain) h

theorem switchToMain_ok {s : State} (hne : s.jam.mainResume ≠ 0) (h : s.orderAddrOk s.jam.mainResume = true) :
    s.switchToMain = { s.onMain with fetch := { s.onMain.fetch with pos := .next s.jam.mainResume } } :=
  startMainResume_ok (s := s.onMain) hne h

theorem switchToMain_bad {s : State} (hne : s.jam.mainResume ≠ 0) (h : s.orderAddrOk s.jam.mainResume = false) :
    s.switchToMain = s.onMain.chainFault (.value s.jam.mainResume) s.jam.mainResume :=
  startMainResume_bad (s := s.onMain) hne h

/-- A link of 0 in the recovery chain, outside any sequence, is the switch to the main chain (R51). -/
theorem followLink_switch {s : State} (hstack : s.fetch.stack = []) (hchain : s.fetch.chain = .recovery) (block : Word) :
    s.followLink block 0 = s.switchToMain := by
  simp only [followLink, hstack, hchain, List.isEmpty_nil, and_self, if_true]

theorem followLink_end {s : State} (h : s.fetch.stack ≠ [] ∨ s.fetch.chain = .main) (block : Word) :
    s.followLink block 0 = { s with fetch := { s.fetch with pos := .chainEnd (.block block) } } := by
  have hstay : ¬(s.fetch.stack.isEmpty = true ∧ s.fetch.chain = .recovery) := by
    rintro ⟨hstack, hchain⟩
    obtain hne | hmain := h
    · exact hne (List.isEmpty_iff.mp hstack)
    · rw [hmain] at hchain
      cases hchain
  simp only [followLink, if_true, if_neg hstay]
  rfl

theorem followLink_next {s : State} {link : Word} (hne : link ≠ 0) (h : s.orderAddrOk link = true) (block : Word) :
    s.followLink block link = { s with fetch := { s.fetch with pos := .next link } } := by
  simp only [followLink, if_neg hne, follow_ok h]

theorem followLink_bad {s : State} {link : Word} (hne : link ≠ 0) (h : s.orderAddrOk link = false) (block : Word) :
    s.followLink block link = s.chainFault (.link block) link := by
  simp only [followLink, if_neg hne, follow_bad h]

/-! ## The run-up order beside changes of the other blocks (R10) -/

/-- A run-up order neither looks at the controller, the fetch, the jam record or memory nor changes them. -/
theorem runUpOrder_beside (s : State) (f : Fetch) (j : Jam) (m : Mem) (c : Control) (o : List Output) :
    State.runUpOrder { s with fetch := f, jam := j, mem := m, ctl := c, out := o }
      = { s.runUpOrder with fetch := f, jam := j, mem := m, ctl := c, out := o } := by
  simp only [runUpOrder]
  split <;> rfl

end Sys2Proof.Machine.State
end

section
/-! PROOFS. The host's commands (O8, O12, O14, O15, O16). -/

namespace Sys2Proof.Machine

open State

namespace State

/-! ## RUN (R164, R167) -/

theorem runRefusal_refusedState {s : State} (h : ¬(s.ctl.state = .ready ∨ (s.ctl.state = .halted ∧ s.fetch.window = []))) :
    s.runRefusal = some .refusedState := by
  have hbad : ¬(s.ctl.state == .ready || (s.ctl.state == .halted && s.fetch.window.isEmpty)) = true := by simpa using h
  simp only [runRefusal, hbad, Bool.not_false, if_true]

theorem runRefusal_of_state {s : State} (h : s.ctl.state = .ready ∨ (s.ctl.state = .halted ∧ s.fetch.window = [])) :
    s.runRefusal = if s.sensorsClear = false then some .pathNotClear
      else if s.mail.purgeFull = true then some .purgeFull else none := by
  have hok : (s.ctl.state == .ready || (s.ctl.state == .halted && s.fetch.window.isEmpty)) = true := by simpa using h
  simp only [runRefusal, hok, Bool.not_true, Bool.false_eq_true, if_false, Bool.not_eq_true']

theorem runRefusal_accepted {s : State} (hstate : s.ctl.state = .ready ∨ (s.ctl.state = .halted ∧ s.fetch.window = []))
    (hclear : s.allClear) (hpurge : s.mail.purgeFull = false) : s.runRefusal = none := by
  simp [runRefusal_of_state hstate, (sensorsClear_iff s).mpr hclear, hpurge]

/-- The state that RUN, accepted, gives the run-up order in. -/
theorem takeRun_accepted {s : State} (h : s.runRefusal = none) : s.takeRun =
    ((((s.setState .running).emptyForRun.clearResume).runUpOrder.beginCommand 2 .runLength).requestRead .windowLength
      [s.ctl.area]) := by
  simp only [takeRun, h]
  simp [controlWord, emptyForRun, clearResume, beginCommand]

end State

/-- Settles O12. -/
theorem runAccepted : Obligations.RunAccepted := by
  intro s hidle hstate hclear hpurge
  have hok : s.fresh.runRefusal = none := runRefusal_accepted (s := s.fresh) hstate hclear hpurge
  refine ⟨_, command_idle hidle 2 takeRun, ?_⟩
  rw [takeRun_accepted hok]
  cases htransport : s.transport.state <;>
    simp [emptyForRun, clearResume, runUpOrder, startRunUp, beginCommand, htransport, freshFetch, discardRead, setState]

/-! ## HALT and the entry to HALTED (R161 to R163) -/

namespace State

theorem enterDraining_nonempty {s : State} (h : s.track.sheets ≠ []) :
    s.enterDraining = { s with ctl := { s.ctl with state := .draining } } := by
  have hne : ¬(s.setState .draining).track.sheets.isEmpty = true := fun he => h (List.isEmpty_iff.mp he)
  simp only [enterDraining, if_neg hne]
  rfl

/-- The entry to HALTED sets the state, whatever it was. -/
theorem enterHalted_setState (c : ControllerState) (s : State) : (s.setState c).enterHalted = s.enterHalted := rfl

theorem enterDraining_empty {s : State} (h : s.track.sheets = []) : s.enterDraining = s.enterHalted := by
  have he : (s.setState .draining).track.sheets.isEmpty = true := List.isEmpty_iff.mpr h
  simp only [enterDraining, if_pos he, enterHalted_setState]

theorem takeHalt_running {s : State} (h : s.ctl.state = .running) : s.takeHalt = (s.endCommand 3 .accepted).enterDraining := by
  simp only [takeHalt, h]

theorem takeHalt_standby {s : State} (h : s.ctl.state = .standby) : s.takeHalt = (s.endCommand 3 .accepted).enterHalted := by
  simp only [takeHalt, h]

theorem takeHalt_refused {s : State} (h : ¬(s.ctl.state = .running ∨ s.ctl.state = .standby)) :
    s.takeHalt = s.endCommand 3 .refusedState := by
  unfold takeHalt
  split
  next hstate => exact absurd (.inl hstate) h
  next hstate => exact absurd (.inr hstate) h
  all_goals rfl

/-- The PAUSE that began the draining is settled (R162). -/
theorem settlePause_eq (s : State) : s.settlePause = { s with
    ctl := { s.ctl with pauseRec := none }
    fetch := match s.ctl.pauseRec with
      | none => s.fetch
      | some p => { s.fetch with
          window := s.fetch.window.map fun e => if e.id = p then { e with state := .settled } else e } } := by
  unfold settlePause
  split
  next hnone =>
    simp only [hnone]
    rw [← hnone]
  next p hsome =>
    simp only [hsome]
    rfl

/-- Every section halted: none is tracked, and no deadline is left (R97). -/
def allHalted (s : State) : State :=
  { s with
    track := { s.track with tracking := perSection false }
    transport := { s.transport with compares := s.transport.compares.filter fun k => !k.owner.isDeadline } }

theorem haltSections_all (s : State) : s.haltSections (perSection true) = s.allHalted := by
  have hpair : ∀ k : Compare, (!(k.owner.isDeadline && (perSection true).get k.sec)) = !k.owner.isDeadline := fun k => by
    rw [perSection_get, Bool.and_true]
  have htracking : (PerSection.of fun x => s.track.tracking.get x && !(perSection true).get x) = perSection false :=
    PerSection.ext_get fun x => by simp [PerSection.get_of, perSection_get]
  simp only [haltSections, hpair, onTrack, onTransport, htracking]
  rfl

/-- A run-out order changes the transport and the Pitch Clock alone, and does not look at the controller. -/
theorem runOutOrder_beside (s : State) (c : Control) : State.runOutOrder { s with ctl := c }
    = { s with ctl := c, transport := s.runOutOrder.transport, clock := s.runOutOrder.clock } := by
  cases hstate : s.transport.state with
  | stopped | runOut => simp only [runOutOrder, hstate, onTransport]
  | runUp | atSpeed =>
    simp only [runOutOrder, hstate, enterRunOut]
    rfl

theorem enterHalted_eq (s : State) : s.enterHalted = { s with
    ctl := { s.ctl with state := .halted, pauseRec := none, attn := s.ctl.attn ||| 4 }
    track := { s.track with tracking := perSection false }
    transport := s.allHalted.runOutOrder.transport, clock := s.allHalted.runOutOrder.clock
    fetch := match s.ctl.pauseRec with
      | none => s.fetch
      | some p => { s.fetch with
          window := s.fetch.window.map fun e => if e.id = p then { e with state := .settled } else e } } := by
  have hall : (s.setState .halted).allHalted = { s.allHalted with ctl := { s.ctl with state := .halted } } := rfl
  simp only [enterHalted, haltSections_all, hall, runOutOrder_beside, settlePause_eq]
  rfl

theorem runOutOrder_run (s : State) : s.runOutOrder.transport.run
      = (if s.transport.state = .runUp ∨ s.transport.state = .atSpeed then perSection false else s.transport.run)
    ∧ s.runOutOrder.transport.state
      = (if s.transport.state = .runUp ∨ s.transport.state = .atSpeed then .runOut else s.transport.state)
    ∧ (s.transport.state = .runOut → s.runOutOrder.transport.heldRunUp = false) := by
  cases hstate : s.transport.state <;> simp [runOutOrder, hstate, enterRunOut]

/-- A run-out order withdraws at most the boundary compare (R19). -/
theorem runOutOrder_compares (s : State) {k : Compare} :
    (k ∈ s.runOutOrder.transport.compares → k ∈ s.transport.compares)
      ∧ (k ∈ s.transport.compares → k.owner ≠ .boundary → k ∈ s.runOutOrder.transport.compares) := by
  cases hstate : s.transport.state with
  | stopped | runOut => simp +contextual [runOutOrder, hstate]
  | runUp => simp +contextual [runOutOrder, hstate, enterRunOut_runUp hstate]
  | atSpeed => simp +contextual [runOutOrder, hstate, enterRunOut_atSpeed hstate]

end State

theorem exec_halt {s : State} (hidle : s.ctl.cmd = none) : exec .halt s = .next s.fresh.takeHalt.finish :=
  command_idle hidle 3 takeHalt

/-- Settles O14. -/
theorem haltAndEntryToHalted : Obligations.HaltAndEntryToHalted := by
  refine ⟨⟨fun s hidle => ⟨fun hrunning hsheets => ?_, fun hstate => ?_, fun hstate => ?_⟩, fun s => ⟨_, rfl, ?_⟩⟩,
    fun s => ⟨enterDraining_nonempty, enterDraining_empty⟩⟩
  · rw [exec_halt hidle, takeHalt_running (s := s.fresh) hrunning, enterDraining_nonempty (by exact hsheets)]
    rfl
  · rw [exec_halt hidle]
    obtain ⟨hrunning, hsheets⟩ | hstandby := hstate
    · rw [takeHalt_running (s := s.fresh) hrunning, enterDraining_empty (by exact hsheets)]
      rfl
    · rw [takeHalt_standby (s := s.fresh) hstandby]
      rfl
  · rw [exec_halt hidle, takeHalt_refused (s := s.fresh) hstate]
    rfl
  · obtain ⟨hrun, hstate, hheld⟩ := runOutOrder_run s.allHalted
    rw [enterHalted_eq]
    refine ⟨rfl, rfl, hrun, hstate, hheld, fun k hk => ?_, fun k hk hdeadline hboundary => ?_, rfl, rfl⟩
    · simpa [allHalted] using (runOutOrder_compares s.allHalted).1 hk
    · exact (runOutOrder_compares s.allHalted).2 (by simpa [allHalted] using ⟨hk, hdeadline⟩) hboundary

end Sys2Proof.Machine
end

section
/-! PROOFS. RESUME and RECOVER (O15). -/

namespace Sys2Proof.Machine

open State

namespace State

/-- A restart with the Order Fetch Unit set afresh on a chain (R49, R168). -/
def restarted (s : State) (chain : Stream) (resync : Bool) : State :=
  { s.runUpOrder with
    out := []
    ctl := { s.ctl with state := .running }
    jam := { s.jam with recoveryPending := false }
    fetch := { s.fetch with
      pos := .idle, stack := [], outer := none, chain := chain, resync := resync
      read := s.fetch.read.map fun r => { r with discard := true }, rereadAsked := false } }

theorem restart_fresh (s : State) : restart s.fresh = { s.runUpOrder with
    out := [], fetch := s.fetch, mem := s.mem, ctl := { s.ctl with state := .running }
    jam := { s.jam with recoveryPending := false } } :=
  runUpOrder_beside s s.fetch { s.jam with recoveryPending := false } s.mem { s.ctl with state := .running } []

theorem restart_freshFetch (s : State) (chain : Stream) (resync : Bool) :
    (restart s.fresh).freshFetch chain resync = s.restarted chain resync := by
  have hmem : s.runUpOrder.mem = s.mem := by simp
  rw [restart_fresh, ← hmem]
  rfl

theorem restarted_orderAddrOk (s : State) (chain : Stream) (resync : Bool) (a : Word) :
    (s.restarted chain resync).orderAddrOk a = s.orderAddrOk a :=
  orderAddrOk_congr (s := s) (t := s.restarted chain resync) rfl (by simp [restarted]) a

theorem restartRefusal_none {s : State} {needPending : Bool} (hstate : s.ctl.state = .halted)
    (hpending : needPending = true → s.jam.recoveryPending = true) (hpurge : s.mail.purgeFull = false) :
    s.restartRefusal needPending = none := by
  cases needPending with
  | false => simp [restartRefusal, hstate, hpurge]
  | true => simp [restartRefusal, hstate, hpurge, hpending rfl]

theorem takeResume_plain {s : State} (hstate : s.ctl.state = .halted) (hpurge : s.mail.purgeFull = false)
    (hpending : s.jam.recoveryPending = false) : s.fresh.takeResume = (restart s.fresh).endCommand 4 .accepted := by
  have hok : s.fresh.restartRefusal false = none := restartRefusal_none hstate nofun hpurge
  have hnot : ¬s.fresh.jam.recoveryPending = true := by simp [hpending]
  simp only [takeResume, hok, if_neg hnot]

theorem takeResume_pending {s : State} (hstate : s.ctl.state = .halted) (hpurge : s.mail.purgeFull = false)
    (hpending : s.jam.recoveryPending = true) :
    s.fresh.takeResume = ((s.restarted .main s.jam.mainResync).startMainResume).endCommand 4 .accepted := by
  have hok : s.fresh.restartRefusal false = none := restartRefusal_none hstate nofun hpurge
  simp only [takeResume, hok, fresh_jam, hpending, if_true, restart_freshFetch]

theorem takeRecover_accepted {s : State} (hstate : s.ctl.state = .halted) (hpurge : s.mail.purgeFull = false)
    (hpending : s.jam.recoveryPending = true) :
    s.fresh.takeRecover = if s.jam.recoveryResume = 0 then
        ((s.restarted .recovery false).beginCommand 5 .recoverHead).requestRead .recoveryHead [s.ctl.area + 12]
      else ((s.restarted .recovery false).follow (.value s.jam.recoveryResume) s.jam.recoveryResume).endCommand 5 .accepted := by
  have hok : s.fresh.restartRefusal true = none := restartRefusal_none hstate (fun _ => hpending) hpurge
  simp only [takeRecover, hok, restart_freshFetch, fresh_jam]
  rfl

/-- Taking the main resume point changes the position and, through a chain fault, attention, skip reason and writes. -/
theorem startMainResume_parts (s : State) : s.startMainResume =
    { s with
      fetch := { s.fetch with pos := s.startMainResume.fetch.pos }, mem := s.startMainResume.mem
      ctl := { s.ctl with attn := s.startMainResume.ctl.attn, lastSkip := s.startMainResume.ctl.lastSkip } } := by
  unfold startMainResume
  split
  · rfl
  · rw [follow_parts, follow_fetch, follow_ctl]

end State

theorem exec_resume {s : State} (hidle : s.ctl.cmd = none) : exec .resume s = .next s.fresh.takeResume.finish :=
  command_idle hidle 4 takeResume

theorem exec_recover {s : State} (hidle : s.ctl.cmd = none) : exec .recover s = .next s.fresh.takeRecover.finish :=
  command_idle hidle 5 takeRecover

/-- RESUME with no recovery pending goes on with the fetch as it stands (R168). -/
theorem resume_plain {s : State} (hidle : s.ctl.cmd = none) (hstate : s.ctl.state = .halted) (hpurge : s.mail.purgeFull = false)
    (hpending : s.jam.recoveryPending = false) : ∃ u : State,
      exec .resume s = .next u.finish ∧ u.fetch = s.fetch ∧ u.ctl = { (s.ended 4 .accepted).ctl with state := .running }
        ∧ u = { State.runUpOrder s with ctl := u.ctl, out := [] } := by
  refine ⟨_, exec_resume hidle, ?_⟩
  rw [takeResume_plain hstate hpurge hpending, restart_fresh]
  refine ⟨rfl, rfl, ext_parts rfl rfl ?_ rfl rfl rfl rfl rfl ?_ ?_ rfl rfl rfl rfl rfl⟩
  · simp
  · simp [← hpending]
  · simp

/-- RESUME with recovery pending starts at the main resume point (R49, R156). -/
theorem resume_pending {s : State} (hidle : s.ctl.cmd = none) (hstate : s.ctl.state = .halted)
    (hpurge : s.mail.purgeFull = false) (hpending : s.jam.recoveryPending = true) : ∃ u : State,
        exec .resume s = .next u.finish
          ∧ u.jam = { s.jam with recoveryPending := false } ∧ u.ctl.state = .running
          ∧ u.ctl.lastCommand = some 4 ∧ u.ctl.lastOutcome = some .accepted ∧ u.attnHas .command = true
          ∧ u.fetch = { s.fetch with
              pos := u.fetch.pos, stack := [], outer := none, chain := .main, resync := s.jam.mainResync
              read := s.fetch.read.map fun r => { r with discard := true }, rereadAsked := false }
          ∧ (s.jam.mainResume = 0 → u.fetch.pos = .chainEnd .controlWord2)
          ∧ (s.jam.mainResume ≠ 0 → s.orderAddrOk s.jam.mainResume = true →
              u.fetch.pos = .next s.jam.mainResume)
          ∧ (s.jam.mainResume ≠ 0 → s.orderAddrOk s.jam.mainResume = false →
              u.fetch.pos = .chainFault (.value s.jam.mainResume))
          ∧ u = { State.runUpOrder s with
              ctl := u.ctl, jam := u.jam, fetch := u.fetch, mem := u.mem, out := [] } := by
  refine ⟨_, exec_resume hidle, ?_⟩
  rw [takeResume_pending hstate hpurge hpending]
  refine ⟨?_, ?_, rfl, rfl, setAttn_attnHas _ _, ?_, fun hzero => ?_, fun hne hok => ?_, fun hne hbad => ?_, ?_⟩
  · simp [restarted]
  · simp [restarted]
  · have hparts := congrArg fetch (s.restarted .main s.jam.mainResync).startMainResume_parts
    exact hparts
  · rw [startMainResume_zero (by exact hzero)]
    rfl
  · rw [startMainResume_ok (by exact hne) ((restarted_orderAddrOk s _ _ _).trans hok)]
    rfl
  · rw [startMainResume_bad (by exact hne) ((restarted_orderAddrOk s _ _ _).trans hbad)]
    exact congrArg Fetch.pos (chainFault_fetch _ _ _)
  · rw [startMainResume_parts]
    rfl

/-- RECOVER starts at the recovery resume point, or reads the recovery head (R49, R156). -/
theorem recover_accepted {s : State} (hidle : s.ctl.cmd = none) (hstate : s.ctl.state = .halted)
    (hpending : s.jam.recoveryPending = true) (hpurge : s.mail.purgeFull = false) : ∃ u : State,
      exec .recover s = .next u.finish
        ∧ u.jam = { s.jam with recoveryPending := false } ∧ u.ctl.state = .running
        ∧ u.fetch = { s.fetch with
            pos := u.fetch.pos, stack := [], outer := none, chain := .recovery, resync := false
            read := s.fetch.read.map fun r => { r with discard := true }, rereadAsked := false }
        ∧ (s.jam.recoveryResume = 0 →
            u.fetch.pos = .idle ∧ u.ctl = { s.ctl with state := .running, cmd := some ⟨5, .recoverHead⟩ }
              ∧ u.mem = { s.mem with waiting := s.mem.waiting ++ [⟨.recoveryHead, [s.ctl.area + 12]⟩] })
        ∧ (s.jam.recoveryResume ≠ 0 → u.ctl.lastCommand = some 5 ∧ u.ctl.lastOutcome = some .accepted
              ∧ u.ctl.cmd = none
              ∧ u.fetch.pos = (if s.orderAddrOk s.jam.recoveryResume then .next s.jam.recoveryResume
                  else .chainFault (.value s.jam.recoveryResume)))
        ∧ u = { State.runUpOrder s with
            ctl := u.ctl, jam := u.jam, fetch := u.fetch, mem := u.mem, out := [] } := by
  refine ⟨_, exec_recover hidle, ?_⟩
  rw [takeRecover_accepted hstate hpurge hpending]
  by_cases hzero : s.jam.recoveryResume = 0
  · rw [if_pos hzero]
    refine ⟨rfl, rfl, rfl, fun _ => ⟨rfl, rfl, ?_⟩, fun hne => absurd hzero hne, rfl⟩
    simp [restarted]
  · rw [if_neg hzero]
    have hfetch := follow_fetch (.value s.jam.recoveryResume) s.jam.recoveryResume (s.restarted .recovery false)
    rw [restarted_orderAddrOk] at hfetch
    rw [follow_parts, hfetch, follow_ctl]
    exact ⟨rfl, rfl, rfl, fun h => absurd h hzero, fun _ => ⟨rfl, rfl, rfl, rfl⟩, rfl⟩

/-- Settles O15. -/
theorem restartsAccepted : Obligations.RestartsAccepted := by
  refine ⟨⟨fun s hidle hstate hpurge => ⟨resume_plain hidle hstate hpurge, resume_pending hidle hstate hpurge⟩,
    fun _ => recover_accepted⟩,
    fun s hidle hstate hpurge hpending => ⟨fun hne hbad => ?_, fun hne hbad => ?_⟩⟩
  · have hbad' : (s.restarted .main s.jam.mainResync).orderAddrOk s.jam.mainResume = false :=
      (restarted_orderAddrOk s _ _ _).trans hbad
    rw [exec_resume hidle, takeResume_pending hstate hpurge hpending, startMainResume_bad (s := s.restarted _ _) hne hbad']
    rfl
  · have hbad' : (s.restarted .recovery false).orderAddrOk s.jam.recoveryResume = false :=
      (restarted_orderAddrOk s _ _ _).trans hbad
    rw [exec_recover hidle, takeRecover_accepted hstate hpurge hpending, if_neg hne, follow_bad hbad']
    rfl

end Sys2Proof.Machine
end

section
/-! PROOFS. EXTEND (O16). -/

namespace Sys2Proof.Machine

open State

namespace State

/-! ## The fetch position at EXTEND (R44) -/

theorem extendFetch_chainEnd {s : State} {t : Tail} (h : s.fetch.pos = .chainEnd t) :
    s.extendFetch = { s with fetch := { s.fetch with rereadAsked := true } } := by
  simp only [extendFetch, askReread, h, onFetch]

theorem extendFetch_chainFault {s : State} {src : FaultSource} (h : s.fetch.pos = .chainFault src) (hsrc : ∀ v, src ≠ .value v) :
    s.extendFetch = { s with fetch := { s.fetch with
      rereadAsked := s.fetch.rereadAsked || s.fetch.read != some ⟨.faultSource, false⟩ } } := by
  have hword : s.extendFetch = if s.fetch.read = some ⟨.faultSource, false⟩ then s
      else s.onFetch fun u => { u with rereadAsked := true } := by
    unfold extendFetch
    rw [h]
    cases src with
    | value v => exact absurd rfl (hsrc v)
    | link _ | controlWord2 | controlWord3 | callHead _ _ | returnLink _ => rfl
  rw [hword]
  split
  next hread =>
    have hasked : (s.fetch.rereadAsked || s.fetch.read != some ⟨.faultSource, false⟩) = s.fetch.rereadAsked := by simp [hread]
    rw [hasked]
  next hread => simp [hread, onFetch]

theorem extendFetch_value {s : State} {v : Word} (h : s.fetch.pos = .chainFault (.value v)) :
    s.extendFetch = s.follow (.value v) v := by
  simp only [extendFetch, h]

theorem extendFetch_other {s : State} (hend : ∀ t, s.fetch.pos ≠ .chainEnd t) (hfault : ∀ src, s.fetch.pos ≠ .chainFault src) :
    s.extendFetch = s := by
  unfold extendFetch
  split
  next t h => exact absurd h (hend t)
  next v h => exact absurd h (hfault _)
  next src _ h => exact absurd h (hfault src)
  all_goals rfl

/-- EXTEND leaves the fetch as it is but for the position and the request of a re-read, and a chain fault may follow. -/
theorem extendFetch_parts (s : State) : s.extendFetch = { s with
    fetch := { s.fetch with pos := s.extendFetch.fetch.pos, rereadAsked := s.extendFetch.fetch.rereadAsked }
    mem := { s.mem with queue := s.extendFetch.mem.queue, held := s.extendFetch.mem.held }
    ctl := { s.ctl with attn := s.extendFetch.ctl.attn, lastSkip := s.extendFetch.ctl.lastSkip } } := by
  by_cases hvalue : ∃ v, s.fetch.pos = .chainFault (.value v)
  · obtain ⟨v, hvalue⟩ := hvalue
    rw [extendFetch_value hvalue]
    cases hok : s.orderAddrOk v with
    | true => rw [follow_ok hok]
    | false =>
      rw [follow_bad hok]
      cases hroom : s.queueHasRoom with
      | true => rw [chainFault_room hroom]
      | false => rw [chainFault_full hroom]
  · cases hpos : s.fetch.pos with
    | chainEnd t => rw [extendFetch_chainEnd hpos]
    | chainFault src =>
      have hword := extendFetch_chainFault hpos fun v hv => hvalue ⟨v, hv ▸ hpos⟩
      rw [hword]
    | _ => rw [extendFetch_other (by simp [hpos]) (by simp [hpos])]

/-- Unless it finds a bad value again, EXTEND changes the fetch alone. -/
theorem extendFetch_quiet {s : State} (h : ∀ v, s.fetch.pos = .chainFault (.value v) → s.orderAddrOk v = true) :
    s.extendFetch = { s with fetch := s.extendFetch.fetch } := by
  cases hpos : s.fetch.pos with
  | chainEnd t => rw [extendFetch_chainEnd hpos]
  | chainFault src =>
    by_cases hvalue : ∃ v, src = .value v
    · obtain ⟨v, rfl⟩ := hvalue
      rw [extendFetch_value hpos, follow_ok (h v hpos)]
    · rw [extendFetch_chainFault hpos fun v hv => hvalue ⟨v, hv⟩]
  | _ => rw [extendFetch_other (by simp [hpos]) (by simp [hpos])]

/-! ## EXTEND in STANDBY (R89, R169) -/

/-- In STANDBY, EXTEND asks for the candidate's ready word and for a wake evaluation. -/
def extendAsks (s : State) : State := if s.ctl.state = .standby then s.requestCandidateRead.askWake else s

theorem extendAsks_candidate {s : State} {e : Entry} (hstate : s.ctl.state = .standby) (hread : s.launch.candRead = none)
    (he : s.candidateEntry = some e) : s.extendAsks = { s with
      launch := { s.launch with candRead := some e.id, wakeAsked := true }
      mem := { s.mem with waiting := s.mem.waiting ++ [⟨.candidateReady, [e.addr + 12]⟩] } } := by
  have hread' : s.launch.candRead.isNone = true := by rw [hread]; rfl
  simp only [extendAsks, if_pos hstate, requestCandidateRead, he, if_pos hread', askWake_eq]
  simp [onLaunch, requestRead, onMem, hstate, wordAddr]

theorem extendAsks_wake {s : State} (hstate : s.ctl.state = .standby)
    (hnone : s.launch.candRead ≠ none ∨ s.candidateEntry = none) :
    s.extendAsks = { s with launch := { s.launch with wakeAsked := true } } := by
  have hrequest : s.requestCandidateRead = s := by
    unfold requestCandidateRead
    split
    next e he =>
      have hread : ¬s.launch.candRead.isNone = true := by
        obtain hread | hnone := hnone
        · simpa using hread
        · cases he.symm.trans hnone
      exact if_neg hread
    · rfl
  simp only [extendAsks, hrequest, askWake_eq, hstate, beq_self_eq_true, Bool.or_true, if_true]

theorem extendAsks_other {s : State} (hstate : s.ctl.state ≠ .standby) : s.extendAsks = s := if_neg hstate

theorem takeExtend_accepted {s : State}
    (h : s.ctl.state = .running ∨ s.ctl.state = .standby ∨ s.ctl.state = .draining ∨ s.ctl.state = .halted) :
    s.takeExtend = s.extendFetch.extendAsks.endCommand 6 .accepted := by
  have hstate : s.extendFetch.ctl.state = s.ctl.state := by simp
  obtain h | h | h | h := h <;> simp [takeExtend, extendAsks, h]

/-- What EXTEND asks for does not depend on what it does to the fetch position. -/
theorem extendAsks_extendFetch (s : State) : s.extendFetch.extendAsks = { s.extendFetch with
    launch := s.extendAsks.launch
    mem := { s.extendFetch.mem with waiting := s.extendAsks.mem.waiting } } := by
  rw [extendFetch_parts]
  by_cases hstate : s.ctl.state = .standby
  · cases he : s.candidateEntry with
    | none =>
      rw [extendAsks_wake hstate (.inr he), extendAsks_wake (by exact hstate) (.inr (by exact he))]
    | some e =>
      by_cases hread : s.launch.candRead = none
      · rw [extendAsks_candidate hstate hread he, extendAsks_candidate (by exact hstate) (by exact hread) (by exact he)]
      · rw [extendAsks_wake hstate (.inl hread), extendAsks_wake (by exact hstate) (.inl (by exact hread))]
  · rw [extendAsks_other hstate, extendAsks_other (by exact hstate)]

end State

/-- Settles O16. -/
theorem extendAccepted : Obligations.ExtendAccepted := by
  intro s hidle hstate
  refine ⟨_, command_idle hidle 6 takeExtend, ?_⟩
  rw [takeExtend_accepted (s := s.fresh) hstate, extendAsks_extendFetch]
  refine ⟨?_, setAttn_attnHas _ _, ?_, fun t hpos => ?_, fun src hpos hsrc => ?_, fun v hpos hok => ?_, fun v hpos hbad => ?_,
    fun hok => ?_, fun hend hfault => ?_, fun e hstandby hread he => ?_, fun hstandby hnone => ?_, fun hother => ?_, ?_, ?_⟩
  · rw [extendFetch_parts]
    rfl
  · rw [extendFetch_parts]
    rfl
  · rw [extendFetch_chainEnd (s := s.fresh) hpos]
    exact ⟨rfl, rfl⟩
  · rw [extendFetch_chainFault (s := s.fresh) hpos hsrc]
    exact ⟨rfl, rfl⟩
  · rw [extendFetch_value (s := s.fresh) hpos, follow_ok (by exact hok)]
    rfl
  · rw [extendFetch_value (s := s.fresh) hpos, follow_bad (by exact hbad)]
    refine ⟨?_, fun hroom => ?_, fun hfull => ?_⟩
    · rw [hpos]
      exact congrArg Fetch.pos (chainFault_fetch _ _ _)
    · rw [chainFault_room (by exact hroom)]
      exact ⟨endCommand_keeps_attnHas 6 .accepted (by simp [attnHas, AttnFlag.bit]), rfl, rfl, rfl⟩
    · rw [chainFault_full (by exact hfull)]
      exact ⟨rfl, rfl⟩
  · rw [extendFetch_quiet (s := s.fresh) hok]
    exact ⟨rfl, rfl, rfl, rfl⟩
  · rw [extendFetch_other (s := s.fresh) hend hfault]
    rfl
  · rw [extendAsks_candidate (s := s.fresh) hstandby hread he]
    exact ⟨rfl, rfl⟩
  · rw [extendAsks_wake (s := s.fresh) hstandby hnone]
    exact ⟨rfl, rfl⟩
  · rw [extendAsks_other (s := s.fresh) hother]
    exact ⟨rfl, rfl⟩
  · rw [extendFetch_parts]
    rfl
  · rw [extendFetch_parts]
    rfl

end Sys2Proof.Machine
end

section
/-! PROOFS. The acceptance table of the host's commands (O8). -/

namespace Sys2Proof.Machine

open State

/-- A command refused by its checks ends with the outcome of the check (R160, R164). -/
theorem exec_refused {c : Instr} {code : Word} {take : State → State} {s : State} {o : CommandOutcome} (hidle : s.ctl.cmd = none)
    (hexec : exec c = command code take) (htake : take s.fresh = s.fresh.endCommand code o) :
    exec c s = .next (s.ended code o).finish := by
  rw [hexec, command_idle hidle, htake, ended_eq]

/-- A command that ends accepted before the event's end shows it afterwards. -/
theorem exec_accepted {c : Instr} {code : Word} {take : State → State} {s u : State} (hidle : s.ctl.cmd = none)
    (hexec : exec c = command code take) (htake : take s.fresh = u) (hcommand : u.ctl.lastCommand = some code)
    (houtcome : u.ctl.lastOutcome = some .accepted) (hcmd : u.ctl.cmd = none) (hflag : u.attnHas .command = true) :
    ∃ t, exec c s = .next t ∧ t.ctl.lastCommand = some code ∧ t.ctl.lastOutcome = some .accepted ∧ t.ctl.cmd = none
      ∧ t.attnHas .command = true := by
  refine ⟨u.finish, ?_, by simpa using hcommand, by simpa using houtcome, by simpa using hcmd, flagOn_finish hflag⟩
  rw [hexec, command_idle hidle, htake]

/-- A command that waits for a read stays the command being taken. -/
theorem exec_goesOn {c : Instr} {code : Word} {take : State → State} {s u : State} {p : CommandPhase} (hidle : s.ctl.cmd = none)
    (hexec : exec c = command code take) (htake : take s.fresh = u) (hcmd : u.ctl.cmd = some ⟨code, p⟩) :
    ∃ t, exec c s = .next t ∧ t.cmdRead = code ∧ t.commandBusy = true := by
  refine ⟨u.finish, ?_, ?_, ?_⟩
  · rw [hexec, command_idle hidle, htake]
  · simp [cmdRead, hcmd]
  · simp [commandBusy, hcmd]

namespace State

theorem takeLoadConfig_allowed {s : State} (h : s.loadAllowed = true) :
    s.takeLoadConfig = (s.beginCommand 1 .loadLength).requestRead .windowLength [s.controlWord 0] := if_pos h

theorem takeLoadConfig_refused {s : State} (h : ¬s.loadAllowed = true) :
    s.takeLoadConfig = s.endCommand 1 .refusedState := if_neg h

theorem takeRun_refused {s : State} {o : CommandOutcome} (h : s.runRefusal = some o) : s.takeRun = s.endCommand 2 o := by
  simp only [takeRun, h]

theorem takeResume_refused {s : State} {o : CommandOutcome} (h : s.restartRefusal false = some o) :
    s.takeResume = s.endCommand 4 o := by
  simp only [takeResume, h]

theorem takeRecover_refused {s : State} {o : CommandOutcome} (h : s.restartRefusal true = some o) :
    s.takeRecover = s.endCommand 5 o := by
  simp only [takeRecover, h]

theorem takeExtend_refused {s : State}
    (h : ¬(s.ctl.state = .running ∨ s.ctl.state = .standby ∨ s.ctl.state = .draining ∨ s.ctl.state = .halted)) :
    s.takeExtend = s.endCommand 6 .refusedState := by
  simp only [not_or] at h
  obtain ⟨hrunning, hstandby, hdraining, hhalted⟩ := h
  unfold takeExtend
  split
  next hstate => exact absurd hstate hrunning
  next hstate => exact absurd hstate hdraining
  next hstate => exact absurd hstate hhalted
  next hstate => exact absurd hstate hstandby
  all_goals rfl

theorem pathResetRefusal_of_not_allowed {s : State} (h : ¬PathResetAllowed s) : s.pathResetRefusal = some .refusedState := by
  have hstate : ¬(s.ctl.state == .jammed && s.jam.recordIssued || s.ctl.state == .halted) = true := by
    simpa [PathResetAllowed] using h
  simp only [pathResetRefusal, hstate, Bool.not_false, if_true]

theorem restartRefusal_state {s : State} {needPending : Bool}
    (h : ¬(s.ctl.state = .halted ∧ (needPending = true → s.jam.recoveryPending = true))) :
    s.restartRefusal needPending = some .refusedState := by
  have hbad : ¬(s.ctl.state == .halted && (!needPending || s.jam.recoveryPending)) = true := by
    cases needPending <;> simpa using h
  simp only [restartRefusal, hbad, Bool.not_false, if_true]

theorem restartRefusal_purgeFull {s : State} {needPending : Bool} (hstate : s.ctl.state = .halted)
    (hpending : needPending = true → s.jam.recoveryPending = true) (hpurge : s.mail.purgeFull = true) :
    s.restartRefusal needPending = some .purgeFull := by
  cases needPending with
  | false => simp [restartRefusal, hstate, hpurge]
  | true => simp [restartRefusal, hstate, hpurge, hpending rfl]

end State

theorem exec_resume_accepted {s : State} (hidle : s.ctl.cmd = none) (hstate : s.ctl.state = .halted)
    (hpurge : s.mail.purgeFull = false) : ∃ t, exec .resume s = .next t ∧ t.ctl.lastCommand = some 4
      ∧ t.ctl.lastOutcome = some .accepted ∧ t.ctl.cmd = none ∧ t.attnHas .command = true := by
  cases hpending : s.jam.recoveryPending with
  | false =>
    exact exec_accepted hidle rfl (takeResume_plain hstate hpurge hpending) rfl rfl rfl (setAttn_attnHas _ _)
  | true =>
    exact exec_accepted hidle rfl (takeResume_pending hstate hpurge hpending) rfl rfl rfl (setAttn_attnHas _ _)

theorem exec_halt_accepted {s : State} (hidle : s.ctl.cmd = none) (hstate : s.ctl.state = .running ∨ s.ctl.state = .standby) :
    ∃ t, exec .halt s = .next t ∧ t.ctl.lastCommand = some 3
      ∧ t.ctl.lastOutcome = some .accepted ∧ t.ctl.cmd = none ∧ t.attnHas .command = true := by
  have hflag : (s.fresh.endCommand 3 .accepted).attnHas .command = true := setAttn_attnHas _ _
  obtain hrunning | hstandby := hstate
  · exact exec_accepted hidle rfl (takeHalt_running (s := s.fresh) hrunning) (by simp [endCommand]) (by simp [endCommand])
      (by simp [endCommand]) (flagOn_enterDraining hflag)
  · exact exec_accepted hidle rfl (takeHalt_standby (s := s.fresh) hstandby) (by simp [endCommand]) (by simp [endCommand])
      (by simp [endCommand]) (flagOn_enterHalted hflag)

/-- Settles O8: each command is refused by its first failing check, and goes on or ends accepted when none fails. -/
theorem acceptanceTable : Obligations.AcceptanceTable := by
  intro s hidle
  refine ⟨fun hbad => ?_, fun hok => ?_, fun hbad => ?_, fun hok hcovered => ?_, fun hok hclear hfull => ?_,
    fun hok hclear hroom => ?_, fun hbad => exec_refused hidle rfl (takeHalt_refused (s := s.fresh) hbad), exec_halt_accepted hidle,
    fun hbad => ?_, fun hstate hfull => ?_, exec_resume_accepted hidle, fun hbad => ?_, fun hok hfull => ?_,
    fun hok hroom hne => ?_, fun hok hroom hzero => ?_, fun hbad => exec_refused hidle rfl (takeExtend_refused (s := s.fresh) hbad),
    fun hok => ?_, fun hbad => ?_, fun hok hcovered => exec_pathReset_of_covered hidle hok hcovered, fun hok hclear => ?_⟩
  · exact exec_refused hidle rfl (takeLoadConfig_refused (s := s.fresh) (mt (loadAllowed_iff s).mp hbad))
  · exact exec_goesOn hidle rfl (takeLoadConfig_allowed (s := s.fresh) ((loadAllowed_iff s).mpr hok)) rfl
  · exact exec_refused hidle rfl (takeRun_refused (s := s.fresh) (runRefusal_refusedState hbad))
  · have hsensors : s.fresh.sensorsClear = false := Bool.eq_false_iff.mpr (mt (sensorsClear_iff s).mp hcovered)
    exact exec_refused hidle rfl (takeRun_refused (s := s.fresh) (by rw [runRefusal_of_state (by exact hok), if_pos hsensors]))
  · have hsensors : ¬s.fresh.sensorsClear = false := by simp [(sensorsClear_iff s.fresh).mpr hclear]
    exact exec_refused hidle rfl (takeRun_refused (s := s.fresh)
      (by rw [runRefusal_of_state (by exact hok), if_neg hsensors, if_pos (by exact hfull)]))
  · exact exec_goesOn hidle rfl (takeRun_accepted (s := s.fresh) (runRefusal_accepted hok hclear hroom)) rfl
  · exact exec_refused hidle rfl (takeResume_refused (s := s.fresh) (restartRefusal_state fun h => hbad h.1))
  · exact exec_refused hidle rfl (takeResume_refused (s := s.fresh) (restartRefusal_purgeFull hstate nofun hfull))
  · exact exec_refused hidle rfl (takeRecover_refused (s := s.fresh) (restartRefusal_state fun h => hbad ⟨h.1, h.2 rfl⟩))
  · exact exec_refused hidle rfl (takeRecover_refused (s := s.fresh) (restartRefusal_purgeFull hok.1 (fun _ => hok.2) hfull))
  · refine exec_accepted hidle rfl (takeRecover_accepted hok.1 hroom hok.2) ?_ ?_ ?_ ?_ <;> rw [if_neg hne]
    · rfl
    · rfl
    · rfl
    · exact setAttn_attnHas _ _
  · refine exec_goesOn (p := .recoverHead) hidle rfl (takeRecover_accepted hok.1 hroom hok.2) ?_
    rw [if_pos hzero]
    rfl
  · exact exec_accepted hidle rfl (takeExtend_accepted (s := s.fresh) hok) rfl rfl rfl (setAttn_attnHas _ _)
  · exact exec_refused hidle rfl (takePathReset_of_some (s := s.fresh) (pathResetRefusal_of_not_allowed hbad))
  · exact exec_accepted hidle rfl (takePathReset_of_none (s := s.fresh) (pathResetRefusal_of_clear hok hclear)) rfl rfl rfl
      (setAttn_attnHas _ _)

end Sys2Proof.Machine
end

section
/-! PROOFS. The configuration block: its words, its quantities and its checks (the second half of O11). -/

namespace Sys2Proof

theorem PerTray.forall_mem_toList {α : Type} {p : PerTray α} {P : α → Prop} : (∀ a ∈ p.toList, P a) ↔ ∀ t, P (p.get t) := by
  simp only [PerTray.toList, List.forall_mem_cons, List.not_mem_nil, false_implies, implies_true, and_true]
  exact ⟨fun ⟨h1, h2, h3, h4, h5⟩ t => by cases t <;> assumption,
    fun h => ⟨h .t1, h .t2, h .t3, h .t4, h .t5⟩⟩

theorem PerTray.exists_mem_toList {α : Type} {p : PerTray α} {P : α → Prop} : (∃ a ∈ p.toList, P a) ↔ ∃ t, P (p.get t) := by
  have h := not_congr (PerTray.forall_mem_toList (p := p) (P := fun a => ¬P a))
  simpa only [Classical.not_forall, Classical.not_not, exists_prop] using h

theorem PerBin.forall_mem_toList {α : Type} {p : PerBin α} {P : α → Prop} : (∀ a ∈ p.toList, P a) ↔ ∀ b, P (p.get b) := by
  simp only [PerBin.toList, List.forall_mem_cons, List.not_mem_nil, false_implies, implies_true, and_true]
  exact ⟨fun ⟨h1, h2, h3, h4⟩ b => by cases b <;> assumption, fun h => ⟨h .b1, h .b2, h .b3, h .b4⟩⟩

theorem PerSection.forall_get {α : Type} {p : PerSection α} {P : α → Prop} :
    (∀ x, P (p.get x)) ↔ P p.up ∧ P p.loop ∧ P p.down :=
  ⟨fun h => ⟨h .up, h .loop, h .down⟩, fun ⟨h1, h2, h3⟩ x => by cases x <;> assumption⟩

namespace Machine

/-! ## The slot map (R177) -/

theorem slotOf_eq_getElem {n : Nat} (h : n < 4) : slotOf n = [some .idle, some .feed, some .ret, none][n]?.join := by
  match n, h with
  | 0, _ | 1, _ | 2, _ | 3, _ => rfl

theorem extract_pair_toNat (w : Word) (k : Nat) : (w.extractLsb' (2 * k) 2).toNat = w.toNat / 4 ^ k % 4 := by
  rw [BitVec.extractLsb'_toNat, Nat.shiftRight_eq_div_pow, Nat.pow_mul]

theorem slot_low (b : ConfigBlock) {k : Nat} (h : k < 16) :
    b.slot k = [some .idle, some .feed, some .ret, none][(b.slotsLow.extractLsb' (2 * k) 2).toNat]?.join := by
  rw [extract_pair_toNat, ← slotOf_eq_getElem (Nat.mod_lt _ (by decide)), ConfigBlock.slot, ConfigBlock.slotCode, if_pos h]

theorem slot_high (b : ConfigBlock) (k : Nat) :
    b.slot (16 + k) = [some .idle, some .feed, some .ret, none][(b.slotsHigh.extractLsb' (2 * k) 2).toNat]?.join := by
  have hhigh : ¬16 + k < 16 := by omega
  rw [extract_pair_toNat, ← slotOf_eq_getElem (Nat.mod_lt _ (by decide)), ConfigBlock.slot, ConfigBlock.slotCode,
    if_neg hhigh, Nat.add_sub_cancel_left]

/-! ## The quantities (R22, R25) -/

theorem foldl_max_le {l : List TraySettings} {m n : Nat} :
    l.foldl (fun m t => if t.enabled then max m t.feedLength else m) m ≤ n
      ↔ m ≤ n ∧ ∀ t ∈ l, t.enabled = true → t.feedLength ≤ n := by
  induction l generalizing m with
  | nil => simp
  | cons t rest ih =>
    rw [List.foldl_cons, ih, List.forall_mem_cons]
    split
    next hon => simp [hon, Nat.max_le, and_assoc]
    next hoff => simp [hoff]

/-- The longest feed is the least bound on the feeds of the enabled trays. -/
theorem longestFeed_le (b : ConfigBlock) {n : Nat} :
    b.longestFeed ≤ n ↔ ∀ t, (b.trays.get t).enabled = true → (b.trays.get t).pickToFd + (b.trays.get t).fdToMrg ≤ n := by
  rw [ConfigBlock.longestFeed, foldl_max_le]
  simp only [Nat.zero_le, true_and]
  exact PerTray.forall_mem_toList (P := fun t : TraySettings => t.enabled = true → t.feedLength ≤ n)

/-- Lmax is one more than the least number of pitches that the longest feed takes (R22). -/
theorem lmax_spec (b : ConfigBlock) (hpitch : 0 < b.pitchLength) :
    ∃ up, b.quantities.lmax = up + 1
      ∧ (∀ t, (b.trays.get t).enabled = true → (b.trays.get t).pickToFd + (b.trays.get t).fdToMrg ≤ up * b.pitchLength)
      ∧ ∀ n, (∀ t, (b.trays.get t).enabled = true → (b.trays.get t).pickToFd + (b.trays.get t).fdToMrg ≤ n * b.pitchLength) →
        up ≤ n := by
  have hceil : ∀ n, (b.longestFeed + b.pitchLength - 1) / b.pitchLength ≤ n ↔ b.longestFeed ≤ n * b.pitchLength := by
    intro n
    rw [← Nat.lt_succ_iff, Nat.div_lt_iff_lt_mul hpitch, Nat.succ_mul]
    omega
  exact ⟨_, rfl, (longestFeed_le b).mp ((hceil _).mp (Nat.le_refl _)), fun n hn => (hceil n).mpr ((longestFeed_le b).mpr hn)⟩

theorem loopUsable_iff (k : Installed) : k.loopUsable = true ↔ ∃ i, i < k.block.frameLength ∧ k.block.slot i = some .feed
    ∧ k.block.slot ((i + k.qty.loopDelay) % k.block.frameLength) = some .ret := by
  simp only [Installed.loopUsable, List.any_eq_true, List.mem_range, Bool.and_eq_true, beq_iff_eq]

/-! ## The checks (R166) -/

theorem inRange_iff {lo hi n : Nat} : inRange lo hi n = true ↔ lo ≤ n ∧ n ≤ hi := by
  simp only [inRange, Bool.and_eq_true, decide_eq_true_eq]

theorem traySettings_inRange_iff (t : TraySettings) : t.inRange = true ↔ (t.enabled = true →
    (2000 ≤ t.media ∧ t.media ≤ 12000) ∧ (100 ≤ t.pickToFd ∧ t.pickToFd ≤ 65535) ∧ (100 ≤ t.fdToMrg ∧ t.fdToMrg ≤ 65535)) := by
  cases h : t.enabled <;> simp [TraySettings.inRange, h, inRange_iff, and_assoc]

theorem binSettings_inRange_iff (x : BinSettings) : x.inRange = true ↔ (x.enabled = true → 1 ≤ x.capacity ∧ x.capacity ≤ 65535) := by
  cases h : x.enabled <;> simp [BinSettings.inRange, h, inRange_iff]

/-- Every field within its range (R166 row 1). -/
def FieldsInRange (b : ConfigBlock) : Prop :=
  let within (lo hi n : Nat) : Prop := lo ≤ n ∧ n ≤ hi
  within 1024 32767 b.pitchLength ∧ within 1 32 b.frameLength ∧ (∀ k, k < b.frameLength → b.slot k ≠ none)
    ∧ (∀ t, (b.trays.get t).enabled = true → within 2000 12000 (b.trays.get t).media
        ∧ within 100 65535 (b.trays.get t).pickToFd ∧ within 100 65535 (b.trays.get t).fdToMrg)
    ∧ (∀ n ∈ [b.mrgToReg, b.regToFus, b.fusToInv, b.invToRtn, b.rtnToMrg, b.fusToMrk, b.mrkToPrg], within 100 262143 n)
    ∧ (∀ x, within 100 262143 (b.mrkToStk.get x))
    ∧ (∀ x, b.earlyTol.get x ≤ 4095 ∧ b.lateTol.get x ≤ 4095) ∧ b.lengthTol ≤ 4095 ∧ b.minGap ≤ 4095
    ∧ (∀ x, (b.bins.get x).enabled = true → within 1 65535 (b.bins.get x).capacity)
    ∧ within 1 65535 b.purgeCapacity ∧ within 1 250 b.samplePeriod ∧ within 1 1000000 b.nominal
    ∧ b.band ≤ b.nominal ∧ b.floor ≤ b.nominal - b.band ∧ within 1 255 b.runUpTimeout
    ∧ b.runOutLimit ≤ 1023 ∧ b.retireBatch ≤ 255

theorem tolerances_iff (b : ConfigBlock) : [b.earlyTol.up, b.earlyTol.loop, b.earlyTol.down, b.lateTol.up, b.lateTol.loop,
      b.lateTol.down, b.lengthTol, b.minGap].all (inRange 0 4095) = true
    ↔ (∀ x, b.earlyTol.get x ≤ 4095 ∧ b.lateTol.get x ≤ 4095) ∧ b.lengthTol ≤ 4095 ∧ b.minGap ≤ 4095 := by
  rw [forall_and, PerSection.forall_get (P := (· ≤ 4095)), PerSection.forall_get (P := (· ≤ 4095))]
  simp [inRange_iff, and_assoc]

theorem segments_iff (b : ConfigBlock) : ([b.mrgToReg, b.regToFus, b.fusToInv, b.invToRtn, b.rtnToMrg, b.fusToMrk, b.mrkToPrg]
      ++ b.mrkToStk.toList).all (inRange 100 262143) = true
    ↔ (∀ n ∈ [b.mrgToReg, b.regToFus, b.fusToInv, b.invToRtn, b.rtnToMrg, b.fusToMrk, b.mrkToPrg], 100 ≤ n ∧ n ≤ 262143)
      ∧ ∀ x, 100 ≤ b.mrkToStk.get x ∧ b.mrkToStk.get x ≤ 262143 := by
  rw [List.all_append, Bool.and_eq_true, List.all_eq_true, List.all_eq_true]
  simp only [inRange_iff]
  rw [PerBin.forall_mem_toList (P := fun n => 100 ≤ n ∧ n ≤ 262143)]

theorem rangeOk_iff (b : ConfigBlock) : b.rangeOk = true ↔ FieldsInRange b := by
  have hslots : (List.range b.frameLength).all (fun k => (b.slot k).isSome) = true ↔ ∀ k, k < b.frameLength → b.slot k ≠ none := by
    simp [Option.isSome_iff_ne_none]
  have htrays : b.trays.toList.all TraySettings.inRange = true ↔ ∀ t, (b.trays.get t).inRange = true := by
    rw [List.all_eq_true]
    exact PerTray.forall_mem_toList (P := fun t : TraySettings => t.inRange = true)
  have hbins : b.bins.toList.all BinSettings.inRange = true ↔ ∀ x, (b.bins.get x).inRange = true := by
    rw [List.all_eq_true]
    exact PerBin.forall_mem_toList (P := fun x : BinSettings => x.inRange = true)
  simp only [ConfigBlock.rangeOk, Bool.and_eq_true, hslots, htrays, hbins, tolerances_iff, segments_iff,
    traySettings_inRange_iff, binSettings_inRange_iff, inRange_iff, FieldsInRange, Nat.zero_le, true_and, and_assoc]

theorem someFeed_iff (b : ConfigBlock) : ((List.range b.frameLength).any fun k => b.slot k == some .feed) = true
    ↔ ∃ k, k < b.frameLength ∧ b.slot k = some .feed := by
  simp only [List.any_eq_true, List.mem_range, beq_iff_eq]

theorem someTray_iff (b : ConfigBlock) : b.trays.toList.any (·.enabled) = true ↔ ∃ t, (b.trays.get t).enabled = true := by
  rw [List.any_eq_true]
  exact PerTray.exists_mem_toList (P := fun t : TraySettings => t.enabled = true)

theorem loopMisfit_iff (b : ConfigBlock) :
    (!inRange 2 48 b.quantities.loopDelay || decide (b.pitchLength / 8 < b.quantities.residue.natAbs)) = true
    ↔ ¬((2 ≤ b.quantities.loopDelay ∧ b.quantities.loopDelay ≤ 48) ∧ b.quantities.residue.natAbs ≤ b.pitchLength / 8) := by
  rw [Bool.or_eq_true, Bool.not_eq_true', ← Bool.not_eq_true, inRange_iff, decide_eq_true_eq]
  omega

theorem pitchMisfit_iff (b : ConfigBlock) : (b.trays.toList.any fun t =>
      t.enabled && decide (b.pitchLength < t.media + b.minGap + b.quantities.residue.natAbs)) = true
    ↔ ¬∀ t, (b.trays.get t).enabled = true →
      ((b.trays.get t).media + b.minGap : Int) ≤ (b.pitchLength : Int) - b.quantities.residue.natAbs := by
  rw [List.any_eq_true, PerTray.exists_mem_toList (P := fun t : TraySettings =>
    (t.enabled && decide (b.pitchLength < t.media + b.minGap + b.quantities.residue.natAbs)) = true)]
  rw [Classical.not_forall]
  refine exists_congr fun t => ?_
  rw [Bool.and_eq_true, decide_eq_true_eq, Classical.not_imp]
  refine and_congr_right fun _ => ?_
  omega

/-- The checks in their order: the first that fails gives the result. -/
theorem validate_eq (b : ConfigBlock) : b.validate =
    if ¬b.rangeOk = true then some .range
    else if ¬((List.range b.frameLength).any fun k => b.slot k == some .feed) = true then some .noFeedSlot
    else if ¬b.trays.toList.any (·.enabled) = true then some .noTray
    else if (!inRange 2 48 b.quantities.loopDelay || decide (b.pitchLength / 8 < b.quantities.residue.natAbs)) = true then
      some .loopDelay
    else if 6 < b.quantities.lmax then some .feedLead
    else if (b.trays.toList.any fun t =>
        t.enabled && decide (b.pitchLength < t.media + b.minGap + b.quantities.residue.natAbs)) = true then some .pitchFit
    else if 4 * b.pitchLength < b.regToFus then some .transferSpan else none := by
  simp only [ConfigBlock.validate, Bool.not_eq_true']
  simp only [Bool.not_eq_true]

end Machine
end Sys2Proof
end

section
/-! PROOFS. The configuration block read, checked and installed (O11). -/

namespace Sys2Proof.Machine

open State

namespace State

theorem takeConfigWord_more {s : State} {base : Word} {ws : List Word} (h : s.ctl.cmd = some ⟨1, .loadBlock base ws⟩)
    (hlen : ws.length < 59) (v : Word) : s.takeConfigWord v = { s with
      mem := { s.mem with
        waiting := s.mem.waiting ++ [⟨.configBlock, [base + BitVec.ofNat 32 (4 * (ws.length + 1))]⟩] }
      ctl := { s.ctl with cmd := some ⟨1, .loadBlock base (ws ++ [v])⟩ } } := by
  have hmore : (ws ++ [v]).length < Config.configWordsRead := by
    rw [List.length_append]
    exact Nat.succ_lt_succ hlen
  simp only [takeConfigWord, h, if_pos hmore, setPhase_of_cmd h]
  rw [List.length_append]
  rfl

theorem takeConfigWord_last {s : State} {base : Word} {ws : List Word} (h : s.ctl.cmd = some ⟨1, .loadBlock base ws⟩)
    (hlen : 59 ≤ ws.length) (v : Word) : s.takeConfigWord v = s.validateAndInstall (ws ++ [v]) := by
  have hlast : ¬(ws ++ [v]).length < Config.configWordsRead := by
    rw [List.length_append]
    exact Nat.not_lt.mpr (Nat.succ_le_succ hlen)
  simp only [takeConfigWord, h, if_neg hlast]

theorem validateAndInstall_refused {ws : List Word} {why : Validation} (h : (configBlockOf ws).validate = some why) (s : State) :
    s.validateAndInstall ws = s.endLoad (some why) := by
  unfold validateAndInstall
  rw [h]

theorem validateAndInstall_accepted {ws : List Word} (h : (configBlockOf ws).validate = none) (s : State) :
    s.validateAndInstall ws = (s.install (configBlockOf ws)).endLoad none := by
  unfold validateAndInstall
  rw [h]

/-- Purge full is evaluated anew, and its attention is set when it comes to hold (R68). -/
theorem reevaluatePurgeFull_eq (s : State) : s.reevaluatePurgeFull = { s with
    mail := { s.mail with purgeFull := s.purgeFullNow }
    ctl := { s.ctl with attn := if s.purgeFullNow = true ∧ s.mail.purgeFull = false then s.ctl.attn ||| 0x100 else s.ctl.attn } } := by
  cases hnow : s.purgeFullNow with
  | false => simp [reevaluatePurgeFull, hnow, onMail]
  | true =>
    cases hold : s.mail.purgeFull with
    | false => simp [reevaluatePurgeFull, notePurgeFull, hnow, hold, onMail, setAttn, onCtl, AttnFlag.mask, AttnFlag.bit]
    | true =>
      have hsame : s.reevaluatePurgeFull = s := by simp [reevaluatePurgeFull, notePurgeFull, hnow, hold]
      have hmail : s.mail = { s.mail with purgeFull := true } := by rw [← hold]
      rw [hsame]
      exact ext_parts rfl rfl rfl hmail rfl rfl rfl rfl rfl rfl (by simp) rfl rfl rfl rfl

/-- A block is installed in all the blocks together (R25, R69, R137, R165). -/
theorem install_eq (b : ConfigBlock) (s : State) :
    let k : Installed := ⟨b, b.quantities⟩
    let full := decide (b.purgeCapacity ≤ s.mail.purgeCount.toNat)
    s.install b = { s with
      config := some k, clock := { s.clock with loopUnusable := !k.loopUsable }
      mail := { s.mail with purgeFull := full }
      retire := { s.retire with batching := s.retire.retired.toNat % max 1 b.retireBatch }
      ctl := { s.ctl with
        state := if s.ctl.state = .unconfigured then .ready else s.ctl.state
        attn := if full = true ∧ s.mail.purgeFull = false then s.ctl.attn ||| 0x100 else s.ctl.attn } } := by
  simp only [install, reevaluatePurgeFull_eq]
  by_cases hstate : s.ctl.state = .unconfigured
  · refine (if_pos (by exact hstate)).trans ?_
    rw [if_pos hstate]
    rfl
  · refine (if_neg (by exact hstate)).trans ?_
    rw [if_neg hstate]
    rfl

end State

theorem exec_configBlockRead {s : State} {r : ReadReq} (hbus : s.mem.bus = some ⟨.read r, false⟩)
    (hr : r.purpose = .configBlock) (v : Word) :
    exec (.configBlockRead v) s = .next (s.fresh.freeBus.takeConfigWord v).finish := by
  simp only [exec, execConfigBlockRead, event, completeRead_of_read hbus hr]

/-- What the 60th word of a block that passes its checks leaves. -/
theorem configBlockRead_installed {v base : Word} {ws : List Word} {r : ReadReq} {s : State}
    (hbus : s.mem.bus = some ⟨.read r, false⟩) (hr : r.purpose = .configBlock)
    (hcmd : s.ctl.cmd = some ⟨1, .loadBlock base ws⟩) (hlen : 59 ≤ ws.length)
    (hvalid : (configBlockOf (ws ++ [v])).validate = none) :
    let k : Installed := ⟨configBlockOf (ws ++ [v]), (configBlockOf (ws ++ [v])).quantities⟩
      ∃ u : State, exec (.configBlockRead v) s = .next u.finish
        ∧ u.config = some k ∧ u.clock = { s.clock with loopUnusable := !k.loopUsable }
        ∧ u.mail = { s.mail with
            purgeFull := decide (k.block.purgeCapacity ≤ s.mail.purgeCount.toNat) }
        ∧ u.retire = { s.retire with
            batching := s.retire.retired.toNat % max 1 k.block.retireBatch }
        ∧ u.ctl.state = (if s.ctl.state = .unconfigured then .ready else s.ctl.state)
        ∧ u.ctl.lastCommand = some 1 ∧ u.ctl.lastOutcome = some .accepted ∧ u.ctl.validation = none
        ∧ u.ctl.cmd = none ∧ u.attnHas .command = true
        ∧ (u.mail.purgeFull = true → s.mail.purgeFull = false → u.attnHas .purgeFull = true)
        ∧ u = { s with
            out := [], mem := { s.mem with bus := none }, config := u.config, clock := u.clock
            mail := u.mail, retire := u.retire, ctl := u.ctl } := by
  refine ⟨_, exec_configBlockRead hbus hr v, ?_⟩
  rw [takeConfigWord_last (s := s.fresh.freeBus) hcmd hlen, validateAndInstall_accepted hvalid, install_eq]
  refine ⟨rfl, rfl, rfl, rfl, rfl, rfl, rfl, rfl, rfl, setAttn_attnHas _ _, fun hfull hwas => ?_, rfl⟩
  refine endCommand_keeps_attnHas 1 .accepted ?_
  show BitVec.getLsbD (if _ ∧ _ then _ else _) 8 = true
  rw [if_pos ⟨hfull, hwas⟩]
  simp

/-- Settles O11: the words one by one, the check of the whole block (`validate_eq`), and its installation. -/
theorem configBlockReadAndInstalled : Obligations.ConfigBlockReadAndInstalled := by
  refine ⟨fun v base ws r s hbus hr hcmd => ⟨fun hlen => ?_, fun why hlen hwhy => ?_, configBlockRead_installed hbus hr hcmd⟩,
    fun ws => rfl, fun b => ⟨fun k hk => ⟨slot_low b hk, slot_high b k⟩, rfl, rfl, ?_, lmax_spec b, loopUsable_iff ⟨b, b.quantities⟩⟩,
    fun b => ?_⟩
  · rw [exec_configBlockRead hbus hr, takeConfigWord_more (s := s.fresh.freeBus) hcmd hlen]
    rfl
  · rw [exec_configBlockRead hbus hr, takeConfigWord_last (s := s.fresh.freeBus) hcmd hlen, validateAndInstall_refused hwhy]
    rfl
  · simp [ConfigBlock.quantities]
  · have hrange := rangeOk_iff b
    have hfeed := someFeed_iff b
    have htray := someTray_iff b
    have hloop := loopMisfit_iff b
    have hpitch := pitchMisfit_iff b
    rw [validate_eq]
    refine ⟨fun hr => ?_, fun hr hf => ?_, fun hr hf ht => ?_, fun hr hf ht hl => ?_, fun hr hf ht hl h6 => ?_, 
      fun hr hf ht hl h6 hp => ?_, fun hr hf ht hl h6 hp h4 => ?_, fun hr hf ht hl h6 hp h4 => ?_⟩
    · rw [if_pos (mt hrange.mp hr)]
    · rw [if_neg (not_not_intro (hrange.mpr hr)), if_pos (mt hfeed.mp hf)]
    · rw [if_neg (not_not_intro (hrange.mpr hr)), if_neg (not_not_intro (hfeed.mpr hf)),
        if_pos fun h => (htray.mp h).elim ht]
    · rw [if_neg (not_not_intro (hrange.mpr hr)), if_neg (not_not_intro (hfeed.mpr hf)), if_neg (not_not_intro (htray.mpr ht)),
        if_pos (hloop.mpr hl)]
    · rw [if_neg (not_not_intro (hrange.mpr hr)), if_neg (not_not_intro (hfeed.mpr hf)), if_neg (not_not_intro (htray.mpr ht)),
        if_neg fun h => hloop.mp h hl, if_pos h6]
    · rw [if_neg (not_not_intro (hrange.mpr hr)), if_neg (not_not_intro (hfeed.mpr hf)), if_neg (not_not_intro (htray.mpr ht)),
        if_neg fun h => hloop.mp h hl, if_neg (Nat.not_lt.mpr h6), if_pos (hpitch.mpr hp)]
    · rw [if_neg (not_not_intro (hrange.mpr hr)), if_neg (not_not_intro (hfeed.mpr hf)), if_neg (not_not_intro (htray.mpr ht)),
        if_neg fun h => hloop.mp h hl, if_neg (Nat.not_lt.mpr h6), if_neg fun h => hpitch.mp h hp, if_pos h4]
    · rw [if_neg (not_not_intro (hrange.mpr hr)), if_neg (not_not_intro (hfeed.mpr hf)), if_neg (not_not_intro (htray.mpr ht)),
        if_neg fun h => hloop.mp h hl, if_neg (Nat.not_lt.mpr h6), if_neg fun h => hpitch.mp h hp, if_neg (Nat.not_lt.mpr h4)]

end Sys2Proof.Machine
end

section
/-! PROOFS. Rules of a fetched block: orders of the chain and of a sequence, CALLs, resync (for O19 to O21). -/

namespace Sys2Proof.Machine.State

/-! ## The wake evaluation asked for beside the fetch (R89) -/

theorem askWake_setPos (p : FetchPos) (s : State) : (s.setPos p).askWake = s.askWake.setPos p := by
  simp only [askWake_eq]
  rfl

theorem askWake_chainFault (src : FaultSource) (bad : Word) (s : State) :
    (s.chainFault src bad).askWake = s.askWake.chainFault src bad := by
  simp only [askWake_eq]
  cases hroom : s.queueHasRoom with
  | true => rw [chainFault_room hroom, chainFault_room (by exact hroom)]
  | false => rw [chainFault_full hroom, chainFault_full (by exact hroom)]

theorem askWake_follow (src : FaultSource) (a : Word) (s : State) : (s.follow src a).askWake = s.askWake.follow src a := by
  have hsame : s.askWake.orderAddrOk a = s.orderAddrOk a := by
    rw [askWake_eq]
    rfl
  simp only [follow, hsame]
  split
  · exact askWake_setPos _ s
  · exact askWake_chainFault src a s

theorem askWake_startMainResume (s : State) : s.startMainResume.askWake = s.askWake.startMainResume := by
  have hjam : s.askWake.jam = s.jam := by simp
  simp only [startMainResume, hjam]
  split
  · exact askWake_setPos _ s
  · exact askWake_follow _ _ s

theorem askWake_switchToMain (s : State) : s.switchToMain.askWake = s.askWake.switchToMain := by
  have hmain : s.onMain.askWake = s.askWake.onMain := by
    simp only [askWake_eq]
    rfl
  rw [switchToMain_eq, switchToMain_eq, askWake_startMainResume, hmain]

theorem askWake_followLink (block link : Word) (s : State) : (s.followLink block link).askWake = s.askWake.followLink block link := by
  have hfetch : s.askWake.fetch = s.fetch := by simp
  simp only [followLink, hfetch]
  split
  · split
    · exact askWake_switchToMain s
    · exact askWake_setPos _ s
  · exact askWake_follow _ _ s

/-! ## The sequence fault (R46 to R48) -/

theorem sequenceFault_eq (s : State) : s.sequenceFault = { s with
    fetch := { s.fetch with window := s.fetch.window.map fun y =>
      if s.fetch.outer = some y.id then { y with summary := { y.summary with fault := true } } else y }
    ctl := { s.ctl with attn := s.ctl.attn ||| 0x80 } } := by
  obtain ⟨transport, clock, ⟨pos, window, stack, outer, chain, resync, read, rereadAsked, nextId⟩, mail, launch, track, exit,
    retire, jam, mem, ctl, config, pending, out, freeIndex⟩ := s
  cases outer with
  | none =>
    have hsame : (window.map fun y : Entry =>
        if none = some y.id then { y with summary := { y.summary with fault := true } } else y) = window := by simp
    simp only [hsame]
    rfl
  | some c =>
    have hflip : ∀ y : Entry, (some c = some y.id) = (y.id = c) := fun y => by
      rw [Option.some_inj]
      exact propext eq_comm
    simp only [hflip]
    rfl

theorem refuseCall_eq (call : Nat) (block link : Word) (why : Reason) (s : State) :
    s.refuseCall call block link why =
      let r := s.updEntry call fun e => { e with draft := some ⟨.refused, some why⟩, callStatus := .notEntered }
      (if s.fetch.stack = [] then r else r.sequenceFault).followLink block link := by
  simp only [refuseCall, List.isEmpty_iff]
  rfl

/-! ## A block fetched as the next of its chain (R41, R46 to R48, R51) -/

section

variable {s : State} {a : Word} {w : OrderWords}

theorem takeBlock_skipped (hresync : s.fetch.resync = true) (hchain : s.fetch.chain = .main) (hopen : kindOf w.kind ≠ .mpOpen) :
    s.takeBlock a w = (s.addEntry { s.newEntry a w with draft := some ⟨.skipped, some .resync⟩ }).followLink a w.link := by
  have hopen' : (s.newEntry a w).kind ≠ .mpOpen := hopen
  unfold takeBlock
  dsimp only
  split
  · simp only [takeCall, hresync, hchain, and_self, if_true]
    rfl
  · rw [if_pos ⟨hresync, hchain, hopen'⟩]

theorem takeBlock_call (hkind : kindOf w.kind = .call) : s.takeBlock a w = s.takeCall (s.newEntry a w) := if_pos hkind

/-- The block is not skipped by a resync: not on the main chain under the resync flag, or an OPEN (R51). -/
theorem not_skipped (hskip : ¬(s.fetch.resync = true ∧ s.fetch.chain = .main)) (k : Kind) :
    ¬(s.fetch.resync = true ∧ s.fetch.chain = .main ∧ k ≠ .mpOpen) := fun h => hskip ⟨h.1, h.2.1⟩

theorem takeBlock_plain (hskip : ¬(s.fetch.resync = true ∧ s.fetch.chain = .main))
    (hkind : kindOf w.kind = .sheet ∨ kindOf w.kind = .nop) :
    s.takeBlock a w = (s.addEntry (s.newEntry a w)).followLink a w.link := by
  have hentry : (s.newEntry a w).kind = kindOf w.kind := rfl
  obtain hkind | hkind := hkind <;>
    simp only [takeBlock, hentry, hkind, reduceCtorEq, if_false, if_neg (not_skipped hskip _)]

theorem takeBlock_badKind (hskip : ¬(s.fetch.resync = true ∧ s.fetch.chain = .main))
    (hkind : kindOf w.kind = .unknown ∨ (kindOf w.kind = .ret ∧ s.fetch.stack = [])) :
    s.takeBlock a w = (s.addEntry { s.newEntry a w with draft := some ⟨.refused, some .badKind⟩ }).followLink a w.link := by
  have hentry : (s.newEntry a w).kind = kindOf w.kind := rfl
  obtain hkind | ⟨hkind, hstack⟩ := hkind
  · simp only [takeBlock, hentry, hkind, reduceCtorEq, if_false, if_neg (not_skipped hskip _)]
  · simp only [takeBlock, hentry, hkind, hstack, reduceCtorEq, if_false, if_neg (not_skipped hskip _)]

theorem takeBlock_return {f : Frame} {fs : List Frame} (hskip : ¬(s.fetch.resync = true ∧ s.fetch.chain = .main))
    (hkind : kindOf w.kind = .ret) (hstack : s.fetch.stack = f :: fs) :
    s.takeBlock a w = (if w.w4 = f.head then s.addEntry (s.newEntry a w)
      else (s.addEntry (s.newEntry a w)).sequenceFault).beginReturn := by
  have hentry : (s.newEntry a w).kind = kindOf w.kind := rfl
  simp only [takeBlock, hentry, hkind, hstack, reduceCtorEq, if_false, if_neg (not_skipped hskip _)]

/-- An OPEN, a PAUSE or a head outside any sequence; an OPEN on the main chain ends the resync (R51). -/
theorem takeBlock_outside (hskip : kindOf w.kind = .mpOpen ∨ ¬(s.fetch.resync = true ∧ s.fetch.chain = .main))
    (hkind : kindOf w.kind = .mpOpen ∨ kindOf w.kind = .pause ∨ kindOf w.kind = .head) (hstack : s.fetch.stack = []) :
    s.takeBlock a w = (State.addEntry (s.newEntry a w) (if kindOf w.kind = .mpOpen ∧ s.fetch.chain = .main then
        s.onFetch fun u => { u with resync := false } else s)).followLink a w.link := by
  have hentry : (s.newEntry a w).kind = kindOf w.kind := rfl
  have hnot : ¬(s.fetch.resync = true ∧ s.fetch.chain = .main ∧ kindOf w.kind ≠ .mpOpen) := fun h =>
    hskip.elim h.2.2 fun hskip => hskip ⟨h.1, h.2.1⟩
  obtain hkind | hkind | hkind := hkind <;> rw [hkind] at hnot <;>
    simp only [takeBlock, hentry, hkind, hstack, reduceCtorEq, if_false, if_neg hnot, List.isEmpty_nil, Bool.not_true,
      Bool.false_eq_true]

theorem takeBlock_notAllowed (hskip : ¬(s.fetch.resync = true ∧ s.fetch.chain = .main))
    (hkind : kindOf w.kind = .mpOpen ∨ kindOf w.kind = .pause ∨ kindOf w.kind = .head) {f : Frame} {fs : List Frame}
    (hstack : s.fetch.stack = f :: fs) :
    s.takeBlock a w = (State.sequenceFault (s.addEntry { s.newEntry a w with notAllowed := true })).beginReturn := by
  have hentry : (s.newEntry a w).kind = kindOf w.kind := rfl
  obtain hkind | hkind | hkind := hkind <;>
    simp only [takeBlock, hentry, hkind, hstack, reduceCtorEq, if_false, if_neg (not_skipped hskip _), List.isEmpty_cons,
      Bool.not_false, if_true]

/-! ## A CALL (R46) -/

theorem takeCall_depth {e : Entry} (hskip : ¬(s.fetch.resync = true ∧ s.fetch.chain = .main)) (hdepth : 4 ≤ s.fetch.stack.length) :
    s.takeCall e = (s.addEntry e).refuseCall e.id e.addr e.words.link .callDepth := by
  have hfull : Config.callStackDepth ≤ s.fetch.stack.length := hdepth
  simp only [takeCall, if_neg hskip, if_pos hfull]

theorem takeCall_loop {e : Entry} (hskip : ¬(s.fetch.resync = true ∧ s.fetch.chain = .main)) (hdepth : s.fetch.stack.length < 4)
    (hloop : ∃ f ∈ s.fetch.stack, f.head = e.words.w4) :
    s.takeCall e = (s.addEntry e).refuseCall e.id e.addr e.words.link .callLoop := by
  have hroom : ¬Config.callStackDepth ≤ s.fetch.stack.length := Nat.not_le.mpr hdepth
  have hany : s.fetch.stack.any (·.head == e.words.w4) = true := by simpa using hloop
  simp only [takeCall, if_neg hskip, if_neg hroom, hany, if_true]

theorem takeCall_head {e : Entry} (hskip : ¬(s.fetch.resync = true ∧ s.fetch.chain = .main)) (hdepth : s.fetch.stack.length < 4)
    (hloop : ¬∃ f ∈ s.fetch.stack, f.head = e.words.w4) :
    s.takeCall e = if s.orderAddrOk e.words.w4 then
        (s.addEntry { e with callStatus := .pending }).setPos (.awaitingHead e.id e.words.w4)
      else (s.addEntry { e with callStatus := .pending }).chainFault (.callHead e.id e.addr) e.words.w4 := by
  have hroom : ¬Config.callStackDepth ≤ s.fetch.stack.length := Nat.not_le.mpr hdepth
  have hany : ¬s.fetch.stack.any (·.head == e.words.w4) = true := by simpa using hloop
  have haddr : ∀ x : Entry, (s.addEntry x).orderAddrOk e.words.w4 = s.orderAddrOk e.words.w4 := fun x =>
    orderAddrOk_congr (by simp) (by simp) _
  simp only [takeCall, if_neg hskip, if_neg hroom, if_neg hany, haddr]

end

end Sys2Proof.Machine.State
end

section
/-! PROOFS. A block fetched: the plain case, CALLs and their sequences, resync (O19 to O21). -/

namespace Sys2Proof.Machine

open State

namespace State

/-- The state in which the value of a read of the Order Fetch Unit is used. -/
def readDone (s : State) : State :=
  { s with out := [], mem := { s.mem with bus := none }, fetch := { s.fetch with read := none } }

/-- The state after an order fetch: the entry stands in the window, and STANDBY asks for a wake evaluation. -/
def withEntry (s : State) (e : Entry) : State :=
  { s with
    out := [], mem := { s.mem with bus := none }
    fetch := { s.fetch with read := none, nextId := s.fetch.nextId + 1, window := s.fetch.window ++ [e] }
    launch := { s.launch with wakeAsked := s.launch.wakeAsked || s.ctl.state == .standby } }

theorem readDone_addEntry {s : State} (hroom : s.fetch.window.length < 64) (e : Entry) :
    (s.readDone.addEntry e).askWake = s.withEntry e := by
  rw [addEntry_of_room (by exact hroom), askWake_eq]
  rfl

theorem askWake_sequenceFault (s : State) : s.sequenceFault.askWake = s.askWake.sequenceFault := by
  rw [sequenceFault_eq, sequenceFault_eq, askWake_eq, askWake_eq]

theorem askWake_beginReturn (s : State) : s.beginReturn.askWake = s.askWake.beginReturn := by
  have hfetch : s.askWake.fetch = s.fetch := by simp
  simp only [beginReturn, hfetch]
  split
  · rfl
  · exact askWake_setPos _ s

theorem askWake_updEntry (id : Nat) (f : Entry → Entry) (s : State) : (s.updEntry id f).askWake = s.askWake.updEntry id f := by
  simp only [askWake_eq]
  rfl

theorem askWake_refuseCall (call : Nat) (block link : Word) (why : Reason) (s : State) :
    (s.refuseCall call block link why).askWake = s.askWake.refuseCall call block link why := by
  have hfetch : s.askWake.fetch = s.fetch := by simp
  rw [refuseCall_eq, refuseCall_eq]
  simp only [askWake_followLink, hfetch]
  split
  · rw [askWake_updEntry]
  · rw [askWake_sequenceFault, askWake_updEntry]

theorem beginReturn_cons {s : State} {f : Frame} {fs : List Frame} (h : s.fetch.stack = f :: fs) :
    s.beginReturn = { s with fetch := { s.fetch with pos := .returning f.head } } := by
  simp only [beginReturn, h]
  rw [← h]
  rfl

end State

theorem exec_orderFetchComplete {s : State} {r : ReadReq} (hbus : s.mem.bus = some ⟨.read r, false⟩)
    (hr : r.purpose = .fetch .order) (hread : s.fetch.read = some ⟨.order, false⟩) (w : OrderWords) :
    exec (.orderFetchComplete w) s = .next (s.readDone.takeFetched w).askWake.finish := by
  have huse : s.fresh.freeBus.fetch.read = some ⟨.order, false⟩ := hread
  simp only [exec, execOrderFetchComplete, event, completeRead_of_read hbus hr, useFetchRead, if_pos huse]
  rfl

theorem exec_nextBlock {s : State} {r : ReadReq} {a : Word} (hbus : s.mem.bus = some ⟨.read r, false⟩)
    (hr : r.purpose = .fetch .order) (hread : s.fetch.read = some ⟨.order, false⟩) (hpos : s.fetch.pos = .next a) (w : OrderWords) :
    exec (.orderFetchComplete w) s = .next (s.readDone.takeBlock a w).askWake.finish := by
  have hpos' : s.readDone.fetch.pos = .next a := hpos
  rw [exec_orderFetchComplete hbus hr hread, takeFetched, hpos']

/-- Outside any sequence, a block that is not skipped and that the chain may hold is added as it is. -/
theorem takeBlock_first {s : State} {a : Word} {w : OrderWords} (hskip : ¬(s.fetch.resync = true ∧ s.fetch.chain = .main))
    (hkind : kindOf w.kind = .sheet ∨ kindOf w.kind = .nop ∨ kindOf w.kind = .head ∨ kindOf w.kind = .pause
      ∨ kindOf w.kind = .mpOpen) (hstack : s.fetch.stack = []) :
    s.readDone.takeBlock a w = (s.readDone.addEntry (s.readDone.newEntry a w)).followLink a w.link := by
  have houtside : kindOf w.kind = .mpOpen ∨ kindOf w.kind = .pause ∨ kindOf w.kind = .head →
      s.readDone.takeBlock a w = (s.readDone.addEntry (s.readDone.newEntry a w)).followLink a w.link := by
    intro hspecial
    rw [takeBlock_outside (s := s.readDone) (.inr hskip) hspecial hstack]
    split
    next hmain =>
      have hresync : s.readDone.fetch.resync = false := Bool.eq_false_iff.mpr fun h => hskip ⟨h, hmain.2⟩
      have hsame : (s.readDone.onFetch fun u => { u with resync := false }) = s.readDone := by
        rw [onFetch, ← hresync]
      rw [hsame]
    · rfl
  obtain h | h | h | h | h := hkind
  · exact takeBlock_plain (s := s.readDone) hskip (.inl h)
  · exact takeBlock_plain (s := s.readDone) hskip (.inr h)
  · exact houtside (.inr (.inr h))
  · exact houtside (.inr (.inl h))
  · exact houtside (.inl h)

/-- Settles O21. -/
theorem ordersInSequencesAndResync : Obligations.OrdersInSequencesAndResync := by
  intro w a r s hbus hr hread hpos hroom kind skips inside entry read added refused faulted goesTo linked
  have hexec := exec_nextBlock hbus hr hread hpos w
  have hentry : s.readDone.newEntry a w = entry := by
    cases hstack : s.fetch.stack <;> simp [newEntry, readDone, entry, inside, hstack, noSummary, kind]
    rfl
  have hadded : ∀ e, (s.readDone.addEntry e).askWake = added e := readDone_addEntry hroom
  have hlinked : ∀ e, s.readDone.takeBlock a w = (s.readDone.addEntry e).followLink a w.link → linked (added e) :=
    fun e he => by
      show exec _ _ = _
      rw [hexec, he, askWake_followLink, hadded]
  refine ⟨fun hskip hkind => ?_, fun hskip hkind hstack => ?_, fun hstack hskip => ⟨fun hkind => ?_, fun hkind => ?_⟩,
    fun f fs hstack hskip => ⟨fun hkind => ?_, fun hkind => ?_, fun hkind hhead => ?_, fun hkind hhead => ?_, fun hkind => ?_⟩,
    fun hkind hskip => ?_, fun block link u => ⟨fun hzero hstack hchain => ?_, fun hzero hstay => ?_,
      fun hne hok => followLink_next hne hok block, fun hne hbad => followLink_bad hne hbad block⟩,
    fun src bad u => ⟨fun h => chainFault_room h src bad, fun h => chainFault_full h src bad⟩⟩
  · refine hlinked _ ?_
    rw [← hentry]
    exact takeBlock_skipped (s := s.readDone) hskip.1 hskip.2 hkind
  · show exec _ _ = _
    rw [hexec, takeBlock_outside (s := s.readDone) (.inl hkind) (.inl hkind) hstack, askWake_followLink, if_pos ⟨hkind, hskip.2⟩,
      addEntry_of_room (by exact hroom), askWake_eq, ← hentry]
    rfl
  · refine hlinked _ ?_
    rw [← hentry]
    exact takeBlock_first hskip hkind hstack
  · refine hlinked _ ?_
    rw [← hentry]
    exact takeBlock_badKind (s := s.readDone) hskip (hkind.symm.imp_right fun h => ⟨h, hstack⟩)
  · refine hlinked _ ?_
    rw [← hentry]
    exact takeBlock_plain (s := s.readDone) hskip hkind
  · refine hlinked _ ?_
    rw [← hentry]
    exact takeBlock_badKind (s := s.readDone) hskip (.inl hkind)
  · show exec _ _ = _
    rw [hexec, takeBlock_return (s := s.readDone) hskip hkind hstack, if_pos hhead, askWake_beginReturn, hadded, hentry,
      beginReturn_cons (by exact hstack)]
  · show exec _ _ = _
    rw [hexec, takeBlock_return (s := s.readDone) hskip hkind hstack, if_neg hhead, askWake_beginReturn, askWake_sequenceFault,
      hadded, hentry, sequenceFault_eq, beginReturn_cons (by exact hstack)]
  · show exec _ _ = _
    rw [hexec, takeBlock_notAllowed (s := s.readDone) hskip hkind hstack, askWake_beginReturn, askWake_sequenceFault, hadded,
      hentry, sequenceFault_eq, beginReturn_cons (by exact hstack)]
  · intro loops inSequence
    have hcall : s.readDone.takeBlock a w = s.readDone.takeCall entry := by
      rw [takeBlock_call hkind, hentry]
    have hrefused : ∀ why, s.readDone.takeCall entry = (s.readDone.addEntry entry).refuseCall entry.id a w.link why →
        linked (inSequence (refused why)) := by
      intro why hwhy
      show exec _ _ = _
      rw [hexec, hcall, hwhy, askWake_refuseCall, hadded, refuseCall_eq]
      cases hstack : s.fetch.stack with
      | nil =>
        have hout : inside = false := by simp [inside, hstack]
        simp only [inSequence, hout, Bool.false_eq_true, if_false]
        rfl
      | cons f fs =>
        have hin : inside = true := by simp [inside, hstack]
        simp only [inSequence, hin, if_true, sequenceFault_eq]
        rfl
    refine ⟨fun hdepth => hrefused _ (takeCall_depth (s := s.readDone) hskip hdepth),
      fun hdepth hloop => hrefused _ (takeCall_loop (s := s.readDone) hskip hdepth hloop), fun hdepth hloop hbad => ?_⟩
    have haddr : ¬s.readDone.orderAddrOk entry.words.w4 = true := by
      rw [Bool.not_eq_true]
      exact hbad
    rw [hexec, hcall, takeCall_head (s := s.readDone) (e := entry) hskip hdepth hloop, if_neg haddr, askWake_chainFault, hadded]
  · subst hzero
    rw [followLink_switch hstack hchain]
    exact ⟨switchToMain_zero, switchToMain_ok, switchToMain_bad⟩
  · subst hzero
    exact followLink_end hstay block

end Sys2Proof.Machine
end

section
/-! PROOFS. A block fetched outside any sequence (O19), a CALL and its head (O20). -/

namespace Sys2Proof.Machine

open State

namespace State

/-- Following a link changes the fetch, the writes and the control fields of a chain fault alone. -/
theorem followLink_parts (block link : Word) (s : State) : s.followLink block link =
    { s with fetch := (s.followLink block link).fetch, mem := (s.followLink block link).mem, ctl := (s.followLink block link).ctl } :=
  ext_parts (by simp) (by simp) rfl (by simp) (by simp) (by simp) (by simp) (by simp) (by simp) rfl rfl (by simp) (by simp)
    (by simp) (by simp)

/-- A chain fault that finds room announces itself and writes the bad address (R42). -/
theorem chainFault_told {s : State} (h : s.queueHasRoom = true) (src : FaultSource) (bad : Word) :
    (s.chainFault src bad).attnHas .chainFault = true ∧ (s.chainFault src bad).ctl.lastSkip = some .chainFault
      ∧ (s.chainFault src bad).mem.queue = s.mem.queue ++ [⟨5, s.ctl.area + 44, bad, .plain⟩] := by
  rw [chainFault_room h]
  exact ⟨by simp [attnHas, AttnFlag.bit], rfl, rfl⟩

end State

/-- A kind that a chain does not hold is refused as it is fetched (R41). -/
def badKindDraft (k : Kind) : Option Draft := if k = .ret ∨ k = .unknown then some ⟨.refused, some .badKind⟩ else none

/-- Outside any sequence, and with no resync, a block other than a CALL is added with its draft and its link followed. -/
theorem takeBlock_chain {s : State} {a : Word} {w : OrderWords} (hstack : s.fetch.stack = []) (hresync : s.fetch.resync = false)
    (hcall : kindOf w.kind ≠ .call) :
    s.readDone.takeBlock a w
      = (s.readDone.addEntry { s.readDone.newEntry a w with draft := badKindDraft (kindOf w.kind) }).followLink a w.link := by
  have hskip : ¬(s.fetch.resync = true ∧ s.fetch.chain = .main) := fun h => by simp [hresync] at h
  by_cases hbad : kindOf w.kind = .ret ∨ kindOf w.kind = .unknown
  · rw [badKindDraft, if_pos hbad]
    exact takeBlock_badKind (s := s.readDone) hskip (hbad.symm.imp_right fun h => ⟨h, hstack⟩)
  · rw [badKindDraft, if_neg hbad]
    refine takeBlock_first hskip ?_ hstack
    cases hkind : kindOf w.kind <;> simp [hkind] at hbad hcall ⊢

/-- Settles O19. -/
theorem orderFetched : Obligations.OrderFetched := by
  intro w a r s hbus hr hread hpos hroom hstack hresync hcall
  let e : Entry := { s.readDone.newEntry a w with draft := badKindDraft (kindOf w.kind) }
  have hentry : s.readDone.newEntry a w = ⟨s.fetch.nextId, a, kindOf w.kind, s.fetch.chain.chain, none, w, .fetched, none, false,
      ⟨0, 0, 0, false⟩, .notEntered, false⟩ := by
    simp [newEntry, readDone, hstack, noSummary]
  refine ⟨(s.withEntry e).followLink a w.link, ?_, ?_, ?_, ?_, ?_, fun hzero hmain => ?_, fun hne hok => ?_, fun hne hbad => ?_, ?_, ?_⟩
  · rw [exec_nextBlock hbus hr hread hpos, takeBlock_chain hstack hresync hcall, askWake_followLink, readDone_addEntry hroom]
  · simp only [followLink_frame, withEntry, e, hentry]
    rfl
  · simp [withEntry]
  · simp [withEntry]
  · simpa [withEntry] using hstack
  · rw [hzero, followLink_end (.inr (by exact hmain))]
  · rw [followLink_next hne (by exact hok)]
    exact ⟨rfl, rfl⟩
  · rw [followLink_bad hne (by exact hbad)]
    exact ⟨congrArg Fetch.pos (chainFault_fetch _ _ _), fun hroom => chainFault_told (by exact hroom) _ _⟩
  · simp [withEntry]
  · rw [followLink_parts]
    simp [withEntry]

/-! ## The head of a CALL's sequence (R46) -/

namespace State

/-- The state after a fetch that adds no entry. -/
def readWoken (s : State) : State :=
  { s.readDone with launch := { s.launch with wakeAsked := s.launch.wakeAsked || s.ctl.state == .standby } }

theorem readDone_askWake (s : State) : s.readDone.askWake = s.readWoken := askWake_eq _

theorem takeHead_refused {s : State} {call : Nat} {head : Word} {w : OrderWords} {c : Entry} (hfind : s.findEntry call = some c)
    (hkind : kindOf w.kind ≠ .head) : s.takeHead call head w = s.refuseCall call c.addr c.words.link .badKind := by
  simp only [takeHead, hfind, if_neg hkind]

theorem takeHead_head {s : State} {call : Nat} {head : Word} {w : OrderWords} {c : Entry} (hfind : s.findEntry call = some c)
    (hkind : kindOf w.kind = .head) : s.takeHead call head w
      = s.issueWrite ⟨5, head + 16, c.addr, .plain⟩ (.enterSequence call head w) (enterSequence call head w) := by
  simp only [takeHead, hfind, if_pos hkind]
  rfl

end State

/-! What a link followed issues comes after the writes already in the queue (R54). -/

namespace State

theorem chainFault_queue_grows (src : FaultSource) (bad : Word) (s : State) :
    ∃ more, (s.chainFault src bad).mem.queue = s.mem.queue ++ more := by
  cases hroom : s.queueHasRoom with
  | true => exact ⟨_, by rw [chainFault_room hroom]⟩
  | false => exact ⟨[], by rw [chainFault_full hroom, List.append_nil]⟩

theorem follow_queue_grows (src : FaultSource) (a : Word) (s : State) :
    ∃ more, (s.follow src a).mem.queue = s.mem.queue ++ more := by
  cases hok : s.orderAddrOk a with
  | true => exact ⟨[], by rw [follow_ok hok, List.append_nil]⟩
  | false =>
    rw [follow_bad hok]
    exact chainFault_queue_grows src a s

theorem startMainResume_queue_grows (s : State) : ∃ more, s.startMainResume.mem.queue = s.mem.queue ++ more := by
  unfold startMainResume
  split
  · exact ⟨[], (List.append_nil _).symm⟩
  · exact follow_queue_grows _ _ s

theorem followLink_queue_grows (block link : Word) (s : State) :
    ∃ more, (s.followLink block link).mem.queue = s.mem.queue ++ more := by
  unfold followLink
  split
  · split
    · exact startMainResume_queue_grows s.onMain
    · exact ⟨[], (List.append_nil _).symm⟩
  · exact follow_queue_grows _ _ s

end State

theorem exec_headBlock {s : State} {r : ReadReq} {call : Nat} {head : Word} (hbus : s.mem.bus = some ⟨.read r, false⟩)
    (hr : r.purpose = .fetch .order) (hread : s.fetch.read = some ⟨.order, false⟩) (hpos : s.fetch.pos = .awaitingHead call head)
    (w : OrderWords) :
    exec (.orderFetchComplete w) s = .next (s.readDone.takeHead call head w).askWake.finish := by
  have hpos' : s.readDone.fetch.pos = .awaitingHead call head := hpos
  rw [exec_orderFetchComplete hbus hr hread, takeFetched, hpos']

namespace State

/-- The entry of a head that a CALL awaited (R46 step 6). -/
def headEntry (s : State) (call : Nat) (head : Word) (w : OrderWords) : Entry :=
  { id := s.fetch.nextId, addr := head, kind := kindOf w.kind, chain := .sequence
    caller := if s.fetch.stack = [] then some call else s.fetch.outer, words := w, state := .fetched, draft := none
    notAllowed := false, summary := ⟨0, 0, 0, false⟩, callStatus := .notEntered, dropped := false }

/-- The sequence entered, its return link's write in the queue, before the head's own link is followed. -/
def inSequence (s : State) (call : Nat) (head caller : Word) (w : OrderWords) : State :=
  { s.readWoken with
    mem := { s.mem with bus := none, queue := s.mem.queue ++ [⟨5, head + 16, caller, .plain⟩] }
    fetch := { s.fetch with
      read := none, outer := if s.fetch.stack = [] then some call else s.fetch.outer, stack := ⟨head, call⟩ :: s.fetch.stack
      window := s.fetch.window ++ [s.headEntry call head w], nextId := s.fetch.nextId + 1 } }

end State

theorem exec_headBlock_entered {s : State} {r : ReadReq} {call : Nat} {head : Word} {w : OrderWords} {c : Entry}
    (hbus : s.mem.bus = some ⟨.read r, false⟩) (hr : r.purpose = .fetch .order) (hread : s.fetch.read = some ⟨.order, false⟩)
    (hpos : s.fetch.pos = .awaitingHead call head) (hfind : s.findEntry call = some c) (hkind : kindOf w.kind = .head)
    (hroom : s.fetch.window.length < 64) (hdepth : s.fetch.stack.length < 4) (hqueue : s.queueHasRoom = true) :
    exec (.orderFetchComplete w) s = .next ((s.inSequence call head c.addr w).followLink head w.link).finish := by
  rw [exec_headBlock hbus hr hread hpos w, takeHead_head (s := s.readDone) hfind hkind, issueWrite_room (by exact hqueue),
    enterSequence_eq (by exact hroom) (by exact hdepth), askWake_followLink, askWake_eq]
  rfl

/-- Settles O20. -/
theorem callEntersItsSequence : Obligations.CallEntersItsSequence := by
  refine ⟨fun w r s hbus hr hread hroom => ⟨fun a hpos hkind hskip hdepth hloop hok => ?_, fun call head c hpos hfind hdepth hqueue hkind => ?_,
    fun call head c hpos hfind hstack hkind => ?_⟩, fun w r call head c s hbus hr hread hpos hfind => ⟨fun hkind hstack => ?_,
    fun hkind hstack => ?_, fun hkind hfull => ?_⟩⟩
  · have hnoLoop : ¬∃ f ∈ s.fetch.stack, f.head = w.w4 := fun ⟨f, hf, hhead⟩ => hloop f hf hhead
    have haddr : s.readDone.orderAddrOk w.w4 = true := hok
    let e : Entry := { s.readDone.newEntry a w with callStatus := .pending }
    refine ⟨(s.withEntry e).setPos (.awaitingHead e.id w.w4), e, ?_, rfl, rfl, hkind, rfl, rfl, rfl, rfl, rfl, rfl⟩
    rw [exec_nextBlock hbus hr hread hpos, takeBlock_call hkind,
      takeCall_head (s := s.readDone) (e := s.readDone.newEntry a w) hskip hdepth hnoLoop, if_pos (by exact haddr),
      askWake_setPos, readDone_addEntry hroom]
    rfl
  · refine ⟨_, s.headEntry call head w, exec_headBlock_entered hbus hr hread hpos hfind hkind hroom hdepth hqueue, ?_, ?_, ?_,
      rfl, hkind, rfl, ?_, rfl, ?_, fun hne hok => ?_⟩
    · simp [inSequence]
    · simp [inSequence]
    · simp [inSequence]
    · simp [inSequence, headEntry]
    · obtain ⟨more, hmore⟩ := followLink_queue_grows head w.link (s.inSequence call head c.addr w)
      refine ⟨more, ?_⟩
      rw [hmore, inSequence, List.append_assoc]
      rfl
    · rw [followLink_next hne (by exact hok)]
  · have hexec := exec_headBlock hbus hr hread hpos w
    rw [takeHead_refused (s := s.readDone) hfind hkind, askWake_refuseCall, readDone_askWake, refuseCall_eq] at hexec
    refine ⟨_, hexec, ?_, ?_⟩
    · simp [readWoken, readDone, hstack]
    · simp [readWoken, readDone, hstack]
  · rw [exec_headBlock hbus hr hread hpos w, takeHead_refused (s := s.readDone) hfind hkind, askWake_refuseCall, readDone_askWake, refuseCall_eq]
    dsimp only
    rw [if_pos (by exact hstack)]
    rfl
  · rw [exec_headBlock hbus hr hread hpos w, takeHead_refused (s := s.readDone) hfind hkind, askWake_refuseCall, readDone_askWake, refuseCall_eq]
    dsimp only
    rw [if_neg (by exact hstack), sequenceFault_eq]
    rfl
  · rw [exec_headBlock hbus hr hread hpos w, takeHead_head (s := s.readDone) hfind hkind, issueWrite_full (by exact hfull), askWake_eq]
    rfl

end Sys2Proof.Machine
end

section
/-! PROOFS. The reads the Order Fetch Unit issues (O22). -/

namespace Sys2Proof.Machine

open State

namespace State

theorem fetches_iff (s : State) : s.fetches = true ↔ s.ctl.state = .running ∨ s.ctl.state = .standby ∨ s.ctl.state = .draining
    ∨ s.ctl.state = .halted := by
  unfold fetches
  cases s.ctl.state <;> simp

/-- The unit may issue a read now (R40, R54). -/
def MayRead (s : State) : Prop :=
  (s.ctl.state = .running ∨ s.ctl.state = .standby ∨ s.ctl.state = .draining ∨ s.ctl.state = .halted) ∧ s.fetch.read = none
    ∧ s.fetchHeld = false

theorem mayRead_iff (s : State) : (s.fetches = true ∧ s.fetch.read = none ∧ s.fetchHeld = false) ↔ s.MayRead := by
  rw [fetches_iff, MayRead]

theorem issueReads_not {s : State} (h : ¬s.MayRead) : s.issueReads = s := if_neg (mt (mayRead_iff s).mp h)

theorem issueReads_wanted {s : State} {k : FetchRead} {addrs : List Word} (h : s.MayRead) (hwanted : s.wantedRead = some (k, addrs)) :
    s.issueReads = { s with
      fetch := { s.fetch with read := some ⟨k, false⟩, rereadAsked := false }
      mem := { s.mem with waiting := s.mem.waiting ++ [⟨.fetch k, addrs⟩] } } := by
  simp only [issueReads, if_pos ((mayRead_iff s).mpr h), hwanted]
  rfl

theorem issueReads_none {s : State} (hwanted : s.wantedRead = none) : s.issueReads = s := by
  simp only [issueReads, hwanted, ite_self]

/-! ## The read a position calls for (R41, R43, R44, R47) -/

theorem wantedRead_order {s : State} {a : Word} (hpos : s.fetch.pos = .next a ∨ ∃ call, s.fetch.pos = .awaitingHead call a) :
    s.wantedRead = if s.fetch.window.length < 64 then some (.order, orderReadAddrs a) else none := by
  obtain hpos | ⟨call, hpos⟩ := hpos
  · simp only [wantedRead, hpos]
    rfl
  · simp only [wantedRead, hpos]
    rfl

/-- The address of the word in a tail's place (R43). -/
def tailAddr (s : State) : Tail → Word
  | .block a => a
  | .controlWord2 => s.ctl.area + 8

theorem wantedRead_tail {s : State} {t : Tail} (hpos : s.fetch.pos = .chainEnd t) : s.wantedRead =
    if s.fetch.rereadAsked then some (.tail, [s.tailAddr t]) else none := by
  simp only [wantedRead, hpos]
  cases t <;> rfl

theorem wantedRead_faultSource {s : State} {src : FaultSource} (hpos : s.fetch.pos = .chainFault src) : s.wantedRead =
    if s.fetch.rereadAsked then (s.sourceAddr src).map fun a => (.faultSource, [a]) else none := by
  simp only [wantedRead, hpos]

theorem fetchHeld_iff (s : State) : s.fetchHeld = true ↔ ∃ h ∈ s.mem.held, ∃ call head w, h.steps = .enterSequence call head w := by
  simp only [fetchHeld, List.any_eq_true]
  refine exists_congr fun h => and_congr_right fun _ => ?_
  cases h.steps <;> simp

end State

/-- Settles O22. -/
theorem fetchReadsIssued : Obligations.FetchReadsIssued := by
  refine ⟨fun s => ⟨issueReads_not, fun hmay => ?_⟩, fetchHeld_iff⟩
  have horder : ∀ a, (s.fetch.pos = .next a ∨ ∃ call, s.fetch.pos = .awaitingHead call a) →
      (s.fetch.window.length < 64 → s.issueReads = { s with
        fetch := { s.fetch with read := some ⟨.order, false⟩, rereadAsked := false }
        mem := { s.mem with waiting := s.mem.waiting
          ++ [⟨.fetch .order, ([0, 4, 12, 16, 20, 24, 28, 32, 36] : List Word).map (a + ·)⟩] } })
        ∧ (64 ≤ s.fetch.window.length → s.issueReads = s) := fun a hpos =>
    ⟨fun hroom => issueReads_wanted hmay ((wantedRead_order hpos).trans (if_pos hroom)),
      fun hfull => issueReads_none ((wantedRead_order hpos).trans (if_neg (Nat.not_lt.mpr hfull)))⟩
  have hagain : ∀ k a, s.wantedRead = (if s.fetch.rereadAsked then some (k, [a]) else none) →
      (s.fetch.rereadAsked = true → s.issueReads = { s with
        fetch := { s.fetch with read := some ⟨k, false⟩, rereadAsked := false }
        mem := { s.mem with waiting := s.mem.waiting ++ [⟨.fetch k, [a]⟩] } })
        ∧ (s.fetch.rereadAsked = false → s.issueReads = s) := fun k a hwanted =>
    ⟨fun hasked => issueReads_wanted hmay (hwanted.trans (if_pos hasked)),
      fun hnot => issueReads_none (hwanted.trans (if_neg (by simp [hnot])))⟩
  refine ⟨fun a hpos => horder a (.inl hpos), fun call a hpos => horder a (.inr ⟨call, hpos⟩), fun head hpos => ?_,
    fun block call hpos => ?_, fun a hpos => hagain _ _ (wantedRead_tail hpos), fun hpos => hagain _ _ (wantedRead_tail hpos),
    fun a hpos => hagain _ _ (wantedRead_faultSource hpos), fun call block hpos => hagain _ _ (wantedRead_faultSource hpos),
    fun head hpos => hagain _ _ (wantedRead_faultSource hpos), fun hpos => hagain _ _ (wantedRead_faultSource hpos),
    fun hpos => hagain _ _ (wantedRead_faultSource hpos), fun hpos => issueReads_none ?_⟩
  · exact issueReads_wanted hmay (by simp only [wantedRead, hpos]; rfl)
  · exact issueReads_wanted hmay (by simp only [wantedRead, hpos])
  · obtain ⟨v, hpos⟩ | hpos := hpos
    · simp [wantedRead_faultSource hpos, sourceAddr]
    · simp only [wantedRead, hpos]

end Sys2Proof.Machine
end

section
/-! PROOFS. The reads of links, return links and ready words complete (O23). -/

namespace Sys2Proof.Machine

open State

namespace State

/-! ## The values used (R43, R44, R47) -/

theorem takeTail_zero {s : State} {t : Tail} (hpos : s.fetch.pos = .chainEnd t) : s.takeTail 0 = s := by
  simp only [takeTail, hpos, if_true]

theorem takeTail_follow {s : State} {t : Tail} {v : Word} (hpos : s.fetch.pos = .chainEnd t) (hne : v ≠ 0) :
    s.takeTail v = State.follow (State.Tail.source t) v { s with fetch := { s.fetch with rereadAsked := false } } := by
  simp only [takeTail, hpos, if_neg hne]
  rfl

theorem takeFaultSource_link {s : State} {b v : Word} (hpos : s.fetch.pos = .chainFault (.link b)) :
    s.takeFaultSource v = if v = 0 then { s with fetch := { s.fetch with pos := .chainEnd (.block b) } }
      else s.follow (.link b) v := by
  simp only [takeFaultSource, hpos]
  rfl

theorem takeFaultSource_word2 {s : State} {v : Word} (hpos : s.fetch.pos = .chainFault .controlWord2) :
    s.takeFaultSource v = if v = 0 then { s with fetch := { s.fetch with pos := .chainEnd .controlWord2 } }
      else s.follow .controlWord2 v := by
  simp only [takeFaultSource, hpos]
  rfl

theorem takeFaultSource_word3 {s : State} {v : Word} (hpos : s.fetch.pos = .chainFault .controlWord3) :
    s.takeFaultSource v = if v = 0 then s.switchToMain else s.follow .controlWord3 v := by
  simp only [takeFaultSource, hpos]

theorem takeFaultSource_callHead {s : State} {call : Nat} {b v : Word} (hpos : s.fetch.pos = .chainFault (.callHead call b)) :
    s.takeFaultSource v = if s.orderAddrOk v then { s with fetch := { s.fetch with pos := .awaitingHead call v } }
      else s.chainFault (.callHead call b) v := by
  simp only [takeFaultSource, hpos]
  rfl

theorem takeFaultSource_returnLink {s : State} {head v : Word} (hpos : s.fetch.pos = .chainFault (.returnLink head)) :
    s.takeFaultSource v = if s.orderAddrOk v then s.leaveSequence v else s.chainFault (.returnLink head) v := by
  simp only [takeFaultSource, hpos]

theorem takeReturnLink_returning {s : State} {head v : Word} (hpos : s.fetch.pos = .returning head) :
    s.takeReturnLink v = if s.orderAddrOk v then s.leaveSequence v else s.chainFault (.returnLink head) v := by
  simp only [takeReturnLink, hpos]

theorem leaveSequence_cons {s : State} {f : Frame} {rest : List Frame} (h : s.fetch.stack = f :: rest) (v : Word) :
    s.leaveSequence v = { s with fetch := { s.fetch with
      stack := rest, pos := .continuing v f.call, outer := if rest = [] then none else s.fetch.outer } } := by
  simp only [leaveSequence, h, onFetch, List.isEmpty_iff]

theorem takeContinuation_continuing {s : State} {block v : Word} {call : Nat} (hpos : s.fetch.pos = .continuing block call) :
    s.takeContinuation v = State.followLink block v { s with fetch := { s.fetch with window := s.fetch.window.map fun e =>
      if e.id = call then { e with callStatus := .left } else e } } := by
  simp only [takeContinuation, hpos]
  rfl

/-! ## The ready words (R82, R110) -/

theorem takeCandidateReady_eq {s : State} {id : Nat} (h : s.launch.candRead = some id) (v : Word) :
    s.takeCandidateReady v = { s with
      launch := { s.launch with candRead := none, wakeAsked := s.launch.wakeAsked || s.ctl.state == .standby }
      fetch := { s.fetch with
        window := if s.launch.candidate = some id then
            s.fetch.window.map fun e => if e.id = id then { e with words := { e.words with ready := v } } else e
          else s.fetch.window } } := by
  simp only [takeCandidateReady, h]
  split
  · rw [askWake_eq]
    rfl
  · rw [askWake_eq]
    rfl

theorem takeInvReady_eq (t : Nat) (v : Word) (s : State) : s.takeInvReady t v = { s with
    track := { s.track with sheets := s.track.sheets.map fun x =>
      if x.id = t ∧ x.side2Check = .pending then { x with side2Check := if v.getLsbD 1 then .ready else .notReady } else x } } := by
  have hnested : ∀ x : Sheet, (if x.id = t then
        (if x.side2Check = .pending then { x with side2Check := if side2Ready v then .ready else .notReady } else x) else x)
      = if x.id = t ∧ x.side2Check = .pending then { x with side2Check := if v.getLsbD 1 then .ready else .notReady } else x :=
    fun x => by
      by_cases hid : x.id = t <;> by_cases hpending : x.side2Check = .pending <;> simp [hid, hpending, side2Ready]
  simp only [takeInvReady, updSheet, onTrack, hnested]

end State

/-! ## The completions (R52, R53) -/

section

variable {s : State} {r : ReadReq} (hbus : s.mem.bus = some ⟨.read r, false⟩)
include hbus

theorem exec_tailReread (hr : r.purpose = .fetch .tail) (hread : s.fetch.read = some ⟨.tail, false⟩) (v : Word) :
    exec (.tailReread v) s = .next (s.readDone.takeTail v).finish := by
  simp only [exec, execTailReread, event, completeFetchRead_of_read hbus hr _ hread]
  rfl

theorem exec_chainFaultReread (hr : r.purpose = .fetch .faultSource) (hread : s.fetch.read = some ⟨.faultSource, false⟩) (v : Word) :
    exec (.chainFaultReread v) s = .next (s.readDone.takeFaultSource v).finish := by
  simp only [exec, execChainFaultReread, event, completeFetchRead_of_read hbus hr _ hread]
  rfl

theorem exec_returnLinkRead (hr : r.purpose = .fetch .returnLink) (hread : s.fetch.read = some ⟨.returnLink, false⟩) (v : Word) :
    exec (.returnLinkRead v) s = .next (s.readDone.takeReturnLink v).finish := by
  simp only [exec, execReturnLinkRead, event, completeFetchRead_of_read hbus hr _ hread]
  rfl

theorem exec_continuationRead (hr : r.purpose = .fetch .continuation) (hread : s.fetch.read = some ⟨.continuation, false⟩)
    (v : Word) : exec (.continuationRead v) s = .next (s.readDone.takeContinuation v).finish := by
  simp only [exec, execContinuationRead, event, completeFetchRead_of_read hbus hr _ hread]
  rfl

theorem exec_candidateReadyWordRead (hr : r.purpose = .candidateReady) (v : Word) :
    exec (.candidateReadyWordRead v) s = .next (s.fresh.freeBus.takeCandidateReady v).finish := by
  simp only [exec, execCandidateReadyWordRead, event, completeRead_of_read hbus hr]

theorem exec_invReadyWordRead {t : Nat} (hr : r.purpose = .invReady t) (v : Word) :
    exec (.invReadyWordRead v) s = .next (s.fresh.freeBus.takeInvReady t v).finish := by
  simp only [exec, execInvReadyWordRead, event, readInProgress_fresh hbus, hr]

/-! ### A tail re-read (R43) -/

theorem tailReread_zero {t : Tail} (hr : r.purpose = .fetch .tail) (hread : s.fetch.read = some ⟨.tail, false⟩)
    (hpos : s.fetch.pos = .chainEnd t) : exec (.tailReread 0) s = .next s.readDone.finish := by
  rw [exec_tailReread hbus hr hread, takeTail_zero (s := s.readDone) hpos]

theorem tailReread_next {t : Tail} {v : Word} (hr : r.purpose = .fetch .tail) (hread : s.fetch.read = some ⟨.tail, false⟩)
    (hpos : s.fetch.pos = .chainEnd t) (hne : v ≠ 0) (hok : s.orderAddrOk v = true) : exec (.tailReread v) s = .next (State.finish
      { s.readDone with fetch := { s.readDone.fetch with pos := .next v, rereadAsked := false } }) := by
  rw [exec_tailReread hbus hr hread, takeTail_follow (s := s.readDone) hpos hne, follow_ok (by exact hok)]

theorem tailReread_bad {t : Tail} {v : Word} (hr : r.purpose = .fetch .tail) (hread : s.fetch.read = some ⟨.tail, false⟩)
    (hpos : s.fetch.pos = .chainEnd t) (hne : v ≠ 0) (hbad : s.orderAddrOk v = false) :
    exec (.tailReread v) s = .next (State.finish (State.chainFault (State.Tail.source t) v
      { s.readDone with fetch := { s.readDone.fetch with rereadAsked := false } })) := by
  rw [exec_tailReread hbus hr hread, takeTail_follow (s := s.readDone) hpos hne, follow_bad (by exact hbad)]

end

/-- Settles O23. -/
theorem linkAndReadyWordReads : Obligations.LinkAndReadyWordReads := by
  refine ⟨⟨⟨fun v r s hbus => ⟨fun b hr hread hpos => ⟨fun hzero => ?_, fun hne hok => ?_, fun hne hbad hroom => ?_⟩,
      fun b hr hread hpos => ⟨fun hzero => ?_, fun hne hok => ?_, fun hne hbad hroom => ?_⟩⟩,
    fun v r s hbus => ⟨fun head f rest hr hread hpos hstack => ⟨fun hok => ?_, fun hbad hroom => ?_⟩,
      fun block call hr hread hpos => ⟨fun hzero hmain => ?_, fun hne hok => ?_⟩⟩⟩,
    fun v r id s hbus hr hread => ?_, fun v r t s hbus hr => ?_⟩,
    fun v r s hbus => ⟨fun hr hread => ⟨fun b hpos hne hbad => ?_, fun hpos => ⟨fun hzero => ?_, fun hne hok => ?_, fun hne hbad => ?_⟩⟩,
      fun hr hread => ⟨fun b hpos hne hbad => ?_, fun call b hpos => ⟨fun hok => ?_, fun hbad => ?_⟩,
        fun head f rest hpos hstack => ⟨fun hok => ?_, fun hbad => ?_⟩,
        fun hpos => ⟨fun hzero => ?_, fun hne hok => ?_, fun hne hbad => ?_⟩,
        fun hpos => ⟨fun hzero hresume => ?_, fun hzero hne hok => ?_, fun hzero hne hbad => ?_, fun hne hok => ?_, fun hne hbad => ?_⟩⟩,
      fun head hr hread hpos hbad => ?_, fun block call hr hread hpos => ?_⟩⟩
  · rw [hzero]
    exact tailReread_zero hbus hr hread hpos
  · exact tailReread_next hbus hr hread hpos hne hok
  · rw [tailReread_bad hbus hr hread hpos hne hbad, chainFault_room (by exact hroom)]
    rfl
  · rw [exec_chainFaultReread hbus hr hread, takeFaultSource_link (s := s.readDone) hpos, if_pos hzero]
    rfl
  · rw [exec_chainFaultReread hbus hr hread, takeFaultSource_link (s := s.readDone) hpos, if_neg hne, follow_ok (by exact hok)]
    rfl
  · rw [exec_chainFaultReread hbus hr hread, takeFaultSource_link (s := s.readDone) hpos, if_neg hne, follow_bad (by exact hbad),
      chainFault_room (by exact hroom)]
    rfl
  · rw [exec_returnLinkRead hbus hr hread, takeReturnLink_returning (s := s.readDone) hpos, if_pos (by exact hok),
      leaveSequence_cons (by exact hstack)]
    rfl
  · rw [exec_returnLinkRead hbus hr hread, takeReturnLink_returning (s := s.readDone) hpos, if_neg (by exact Bool.eq_false_iff.mp hbad),
      chainFault_room (by exact hroom)]
    rfl
  · rw [hzero, exec_continuationRead hbus hr hread, takeContinuation_continuing (s := s.readDone) hpos,
      followLink_end (.inr (by exact hmain))]
    rfl
  · rw [exec_continuationRead hbus hr hread, takeContinuation_continuing (s := s.readDone) hpos, followLink_next hne (by exact hok)]
    rfl
  · rw [exec_candidateReadyWordRead hbus hr, takeCandidateReady_eq (s := s.fresh.freeBus) hread]
    rfl
  · rw [exec_invReadyWordRead hbus hr, takeInvReady_eq]
    rfl
  · exact tailReread_bad (t := .block b) hbus hr hread hpos hne hbad
  · rw [hzero]
    exact tailReread_zero hbus hr hread hpos
  · exact tailReread_next hbus hr hread hpos hne hok
  · exact tailReread_bad (t := .controlWord2) hbus hr hread hpos hne hbad
  · show exec _ _ = _
    rw [exec_chainFaultReread hbus hr hread, takeFaultSource_link (s := s.readDone) hpos, if_neg hne, follow_bad (by exact hbad)]
    rfl
  · show exec _ _ = _
    rw [exec_chainFaultReread hbus hr hread, takeFaultSource_callHead (s := s.readDone) hpos, if_pos (by exact hok)]
    rfl
  · show exec _ _ = _
    rw [exec_chainFaultReread hbus hr hread, takeFaultSource_callHead (s := s.readDone) hpos, if_neg (by exact Bool.eq_false_iff.mp hbad)]
    rfl
  · show exec _ _ = _
    rw [exec_chainFaultReread hbus hr hread, takeFaultSource_returnLink (s := s.readDone) hpos, if_pos (by exact hok),
      leaveSequence_cons (by exact hstack)]
    rfl
  · show exec _ _ = _
    rw [exec_chainFaultReread hbus hr hread, takeFaultSource_returnLink (s := s.readDone) hpos, if_neg (by exact Bool.eq_false_iff.mp hbad)]
    rfl
  · show exec _ _ = _
    rw [exec_chainFaultReread hbus hr hread, takeFaultSource_word2 (s := s.readDone) hpos, if_pos hzero]
    rfl
  · show exec _ _ = _
    rw [exec_chainFaultReread hbus hr hread, takeFaultSource_word2 (s := s.readDone) hpos, if_neg hne, follow_ok (by exact hok)]
    rfl
  · show exec _ _ = _
    rw [exec_chainFaultReread hbus hr hread, takeFaultSource_word2 (s := s.readDone) hpos, if_neg hne, follow_bad (by exact hbad)]
    rfl
  · rw [exec_chainFaultReread hbus hr hread, takeFaultSource_word3 (s := s.readDone) hpos, if_pos hzero,
      switchToMain_zero (by exact hresume)]
    rfl
  · rw [exec_chainFaultReread hbus hr hread, takeFaultSource_word3 (s := s.readDone) hpos, if_pos hzero,
      switchToMain_ok (by exact hne) (by exact hok)]
    rfl
  · rw [exec_chainFaultReread hbus hr hread, takeFaultSource_word3 (s := s.readDone) hpos, if_pos hzero,
      switchToMain_bad (by exact hne) (by exact hbad)]
    rfl
  · show exec _ _ = _
    rw [exec_chainFaultReread hbus hr hread, takeFaultSource_word3 (s := s.readDone) hpos, if_neg hne, follow_ok (by exact hok)]
    rfl
  · show exec _ _ = _
    rw [exec_chainFaultReread hbus hr hread, takeFaultSource_word3 (s := s.readDone) hpos, if_neg hne, follow_bad (by exact hbad)]
    rfl
  · show exec _ _ = _
    rw [exec_returnLinkRead hbus hr hread, takeReturnLink_returning (s := s.readDone) hpos, if_neg (by exact Bool.eq_false_iff.mp hbad)]
    rfl
  · rw [exec_continuationRead hbus hr hread, takeContinuation_continuing (s := s.readDone) hpos]
    rfl

end Sys2Proof.Machine
end

section
/-! PROOFS. Reads cut off or discarded, and the start addresses of RUN and RECOVER (O18). -/

namespace Sys2Proof.Machine

open State

/-! ## Reads cut off, and reads not in progress (R43, R52, R55) -/

/-- The command that completes a read of one purpose is that completion. -/
theorem exec_completes {c : Instr} {p : Purpose} (h : c.completes = some p) :
    ∃ use, ∀ s, exec c s = .next (s.fresh.completeRead p use) := by
  cases c with
  | orderFetchComplete w | tailReread v | chainFaultReread v | returnLinkRead v | continuationRead v | candidateReadyWordRead v
  | windowLengthRead v | configAddressRead v | configBlockRead v | mainHeadRead v | recoveryHeadRead v =>
    cases h
    exact ⟨_, fun _ => rfl⟩
  | _ => cases h

theorem completeRead_cut {s : State} {r : ReadReq} {p : Purpose} (hbus : s.mem.bus = some ⟨.read r, true⟩) (hr : r.purpose = p)
    (use : State → State) : s.fresh.completeRead p use = s.fresh.freeBus.finish := by
  simp [completeRead, readInProgress, cutRead, hbus, hr]

/-- A read of the Order Fetch Unit that is to be discarded only ends (R43, R52). -/
theorem useFetchRead_discarded {s : State} {k : FetchRead} (h : s.fetch.read = some ⟨k, true⟩) (use : State → State) :
    s.useFetchRead k use = s.endRead := by
  simp [useFetchRead, h]

/-- The completion of a read of the Order Fetch Unit; that of an order fetch also asks for a wake evaluation (R89). -/
theorem exec_completesFetch {c : Instr} {k : FetchRead} (h : c.completes = some (.fetch k)) :
    ∃ use, ∀ s, exec c s = .next (s.fresh.completeRead (.fetch k) fun s =>
      if k = .order then (s.useFetchRead k use).askWake else s.useFetchRead k use) := by
  cases c with
  | orderFetchComplete w | tailReread v | chainFaultReread v | returnLinkRead v | continuationRead v =>
    cases h
    exact ⟨_, fun _ => rfl⟩
  | candidateReadyWordRead v | windowLengthRead v | configAddressRead v | configBlockRead v | mainHeadRead v
  | recoveryHeadRead v => cases h
  | _ => cases h

theorem exec_discarded {c : Instr} {k : FetchRead} {r : ReadReq} {s : State} (hc : c.completes = some (.fetch k))
    (hbus : s.mem.bus = some ⟨.read r, false⟩) (hr : r.purpose = .fetch k) (hread : s.fetch.read = some ⟨k, true⟩) :
    exec c s = .next (State.finish
        { s with
          out := []
          mem := { s.mem with bus := none }
          fetch := { s.fetch with read := none }
          launch := { s.launch with
            wakeAsked := s.launch.wakeAsked || (k == .order && s.ctl.state == .standby) } }) := by
  obtain ⟨use, hexec⟩ := exec_completesFetch hc
  have huse : s.fresh.freeBus.useFetchRead k use = s.readDone := useFetchRead_discarded (by exact hread) use
  rw [hexec, completeRead_of_read hbus hr, huse]
  split
  next horder =>
    rw [horder, readDone_askWake]
    rfl
  next hother =>
    rw [beq_false_of_ne hother, Bool.false_and, Bool.or_false]
    rfl

/-! ## The start addresses of RUN and RECOVER (R49, R167, R168) -/

theorem exec_mainHeadRead {s : State} {r : ReadReq} (hbus : s.mem.bus = some ⟨.read r, false⟩) (hr : r.purpose = .mainHead)
    (v : Word) : exec (.mainHeadRead v) s = .next (s.fresh.freeBus.takeMainHead v).finish := by
  simp only [exec, execMainHeadRead, event, completeRead_of_read hbus hr]

theorem exec_recoveryHeadRead {s : State} {r : ReadReq} (hbus : s.mem.bus = some ⟨.read r, false⟩) (hr : r.purpose = .recoveryHead)
    (v : Word) : exec (.recoveryHeadRead v) s = .next (s.fresh.freeBus.takeRecoveryHead v).finish := by
  simp only [exec, execRecoveryHeadRead, event, completeRead_of_read hbus hr]

namespace State

theorem takesFront_iff (s : State) : s.takesFront = true ↔ s.ctl.state = .running ∨ s.ctl.state = .standby := by
  simp only [takesFront, Bool.or_eq_true, beq_iff_eq]

theorem takeMainHead_live {s : State} (h : s.ctl.state = .running ∨ s.ctl.state = .standby) (v : Word) :
    s.takeMainHead v = (s.startFromWord2 v).endCommand 2 .accepted := by
  simp only [takeMainHead, if_pos ((takesFront_iff s).mpr h)]

theorem takeMainHead_discarded {s : State} (h : ¬(s.ctl.state = .running ∨ s.ctl.state = .standby)) (v : Word) :
    s.takeMainHead v = s.endCommand 2 .accepted := by
  simp only [takeMainHead, if_neg (mt (takesFront_iff s).mp h)]

theorem takeRecoveryHead_live {s : State} (h : s.ctl.state = .running ∨ s.ctl.state = .standby) (v : Word) :
    s.takeRecoveryHead v = (s.startFromWord3 v).endCommand 5 .accepted := by
  simp only [takeRecoveryHead, if_pos ((takesFront_iff s).mpr h)]

theorem takeRecoveryHead_discarded {s : State} (h : ¬(s.ctl.state = .running ∨ s.ctl.state = .standby)) (v : Word) :
    s.takeRecoveryHead v = s.endCommand 5 .accepted := by
  simp only [takeRecoveryHead, if_neg (mt (takesFront_iff s).mp h)]

theorem startFromWord2_zero (s : State) :
    s.startFromWord2 0 = { s with fetch := { s.fetch with pos := .chainEnd .controlWord2 } } := if_pos rfl

theorem startFromWord2_follow {v : Word} (hne : v ≠ 0) (s : State) : s.startFromWord2 v = s.follow .controlWord2 v := if_neg hne

theorem startFromWord3_zero (s : State) : s.startFromWord3 0 = s.switchToMain := if_pos rfl

theorem startFromWord3_follow {v : Word} (hne : v ≠ 0) (s : State) : s.startFromWord3 v = s.follow .controlWord3 v := if_neg hne

theorem startFromWord2_parts (v : Word) (s : State) : s.startFromWord2 v =
    { s with fetch := (s.startFromWord2 v).fetch, mem := (s.startFromWord2 v).mem, ctl := (s.startFromWord2 v).ctl } := by
  by_cases hzero : v = 0
  · rw [hzero, startFromWord2_zero]
  · rw [startFromWord2_follow hzero, follow_parts]

theorem switchToMain_parts (s : State) : s.switchToMain =
    { s with
      fetch := { s.fetch with chain := .main, resync := s.jam.mainResync, pos := s.switchToMain.fetch.pos }
      mem := s.switchToMain.mem, ctl := s.switchToMain.ctl } := by
  rw [switchToMain_eq, startMainResume_parts]
  rfl

theorem startFromWord3_parts (v : Word) (s : State) : s.startFromWord3 v =
    { s with fetch := (s.startFromWord3 v).fetch, mem := (s.startFromWord3 v).mem, ctl := (s.startFromWord3 v).ctl } := by
  by_cases hzero : v = 0
  · rw [hzero, startFromWord3_zero, switchToMain_parts]
  · rw [startFromWord3_follow hzero, follow_parts]

end State

/-- Settles O18. -/
theorem discardedAndStartAddressReads : Obligations.DiscardedAndStartAddressReads := by
  refine ⟨⟨⟨fun c p s hc => ⟨fun r hbus hr => ?_, fun hnone => ?_⟩, fun c k r s => exec_discarded⟩,
    fun v r s hbus => ⟨fun hr => ⟨_, exec_mainHeadRead hbus hr v, ?_⟩, fun hr => ⟨_, exec_recoveryHeadRead hbus hr v, ?_⟩⟩⟩,
    fun v r s hbus => ?_⟩
  · obtain ⟨use, hexec⟩ := exec_completes hc
    rw [hexec, completeRead_cut hbus hr]
    rfl
  · obtain ⟨use, hexec⟩ := exec_completes hc
    rw [hexec, completeRead_without_read use (by exact hnone)]
    rfl
  · refine ⟨rfl, rfl, rfl, setAttn_attnHas _ _, fun hlive hzero => ?_, fun hlive hne hok => ?_, fun hlive hne hbad => ?_,
      fun hnot => ?_, ?_, ?_⟩
    · rw [hzero, takeMainHead_live (by exact hlive), startFromWord2_zero]
      rfl
    · rw [takeMainHead_live (by exact hlive), startFromWord2_follow hne, follow_ok (by exact hok)]
      rfl
    · rw [takeMainHead_live (by exact hlive), startFromWord2_follow hne, follow_bad (by exact hbad)]
      exact chainFault_fetch _ _ _
    · rw [takeMainHead_discarded (by exact hnot)]
      rfl
    · by_cases hlive : s.ctl.state = .running ∨ s.ctl.state = .standby
      · rw [takeMainHead_live (by exact hlive), startFromWord2_parts]
        rfl
      · rw [takeMainHead_discarded (by exact hlive)]
        rfl
    · simp only [takeMainHead]
      split <;> simp [freeBus]
  · refine ⟨rfl, rfl, rfl, setAttn_attnHas _ _, fun hlive hzero => ?_, fun hlive hzero hresume => ?_, fun hlive hne hok => ?_,
      fun hlive hne hbad => ?_, fun hnot => ?_, ?_, ?_⟩
    · rw [hzero, takeRecoveryHead_live (by exact hlive), startFromWord3_zero, switchToMain_parts]
      rfl
    · rw [hzero, takeRecoveryHead_live (by exact hlive), startFromWord3_zero, switchToMain_zero (by exact hresume)]
      rfl
    · rw [takeRecoveryHead_live (by exact hlive), startFromWord3_follow hne, follow_ok (by exact hok)]
      rfl
    · rw [takeRecoveryHead_live (by exact hlive), startFromWord3_follow hne, follow_bad (by exact hbad)]
      exact chainFault_fetch _ _ _
    · rw [takeRecoveryHead_discarded (by exact hnot)]
      rfl
    · by_cases hlive : s.ctl.state = .running ∨ s.ctl.state = .standby
      · rw [takeRecoveryHead_live (by exact hlive), startFromWord3_parts]
        rfl
      · rw [takeRecoveryHead_discarded (by exact hlive)]
        rfl
    · simp only [takeRecoveryHead]
      split <;> simp [freeBus]
  · intro ok free accepted hlive
    refine ⟨fun hr hne hbad => ?_, fun hr => ⟨fun hne hbad => ?_, fun hzero => ?_⟩⟩
    · rw [exec_mainHeadRead hbus hr, takeMainHead_live (by exact hlive), startFromWord2_follow hne, follow_bad (by exact hbad)]
      rfl
    · rw [exec_recoveryHeadRead hbus hr, takeRecoveryHead_live (by exact hlive), startFromWord3_follow hne, follow_bad (by exact hbad)]
      rfl
    · subst hzero
      have hexec : exec (.recoveryHeadRead 0) s = .next (free.switchToMain.endCommand 5 .accepted).finish := by
        rw [exec_recoveryHeadRead hbus hr, takeRecoveryHead_live (by exact hlive), startFromWord3_zero]
        rfl
      refine ⟨fun hresume => ?_, fun hne hok => ?_, fun hne hbad => ?_⟩
      · rw [hexec, switchToMain_zero (by exact hresume)]
        rfl
      · rw [hexec, switchToMain_ok (by exact hne) (by exact hok)]
        rfl
      · rw [hexec, switchToMain_bad (by exact hne) (by exact hbad)]
        rfl

end Sys2Proof.Machine
end

section
/-! PROOFS. The bus is granted (O25). -/

namespace Sys2Proof.Machine

open State

namespace State

/-! ## The read of the highest class (R53) -/

theorem firstOfLeastClass_cons (r : ReadReq) (rest : List ReadReq) : ∃ b, firstOfLeastClass (r :: rest) = some b := by
  rw [firstOfLeastClass]
  split
  · exact ⟨r, rfl⟩
  next b _ =>
    split
    · exact ⟨r, rfl⟩
    · exact ⟨b, rfl⟩

theorem firstOfLeastClass_eq_none {l : List ReadReq} (h : firstOfLeastClass l = none) : l = [] := by
  cases l with
  | nil => rfl
  | cons r rest =>
    obtain ⟨b, hb⟩ := firstOfLeastClass_cons r rest
    cases h.symm.trans hb

/-- The request chosen has the least class, and of those with that class it is the first. -/
theorem firstOfLeastClass_eq_some {l : List ReadReq} {r : ReadReq} (h : firstOfLeastClass l = some r) :
    ∃ before after, l = before ++ r :: after ∧ (∀ q ∈ before, r.purpose.cls < q.purpose.cls)
      ∧ ∀ q ∈ after, r.purpose.cls ≤ q.purpose.cls := by
  induction l generalizing r with
  | nil => cases h
  | cons q rest ih =>
    rw [firstOfLeastClass] at h
    split at h
    next hrest =>
      cases h
      rw [firstOfLeastClass_eq_none hrest]
      exact ⟨[], [], rfl, by simp, by simp⟩
    next b hrest =>
      obtain ⟨before, after, rfl, hbefore, hafter⟩ := ih hrest
      split at h
      next hle =>
        cases h
        refine ⟨[], _, rfl, by simp, fun y hy => ?_⟩
        obtain hy | rfl | hy := by simpa using hy
        · exact Nat.le_trans hle (Nat.le_of_lt (hbefore y hy))
        · exact hle
        · exact Nat.le_trans hle (hafter y hy)
      next hgt =>
        cases h
        refine ⟨q :: before, after, rfl, fun y hy => ?_, hafter⟩
        obtain rfl | hy := List.mem_cons.mp hy
        · exact Nat.not_le.mp hgt
        · exact hbefore y hy

/-- A request that no write in the queue holds back (R54). -/
def Free (s : State) (r : ReadReq) : Prop := ∀ w ∈ s.mem.queue, w.addr ∉ r.addrs

theorem not_readBlocked_iff (s : State) (r : ReadReq) : (!s.readBlocked r) = true ↔ s.Free r := by
  simp only [readBlocked, Free, Bool.not_eq_true', List.any_eq_false, List.any_eq_true, beq_iff_eq, exists_eq_right]

theorem bestRead_eq_none {s : State} (h : s.bestRead = none) {r : ReadReq} (hr : r ∈ s.mem.waiting) : ¬s.Free r := by
  intro hfree
  have hmem : r ∈ s.mem.waiting.filter fun r => !s.readBlocked r :=
    List.mem_filter.mpr ⟨hr, (not_readBlocked_iff s r).mpr hfree⟩
  rw [firstOfLeastClass_eq_none h] at hmem
  cases hmem

theorem bestRead_eq_some {s : State} {r : ReadReq} (h : s.bestRead = some r) :
    ∃ before after, s.mem.waiting = before ++ r :: after ∧ s.Free r
      ∧ (∀ q ∈ before, s.Free q → r.purpose.cls < q.purpose.cls) ∧ ∀ q ∈ after, s.Free q → r.purpose.cls ≤ q.purpose.cls := by
  obtain ⟨before, after, hlist, hbefore, hafter⟩ := firstOfLeastClass_eq_some h
  obtain ⟨b, rest, hwaiting, rfl, hrest⟩ := List.filter_eq_append_iff.mp hlist
  obtain ⟨skipped, a, rfl, hskipped, hr, rfl⟩ := List.filter_eq_cons_iff.mp hrest
  refine ⟨b ++ skipped, a, by rw [hwaiting, List.append_assoc], (not_readBlocked_iff s r).mp hr, fun q hq hfree => ?_,
    fun q hq hfree => hafter q (List.mem_filter.mpr ⟨hq, (not_readBlocked_iff s q).mpr hfree⟩)⟩
  obtain hq | hq := List.mem_append.mp hq
  · exact hbefore q (List.mem_filter.mpr ⟨hq, (not_readBlocked_iff s q).mpr hfree⟩)
  · exact absurd ((not_readBlocked_iff s q).mpr hfree) (hskipped q hq)

theorem bestRead_le {s : State} {r q : ReadReq} (h : s.bestRead = some r) (hq : q ∈ s.mem.waiting) (hfree : s.Free q) :
    r.purpose.cls ≤ q.purpose.cls := by
  obtain ⟨before, after, hlist, -, hbefore, hafter⟩ := bestRead_eq_some h
  rw [hlist] at hq
  obtain hq | rfl | hq := by simpa using hq
  · exact Nat.le_of_lt (hbefore q hq hfree)
  · exact Nat.le_refl _
  · exact hafter q hq hfree

/-! ## The class of the queue (R54) -/

theorem lt_foldl_min {l : List Nat} {c m : Nat} : c < l.foldl min m ↔ c < m ∧ ∀ n ∈ l, c < n := by
  induction l generalizing m with
  | nil => simp
  | cons n rest ih => rw [List.foldl_cons, ih, Nat.lt_min, List.forall_mem_cons, and_assoc]

theorem lt_queueClass (s : State) (c : Nat) : c < s.queueClass ↔ c < 6 ∧ ∀ w ∈ s.mem.queue, c < w.cls := by
  rw [queueClass, lt_foldl_min, List.forall_mem_map]

/-! ## The access granted next (R53) -/

theorem nextAccess_read {s : State} {r : ReadReq} (h : s.nextAccess = some (.read r)) :
    s.bestRead = some r ∧ ∀ w ∈ s.mem.queue, r.purpose.cls < w.cls := by
  unfold nextAccess at h
  split at h
  · cases h
  · cases h
  next q hbest hqueue =>
    cases h
    exact ⟨hbest, by simp [hqueue]⟩
  next q w rest hbest hqueue =>
    split at h
    next hlt =>
      cases h
      exact ⟨hbest, ((lt_queueClass s _).mp hlt).2⟩
    · cases h

theorem nextAccess_write {s : State} {w : Write} (h : s.nextAccess = some (.write w)) :
    s.mem.queue.head? = some w ∧ ∀ r, s.bestRead = some r → ¬r.purpose.cls < s.queueClass := by
  unfold nextAccess at h
  split at h
  · cases h
  next v rest hbest hqueue =>
    cases h
    exact ⟨by rw [hqueue]; rfl, fun r hr => by cases hbest.symm.trans hr⟩
  · cases h
  next q v rest hbest hqueue =>
    split at h
    · cases h
    next hnot =>
      cases h
      refine ⟨by rw [hqueue]; rfl, fun r hr => ?_⟩
      cases hbest.symm.trans hr
      exact hnot

theorem nextAccess_none {s : State} (h : s.nextAccess = none) : s.mem.queue = [] ∧ s.bestRead = none := by
  unfold nextAccess at h
  split at h
  next hbest hqueue => exact ⟨hqueue, hbest⟩
  · cases h
  · cases h
  · split at h <;> cases h

theorem nextAccess_of_nothing {s : State} (hqueue : s.mem.queue = []) (hnone : ∀ r ∈ s.mem.waiting, ¬s.Free r) :
    s.nextAccess = none := by
  have hbest : s.bestRead = none := by
    cases hbest : s.bestRead with
    | none => rfl
    | some r =>
      obtain ⟨before, after, hlist, hfree, -⟩ := bestRead_eq_some hbest
      exact absurd hfree (hnone r (by simp [hlist]))
  simp only [nextAccess, hbest, hqueue]

theorem grant_busy {s : State} (h : s.mem.bus ≠ none) : s.grant = s := by
  unfold grant
  split
  next hbus _ => exact absurd hbus h
  next hbus _ => exact absurd hbus h
  · rfl

theorem grant_none {s : State} (h : s.nextAccess = none) : s.grant = s := by
  unfold grant
  split
  next hnext => cases h.symm.trans hnext
  next hnext => cases h.symm.trans hnext
  · rfl

theorem grant_read {s : State} {r : ReadReq} (hbus : s.mem.bus = none) (h : s.nextAccess = some (.read r)) :
    s.grant = { s with mem := { s.mem with bus := some ⟨.read r, false⟩, waiting := s.mem.waiting.erase r } } := by
  simp only [grant, hbus, h]
  rfl

theorem grant_write {s : State} {w : Write} (hbus : s.mem.bus = none) (h : s.nextAccess = some (.write w)) :
    s.grant = { s with mem := { s.mem with bus := some ⟨.write w, false⟩ } } := by
  simp only [grant, hbus, h]
  rfl

/-- The read granted stands in the list where no earlier free request has its class. -/
theorem nextAccess_read_place {s : State} {r : ReadReq} (h : s.nextAccess = some (.read r)) :
    ∃ before after, s.mem.waiting = before ++ r :: after ∧ s.mem.waiting.erase r = before ++ after ∧ s.Free r
      ∧ (∀ q ∈ before, s.Free q → r.purpose.cls < q.purpose.cls) ∧ ∀ q ∈ after, s.Free q → r.purpose.cls ≤ q.purpose.cls := by
  obtain ⟨before, after, hlist, hfree, hbefore, hafter⟩ := bestRead_eq_some (nextAccess_read h).1
  have hnew : r ∉ before := fun hr => Nat.lt_irrefl _ (hbefore r hr hfree)
  refine ⟨before, after, hlist, ?_, hfree, hbefore, hafter⟩
  rw [hlist, List.erase_append_right _ hnew, List.erase_cons_head]

end State

/-- Settles O25. -/
theorem busGrants : Obligations.BusGrants := by
  refine ⟨fun s => ⟨grant_busy, fun hbus hqueue hnone => grant_none (nextAccess_of_nothing hqueue fun r hr hfree => hnone r ⟨hr, hfree⟩),
    fun r hr => ?_, fun w hw => ?_, fun hnone => ?_⟩, fun s r => ?_⟩
  · obtain ⟨before, after, hlist, -, hfree, -⟩ := nextAccess_read_place hr
    exact ⟨⟨by simp [hlist], hfree⟩, fun q hq => bestRead_le (nextAccess_read hr).1 hq.1 hq.2, (nextAccess_read hr).2,
      fun hbus => grant_read hbus hr⟩
  · obtain ⟨hhead, hclass⟩ := nextAccess_write hw
    refine ⟨hhead, fun q hq => ?_, fun hbus => grant_write hbus hw⟩
    cases hbest : s.bestRead with
    | none => exact absurd hq.2 (bestRead_eq_none hbest hq.1)
    | some r =>
      have hnot : ¬q.purpose.cls < s.queueClass := fun hlt =>
        hclass r hbest (Nat.lt_of_le_of_lt (bestRead_le hbest hq.1 hq.2) hlt)
      rw [lt_queueClass] at hnot
      by_cases hsix : q.purpose.cls < 6
      · obtain ⟨v, hv⟩ := Classical.not_forall.mp fun hall => hnot ⟨hsix, hall⟩
        obtain ⟨hmem, hle⟩ := Classical.not_imp.mp hv
        exact .inr ⟨v, hmem, Nat.not_lt.mp hle⟩
      · exact .inl (Nat.not_lt.mp hsix)
  · obtain ⟨hqueue, hbest⟩ := nextAccess_none hnone
    exact ⟨hqueue, fun r hr => bestRead_eq_none hbest hr.1 hr.2⟩
  · intro free hr
    obtain ⟨before, after, hlist, herase, -, hbefore, hafter⟩ := nextAccess_read_place hr
    refine ⟨before, after, hlist, hbefore, hafter, fun hbus => ?_⟩
    rw [grant_read hbus hr, herase]

end Sys2Proof.Machine
end

section
/-! PROOFS. Leading edges that fault (O31). -/

namespace Sys2Proof.Machine

open State

namespace State

/-! ## The classification of a leading edge (R98) -/

theorem classify_early {due : Due} {capture : Pos} (h : posDiff capture due.early < 0) (tol : Nat) :
    classify due capture tol = .early := if_pos h

theorem classify_late {due : Due} {capture : Pos} {tol : Nat} (hearly : 0 ≤ posDiff capture due.early)
    (hlate : (tol : Int) < posDiff capture due.expected) : classify due capture tol = .late := by
  rw [classify, if_neg (Int.not_lt.mpr hearly), if_neg (Int.not_le.mpr hlate)]

/-! ## A leading edge matched against the head of its queue -/

section

variable {c : Checkpoint} {latch : PerSection Pos} {s : State} {k : Installed} {x : Sheet} {d : Due}

theorem matchLeading_empty (hk : s.config = some k) (h : s.queueHead c = none) :
    s.matchLeading c latch = s.pathFault .unexpected c none latch := by
  simp only [matchLeading, hk, h]

theorem matchLeading_early (hk : s.config = some k) (hx : s.queueHead c = some x) (hd : x.due = some d)
    (hearly : posDiff (latch.get c.sec) d.early < 0) :
    s.matchLeading c latch = s.pathFault .early c (some x.order) latch := by
  simp only [matchLeading, hk, hx, hd, classify_early hearly]

theorem matchLeading_late (hk : s.config = some k) (hx : s.queueHead c = some x) (hd : x.due = some d)
    (hearly : 0 ≤ posDiff (latch.get c.sec) d.early)
    (hlate : (k.block.lateTol.get c.sec : Int) < posDiff (latch.get c.sec) d.expected) :
    s.matchLeading c latch = s.pathFault .late c (some x.order) latch := by
  simp only [matchLeading, hk, hx, hd, classify_late hearly hlate]

/-- A sheet under two sensors already is too long (R99 step 1). -/
theorem onTime_third (hocc : 2 ≤ x.occ.length) : s.onTime k c x latch = s.pathFault .length c (some x.order) latch :=
  if_pos hocc

end

end State

theorem exec_leadingEdge_tracking {s : State} {c : Checkpoint} (hclear : s.transport.sensors.get c = false)
    (hup : s.track.tracking.get c.sec = true) :
    exec (.leadingEdge c) s = .next ((s.fresh.setSensor c true).matchLeading c s.transport.count).finish := by
  rw [exec_leadingEdge_eq, leadingEdge_tracking hclear hup]

/-- Settles O31: one row of the classification at a time. -/
theorem leadingEdgeFaults : Obligations.LeadingEdgeFaults := by
  intro c k s hk hclear hup leveled halted capture
  rw [exec_leadingEdge_tracking hclear hup]
  refine ⟨fun hnone => ?_, fun x d hx hd hearly => ?_, fun x d hx hd hearly hlate => ?_, fun x d hx hd hearly hlate hocc => ?_⟩
  · rw [matchLeading_empty (by exact hk) (by exact hnone)]
    rfl
  · rw [matchLeading_early (by exact hk) (by exact hx) hd hearly]
    rfl
  · rw [matchLeading_late (by exact hk) (by exact hx) hd hearly hlate]
    rfl
  · rw [matchLeading_onTime (by exact hk) (by exact hx) hd ((classify_eq_onTime_iff _ _ _).mpr ⟨hearly, hlate⟩),
      onTime_third hocc]
    rfl

end Sys2Proof.Machine
end

section
/-! PROOFS. An on-time arrival moves the sheet on (O32). -/

namespace Sys2Proof

/-! ## Values per checkpoint -/

section

variable {α : Type}

theorem PerTray.get_set (p : PerTray α) (t u : Tray) (a : α) : (p.set t a).get u = if u = t then a else p.get u := by
  cases t <;> cases u <;> rfl

theorem PerBin.get_set (p : PerBin α) (b c : Bin) (a : α) : (p.set b a).get c = if c = b then a else p.get c := by
  cases b <;> cases c <;> rfl

theorem PerCheckpoint.get_set_self (p : PerCheckpoint α) (c : Checkpoint) (a : α) : (p.set c a).get c = a := by
  cases c with
  | fd t => exact (p.fd.get_set t t a).trans (if_pos rfl)
  | stk b => exact (p.stk.get_set b b a).trans (if_pos rfl)
  | mrg | reg | fus | inv | rtn | mrk | prg => rfl

theorem PerCheckpoint.get_set_of_ne (p : PerCheckpoint α) {c d : Checkpoint} (h : d ≠ c) (a : α) :
    (p.set c a).get d = p.get d := by
  cases c with
  | fd t =>
    cases d with
    | fd u => exact (p.fd.get_set t u a).trans (if_neg fun hu => h (congrArg _ hu))
    | mrg | reg | fus | inv | rtn | mrk | stk | prg => rfl
  | stk b =>
    cases d with
    | stk e => exact (p.stk.get_set b e a).trans (if_neg fun he => h (congrArg _ he))
    | fd | mrg | reg | fus | inv | rtn | mrk | prg => rfl
  | mrg | reg | fus | inv | rtn | mrk | prg =>
    cases d <;> simp_all [PerCheckpoint.set, PerCheckpoint.get]

end

namespace Machine

open State

namespace State

/-! ## Records through an update of one sheet -/

theorem findSheet_updSheet {f : Sheet → Sheet} (hf : ∀ y, (f y).id = y.id) (i t : Nat) (s : State) :
    (s.updSheet i f).findSheet t = (s.findSheet t).map fun y => if y.id = i then f y else y := by
  have hid : ∀ y : Sheet, (if y.id = i then f y else y).id = y.id := fun y => by split <;> simp [hf]
  simp only [findSheet, updSheet_sheets, List.find?_map, Function.comp_def, hid]

theorem findSheet_updSheet_self {f : Sheet → Sheet} (hf : ∀ y, (f y).id = y.id) {i : Nat} {s : State} {x : Sheet}
    (h : s.findSheet i = some x) : (s.updSheet i f).findSheet i = some (f x) := by
  rw [findSheet_updSheet hf, h, Option.map_some, if_pos (findSheet_mem_id h).2]

theorem findSheet_of_unique {s : State} {x : Sheet} (h : s.track.sheets.filter (·.id = x.id) = [x]) :
    s.findSheet x.id = some x := by
  rw [findSheet, ← List.head?_filter]
  exact congrArg List.head? h

theorem findSheet_of_sheetIds {s : State} {i : Nat} (h : i ∈ s.sheetIds) : ∃ y, s.findSheet i = some y := by
  obtain ⟨y, hy, rfl⟩ := List.mem_map.mp h
  exact Option.isSome_iff_exists.mp (List.find?_isSome.mpr ⟨y, hy, decide_eq_true rfl⟩)

/-! ## Entering a queue (R95) -/

theorem insertByKey_congr {s t : State} (h : ∀ i, (t.findSheet i).map mergeKey = (s.findSheet i).map mergeKey)
    (track : Nat) (key : Word) (l : List Nat) : t.insertByKey track key l = s.insertByKey track key l := by
  induction l with
  | nil => rfl
  | cons i rest ih =>
    have hi := h i
    rw [insertByKey, insertByKey, ih]
    cases hs : s.findSheet i <;> cases ht : t.findSheet i <;> simp_all

/-- The sheet is placed before the first sheet of a greater key. -/
theorem insertByKey_place (s : State) (track : Nat) (key : Word) (l : List Nat) : ∃ before after, l = before ++ after
    ∧ s.insertByKey track key l = before ++ track :: after
    ∧ (∀ t ∈ before, ∀ y, s.findSheet t = some y → pitchGreater (mergeKey y) key = false)
    ∧ ∀ t, after.head? = some t → ∃ y, s.findSheet t = some y ∧ pitchGreater (mergeKey y) key = true := by
  induction l with
  | nil => exact ⟨[], [], rfl, rfl, by simp, by simp⟩
  | cons i rest ih =>
    obtain ⟨before, after, hl, hins, hbefore, hafter⟩ := ih
    have hpast (h : ∀ y, s.findSheet i = some y → pitchGreater (mergeKey y) key = false) :
        ∃ before after, i :: rest = before ++ after ∧ i :: s.insertByKey track key rest = before ++ track :: after
          ∧ (∀ t ∈ before, ∀ y, s.findSheet t = some y → pitchGreater (mergeKey y) key = false)
          ∧ ∀ t, after.head? = some t → ∃ y, s.findSheet t = some y ∧ pitchGreater (mergeKey y) key = true :=
      ⟨i :: before, after, by rw [hl]; rfl, by rw [hins]; rfl, List.forall_mem_cons.mpr ⟨h, hbefore⟩, hafter⟩
    rw [insertByKey]
    cases hi : s.findSheet i with
    | none => exact hpast fun y hy => by cases hi.symm.trans hy
    | some y =>
      by_cases hkey : pitchGreater (mergeKey y) key = true
      · refine ⟨[], i :: rest, rfl, if_pos hkey, by simp, fun t ht => ?_⟩
        cases ht
        exact ⟨y, hi, hkey⟩
      · simp only [if_neg hkey]
        refine hpast fun z hz => ?_
        cases hi.symm.trans hz
        exact Bool.eq_false_iff.mpr hkey

/-- The merge key that the queue of MRG goes by (R95), with 0 for a record that is gone. -/
def keyOf (s : State) (id : Nat) : Word := ((s.findSheet id).map mergeKey).getD 0

theorem keyOf_of_findSheet {s : State} {id : Nat} {x : Sheet} (h : s.findSheet id = some x) : s.keyOf id = mergeKey x := by
  rw [keyOf, h]
  rfl

/-- The record of a sheet that now goes to checkpoint n. -/
def goingTo (k : Installed) (n : Checkpoint) (anchor : Pos) (segment : Nat) (y : Sheet) : Sheet :=
  { y with
    next := some n
    due := some ⟨posAdd anchor segment, posSub (posAdd anchor segment) (k.block.earlyTol.get n.sec),
      posAdd (posAdd anchor segment) (k.block.lateTol.get n.sec)⟩ }

theorem goingTo_id (k : Installed) (n : Checkpoint) (anchor : Pos) (segment : Nat) (y : Sheet) :
    (goingTo k n anchor segment y).id = y.id := rfl

/-- The queue of checkpoint n with a sheet put in its place. -/
def queueWith (s : State) (n : Checkpoint) (id : Nat) : List Nat :=
  if n = .mrg then s.insertByKey id (s.keyOf id) (s.track.queues.get n) else s.track.queues.get n ++ [id]

theorem map_mergeKey_goingTo (k : Installed) (id : Nat) (n : Checkpoint) (anchor : Pos) (segment : Nat) (s : State) (i : Nat) :
    ((s.updSheet id (goingTo k n anchor segment)).findSheet i).map mergeKey = (s.findSheet i).map mergeKey := by
  rw [findSheet_updSheet (goingTo_id k n anchor segment), Option.map_map]
  congr 1
  funext y
  rw [Function.comp]
  split <;> rfl

theorem enterQueue_eq (k : Installed) (id : Nat) (n : Checkpoint) (anchor : Pos) (segment : Nat) (s : State) :
    s.enterQueue k id n anchor segment =
      registerCompare (.late id) n.sec (posAdd (posAdd anchor segment) (k.block.lateTol.get n.sec))
        { s with track := { s.track with
            sheets := s.track.sheets.map fun y =>
              if y.id = id then goingTo k n anchor segment y else y
            queues := s.track.queues.set n (s.queueWith n id) } } := by
  have hkeys := map_mergeKey_goingTo k id n anchor segment s
  have hkey : (match (s.updSheet id (goingTo k n anchor segment)).findSheet id with
      | some x => mergeKey x
      | none => 0) = s.keyOf id := by
    rw [keyOf, ← hkeys id]
    cases (s.updSheet id (goingTo k n anchor segment)).findSheet id <;> rfl
  rw [queueWith, ← insertByKey_congr hkeys, ← hkey]
  rfl

/-! ## An on-time arrival (R99) -/

section

variable (k : Installed) (c : Checkpoint) (x : Sheet) (s : State)

/-- The position at which a sheet that arrives now at c is stuck (R99 step 2). -/
def stuckPos : Pos := posAdd (s.transport.count.get c.sec) (2 * mediaOf k x)

/-- The record of a sheet under the sensor of c. -/
def under (y : Sheet) : Sheet :=
  { y with occ := y.occ ++ [⟨c, s.transport.count.get c.sec, s.stuckPos k c x⟩], last := some c }

/-- The state in which the sheet has come to c and has left its queue (R99 steps 1 and 2). -/
def arrivedAt : State :=
  registerCompare (.stuck x.id c) c.sec (s.stuckPos k c x)
    (((s.fresh.setSensor c true).leaveQueue x.id c).updSheet x.id (s.under k c x))

variable {k c x s}

theorem exec_leadingEdge_onTime {d : Due} (hclear : s.transport.sensors.get c = false)
    (hup : s.track.tracking.get c.sec = true) (hk : s.config = some k) (hx : s.queueHead c = some x) (hd : x.due = some d)
    (hearly : 0 ≤ posDiff (s.transport.count.get c.sec) d.early)
    (hlate : posDiff (s.transport.count.get c.sec) d.expected ≤ (k.block.lateTol.get c.sec : Int)) (hocc : x.occ.length < 2) :
    exec (.leadingEdge c) s = .next ((((s.arrivedAt k c x).checkpointWork c x).reanchor k c x.id
      s.transport.count).checkCommitted c x.id s.transport.count).finish := by
  rw [exec_leadingEdge_tracking hclear hup, matchLeading_onTime (by exact hk) (by exact hx) hd
    ((classify_eq_onTime_iff _ _ _).mpr ⟨hearly, hlate⟩), onTime, if_neg (Nat.not_le.mpr hocc)]
  rfl

theorem findSheet_arrivedAt (hfound : s.findSheet x.id = some x) :
    (s.arrivedAt k c x).findSheet x.id = some (s.under k c x x) :=
  findSheet_updSheet_self (s := (s.fresh.setSensor c true).leaveQueue x.id c) (f := s.under k c x) (fun _ => rfl) hfound

theorem sheetIds_arrivedAt : (s.arrivedAt k c x).sheetIds = s.sheetIds :=
  sheetIds_updSheet x.id (s.under k c x) (fun _ => rfl) _

theorem reanchor_route {y : Sheet} {n : Checkpoint} {segment : Nat} {id : Nat} {latch : PerSection Pos}
    (hfound : s.findSheet id = some y) (hroute : route k s y c = some (n, segment)) :
    s.reanchor k c id latch = s.enterQueue k id n (latch.get n.sec) segment := by
  simp only [reanchor, hfound, hroute]

theorem reanchor_end {y : Sheet} {id : Nat} {latch : PerSection Pos} (hfound : s.findSheet id = some y)
    (hroute : route k s y c = none) :
    s.reanchor k c id latch = s.updSheet id fun r => { r with next := none, due := none } := by
  simp only [reanchor, hfound, hroute]

theorem checkCommitted_inside (h : c.dest? = none) (id : Nat) (latch : PerSection Pos) :
    s.checkCommitted c id latch = s := by
  simp only [checkCommitted, h]

end

/-! ## The way a sheet takes at FUS (R94) -/

/-- Which sheets would go from FUS to INV. -/
def travel (s : State) : List (Nat × Bool) := s.track.sheets.map fun y => (y.id, towardInv y)

theorem travel_of_sheets {s t : State} (h : t.track.sheets = s.track.sheets) : t.travel = s.travel := by
  rw [travel, h, travel]

theorem travel_updSheet {f : Sheet → Sheet} (hid : ∀ y, (f y).id = y.id) (hway : ∀ y, towardInv (f y) = towardInv y)
    (i : Nat) (s : State) : (s.updSheet i f).travel = s.travel := by
  rw [travel, travel, updSheet_sheets, List.map_map]
  congr 1
  funext y
  rw [Function.comp]
  split <;> simp [hid, hway]

theorem travel_markMailpieceSheets (m : Nat) (s : State) : (s.markMailpieceSheets m).travel = s.travel := by
  show (s.track.sheets.map _).map _ = _
  rw [List.map_map]
  congr 1
  funext y
  rw [Function.comp]
  split <;> rfl

theorem travel_enterPurging (m : Nat) (why : Reason) (s : State) : (s.enterPurging m why).travel = s.travel := by
  unfold enterPurging
  split
  · rfl
  next r _ =>
    split
    · refine (travel_of_sheets ?_).trans (travel_markMailpieceSheets m (s.updMp m fun r => { r with state := .purging, reason := some why }))
      simp
    · rfl

theorem travel_giveMark (i : Nat) (why : Reason) (s : State) : (s.giveMark i why).travel = s.travel := by
  unfold giveMark
  split
  · rfl
  · split
    · rw [travel_enterPurging]
      exact travel_updSheet (by intro; rfl) (by intro; rfl) i s
    · rfl

theorem travel_workAtFus (x : Sheet) (s : State) : (s.workAtFus x).travel = s.travel := by
  by_cases h : x.transfer = .outstanding
  · simp only [workAtFus, if_pos h]
    refine (travel_giveMark x.id .transferFault _).trans ?_
    exact travel_updSheet (by intro; rfl) (by intro; rfl) x.id _
  · simp only [workAtFus, if_neg h]
    rfl

theorem map_towardInv_findSheet (s : State) (i : Nat) :
    (s.findSheet i).map towardInv = (s.travel.find? (·.1 = i)).map (·.2) := by
  rw [travel, List.find?_map, Option.map_map]
  rfl

theorem findSheet_of_travel {s t : State} (h : t.travel = s.travel) {i : Nat} {x : Sheet} (hx : s.findSheet i = some x) :
    ∃ y, t.findSheet i = some y ∧ towardInv y = towardInv x := by
  have hmap : (t.findSheet i).map towardInv = some (towardInv x) := by
    rw [map_towardInv_findSheet, h, ← map_towardInv_findSheet, hx]
    rfl
  exact Option.map_eq_some_iff.mp hmap

/-- A sheet on time at c, and what is known of it. -/
structure OnTime (k : Installed) (c : Checkpoint) (x : Sheet) (d : Due) (s : State) : Prop where
  config : s.config = some k
  clear : s.transport.sensors.get c = false
  up : s.track.tracking.get c.sec = true
  head : s.queueHead c = some x
  due : x.due = some d
  early : 0 ≤ posDiff (s.transport.count.get c.sec) d.early
  late : posDiff (s.transport.count.get c.sec) d.expected ≤ (k.block.lateTol.get c.sec : Int)
  room : x.occ.length < 2
  unique : s.track.sheets.filter (·.id = x.id) = [x]

namespace OnTime

variable {k : Installed} {c n : Checkpoint} {x y : Sheet} {d : Due} {s w : State} {segment : Nat}

theorem exec_eq (h : OnTime k c x d s) (hwork : (s.arrivedAt k c x).checkpointWork c x = w) :
    exec (.leadingEdge c) s = .next ((w.reanchor k c x.id s.transport.count).checkCommitted c x.id
      s.transport.count).finish := by
  rw [exec_leadingEdge_onTime h.clear h.up h.config h.head h.due h.early h.late h.room, hwork]

theorem found (h : OnTime k c x d s) : (s.arrivedAt k c x).findSheet x.id = some (s.under k c x x) :=
  findSheet_arrivedAt (findSheet_of_unique h.unique)

theorem goesTo (h : OnTime k c x d s) (hin : c.dest? = none) (hwork : (s.arrivedAt k c x).checkpointWork c x = w)
    (hfound : w.findSheet x.id = some y) (hroute : route k w y c = some (n, segment)) :
    exec (.leadingEdge c) s = .next (w.enterQueue k x.id n (s.transport.count.get n.sec) segment).finish := by
  rw [h.exec_eq hwork, reanchor_route hfound hroute, checkCommitted_inside hin]

/-- At a checkpoint with one way on, the record need only still be there. -/
theorem goesTo_only (h : OnTime k c x d s) (hin : c.dest? = none) (hwork : (s.arrivedAt k c x).checkpointWork c x = w)
    (hroute : ∀ t y, route k t y c = some (n, segment)) :
    exec (.leadingEdge c) s = .next (w.enterQueue k x.id n (s.transport.count.get n.sec) segment).finish := by
  have hmem : x.id ∈ w.sheetIds := by
    rw [← hwork, sheetIds_cw, sheetIds_arrivedAt]
    exact mem_sheetIds (findSheet_mem_id (findSheet_of_unique h.unique)).1
  obtain ⟨y, hy⟩ := findSheet_of_sheetIds hmem
  exact h.goesTo hin hwork hy (hroute w y)

end OnTime

theorem workAtMrg_return {x : Sheet} (h : x.mode = .loop ∧ x.pass2 = false ∧ x.last = some .rtn) (s : State) :
    s.workAtMrg x = (s.updSheet x.id fun r => { r with pass2 := true }).releaseReturn x.id := if_pos h

theorem workAtMrg_other {x : Sheet} (h : ¬(x.mode = .loop ∧ x.pass2 = false ∧ x.last = some .rtn)) (s : State) :
    s.workAtMrg x = s := if_neg h

theorem endSide2Check_pending {x : Sheet} (h : x.pass2 = true ∧ x.side2Check = .pending) (s : State) :
    s.endSide2Check x = s.updSheet x.id fun r => { r with side2Check := .notReady } := if_pos h

theorem endSide2Check_other {x : Sheet} (h : ¬(x.pass2 = true ∧ x.side2Check = .pending)) (s : State) :
    s.endSide2Check x = s := if_neg h

theorem workAtInv_checked {x : Sheet} (h : x.mode = .loop ∧ x.pass2 = false ∧ x.side2 ≠ none ∧ x.purge = none) (s : State) :
    s.workAtInv x = (s.updSheet x.id fun r => { r with side2Check := .pending }).requestRead (.invReady x.id)
      [wordAddr (s.entryAddr x.order) 3] :=
  if_pos ⟨(towardInv_iff x).mpr ⟨h.1, h.2.1⟩, Option.isSome_iff_ne_none.mpr h.2.2.1, h.2.2.2⟩

theorem workAtInv_other {x : Sheet} (h : ¬(x.mode = .loop ∧ x.pass2 = false ∧ x.side2 ≠ none ∧ x.purge = none)) (s : State) :
    s.workAtInv x = s :=
  if_neg fun ⟨hway, hside, hpurge⟩ =>
    h ⟨((towardInv_iff x).mp hway).1, ((towardInv_iff x).mp hway).2, Option.isSome_iff_ne_none.mp hside, hpurge⟩

theorem workAtFus_way {x : Sheet} {d : D1} (h : (if towardInv x then D1.towardInv else .towardMrk) = d) (s : State) :
    s.workAtFus x = (if x.transfer = .outstanding then
        ((s.onTrack fun u => { u with fifo := u.fifo.map fun t => if t.track = x.id then { t with live := false } else t }).updSheet
          x.id fun r => { r with transfer := .abandoned }).giveMark x.id .transferFault
      else s).onTrack fun u => { u with d1 := d } := by
  subst h
  rfl

theorem provisionalDest_marked {x : Sheet} (h : x.purge ≠ none) (s : State) : s.provisionalDest x = .prg := by
  obtain ⟨why, hwhy⟩ := Option.ne_none_iff_exists'.mp h
  simp only [provisionalDest, hwhy]

theorem provisionalDest_bin {s : State} {x : Sheet} {m : Mailpiece} {b : Bin} (hpurge : x.purge = none)
    (hm : s.findMp x.mp = some m) (hb : m.bin = some b) : s.provisionalDest x = .stk b := by
  simp only [provisionalDest, hpurge, hm, Option.bind_some, hb]

theorem route_mrk {k : Installed} {s : State} {x : Sheet} {t : Dest} (h : s.provisionalDest x = t) :
    route k s x .mrk = some (t.checkpoint, segmentToDest k t) := by
  subst h
  rfl

namespace OnTime

variable {k : Installed} {c : Checkpoint} {x : Sheet} {d : Due} {s w : State}

theorem goesTo_fus (h : OnTime k .fus x d s) {n : Checkpoint} {segment : Nat} (hwork : (s.arrivedAt k .fus x).workAtFus x = w)
    (hway : (if towardInv x then (Checkpoint.inv, k.block.fusToInv) else (.mrk, k.block.fusToMrk)) = (n, segment)) :
    exec (.leadingEdge .fus) s = .next (w.enterQueue k x.id n (s.transport.count.get n.sec) segment).finish := by
  obtain ⟨y, hy, hyway⟩ := findSheet_of_travel (travel_workAtFus x _) h.found
  have hyway : towardInv y = towardInv x := hyway
  subst hwork
  refine h.goesTo rfl rfl hy ?_
  rw [← hway, ← hyway]
  simp only [route]
  split <;> rfl

theorem goesTo_bin {t : Dest} (h : OnTime k t.checkpoint x d s) :
    exec (.leadingEdge t.checkpoint) s = .next (((s.arrivedAt k t.checkpoint x).updSheet x.id fun r =>
      { r with next := none, due := none }).checkCommitted t.checkpoint x.id s.transport.count).finish := by
  have hwork : (s.arrivedAt k t.checkpoint x).checkpointWork t.checkpoint x = s.arrivedAt k t.checkpoint x := by
    cases t <;> rfl
  rw [h.exec_eq hwork, reanchor_end h.found (by cases t <;> rfl)]

end OnTime

theorem dest?_checkpoint (t : Dest) : t.checkpoint.dest? = some t := by
  cases t <;> rfl

theorem checkCommitted_committed {s : State} {c : Checkpoint} {id : Nat} {y : Sheet} (hfound : s.findSheet id = some y)
    (hcommitted : y.committed = true) (latch : PerSection Pos) : s.checkCommitted c id latch = s := by
  unfold checkCommitted
  cases c.dest? with
  | none => rfl
  | some t => simp only [hfound, hcommitted, if_true]

theorem checkCommitted_uncommitted {s : State} {t : Dest} {id : Nat} {y : Sheet} (hfound : s.findSheet id = some y)
    (hcommitted : y.committed = false) (latch : PerSection Pos) :
    s.checkCommitted t.checkpoint id latch = s.pathFault .unexpected t.checkpoint (some y.order) latch := by
  simp only [checkCommitted, hfound, hcommitted, dest?_checkpoint, Bool.false_eq_true, if_false]

theorem pathFault_bin (cause : Cause) (t : Dest) (sheet : Option Nat) (counts : PerSection Pos) (s : State) :
    s.pathFault cause t.checkpoint sheet counts
      = (s.haltSections ⟨false, false, true⟩).report ⟨cause, .checkpoint t.checkpoint, sheet, counts⟩ := by
  cases t <;> rfl

/-! ## What is on record after the arrival -/

theorem eq_of_unique {s : State} {x y : Sheet} (h : s.track.sheets.filter (·.id = x.id) = [x]) (hy : y ∈ s.track.sheets)
    (hid : y.id = x.id) : y = x := by
  have hmem : y ∈ s.track.sheets.filter (·.id = x.id) := List.mem_filter.mpr ⟨hy, decide_eq_true hid⟩
  rw [h] at hmem
  exact List.mem_singleton.mp hmem

theorem sheets_after_arrival {k : Installed} {c n : Checkpoint} {x : Sheet} {s : State} (anchor : Pos) (segment : Nat)
    (h : s.track.sheets.filter (·.id = x.id) = [x]) :
    ((s.arrivedAt k c x).enterQueue k x.id n anchor segment).track.sheets
      = s.track.sheets.map fun y => if y.id = x.id then goingTo k n anchor segment (s.under k c x x) else y := by
  rw [enterQueue_eq]
  show (s.track.sheets.map _).map _ = _
  rw [List.map_map]
  refine List.map_congr_left fun y hy => ?_
  rw [Function.comp]
  by_cases hid : y.id = x.id
  · cases eq_of_unique h hy hid
    rw [if_pos rfl, if_pos rfl]
    exact if_pos rfl
  · rw [if_neg hid, if_neg hid, if_neg hid]

theorem queues_after_arrival (k : Installed) (c n : Checkpoint) (x : Sheet) (s : State) (anchor : Pos) (segment : Nat) :
    ((s.arrivedAt k c x).enterQueue k x.id n anchor segment).track.queues
      = (s.track.queues.set c ((s.track.queues.get c).filter (· ≠ x.id))).set n ((s.arrivedAt k c x).queueWith n x.id) := by
  rw [enterQueue_eq]
  rfl

theorem mem_insertByKey (s : State) (track : Nat) (key : Word) (l : List Nat) : track ∈ s.insertByKey track key l := by
  obtain ⟨before, after, -, hins, -, -⟩ := insertByKey_place s track key l
  simp [hins]

theorem mem_queueWith (s : State) (n : Checkpoint) (id : Nat) : id ∈ s.queueWith n id := by
  unfold queueWith
  split
  · exact mem_insertByKey s id _ _
  · simp

theorem mem_registerCompare (owner : CompareOwner) (sec : Section) (pos : Pos) (s : State) :
    ∃ e, (⟨owner, sec, pos, e, e.isSome⟩ : Compare) ∈ (s.registerCompare owner sec pos).transport.compares := by
  rw [registerCompare_eq]
  refine ⟨if 0 ≤ posDiff (s.transport.count.get sec) pos then some s.transport.count else none, ?_⟩
  have hsome : (if 0 ≤ posDiff (s.transport.count.get sec) pos then some s.transport.count else none).isSome
      = decide (0 ≤ posDiff (s.transport.count.get sec) pos) := by
    split <;> simp_all
  rw [hsome]
  simp

theorem registerCompare_keeps {q : Compare} {s : State} (h : q ∈ s.transport.compares) (owner : CompareOwner) (sec : Section)
    (pos : Pos) : q ∈ (s.registerCompare owner sec pos).transport.compares := by
  rw [registerCompare_eq]
  exact List.mem_append_left _ h

theorem compares_after_arrival (k : Installed) (c n : Checkpoint) (x : Sheet) (s : State) (anchor : Pos) (segment : Nat) :
    ∃ e₁ e₂, (⟨.stuck x.id c, c.sec, s.stuckPos k c x, e₁, e₁.isSome⟩ : Compare)
        ∈ ((s.arrivedAt k c x).enterQueue k x.id n anchor segment).transport.compares
      ∧ (⟨.late x.id, n.sec, posAdd (posAdd anchor segment) (k.block.lateTol.get n.sec), e₂, e₂.isSome⟩ : Compare)
        ∈ ((s.arrivedAt k c x).enterQueue k x.id n anchor segment).transport.compares := by
  rw [enterQueue_eq]
  obtain ⟨e₁, he₁⟩ := mem_registerCompare (.stuck x.id c) c.sec (s.stuckPos k c x)
    (((s.fresh.setSensor c true).leaveQueue x.id c).updSheet x.id (s.under k c x))
  obtain ⟨e₂, he₂⟩ := mem_registerCompare (.late x.id) n.sec (posAdd (posAdd anchor segment) (k.block.lateTol.get n.sec)) _
  exact ⟨e₁, e₂, registerCompare_keeps he₁ _ _ _, he₂⟩

/-- The arrival moves the sensor, the compares, the records and the queues, and nothing else. -/
theorem arrival_rest (k : Installed) (c n : Checkpoint) (x : Sheet) (s : State) (anchor : Pos) (segment : Nat) :
    ((s.arrivedAt k c x).enterQueue k x.id n anchor segment).transport.sensors = s.transport.sensors.set c true
    ∧ (s.arrivedAt k c x).enterQueue k x.id n anchor segment = { s with
      out := []
      transport := { s.transport with
        sensors := ((s.arrivedAt k c x).enterQueue k x.id n anchor segment).transport.sensors
        compares := ((s.arrivedAt k c x).enterQueue k x.id n anchor segment).transport.compares }
      track := { s.track with
        sheets := ((s.arrivedAt k c x).enterQueue k x.id n anchor segment).track.sheets
        queues := ((s.arrivedAt k c x).enterQueue k x.id n anchor segment).track.queues } } := by
  rw [enterQueue_eq]
  exact ⟨rfl, rfl⟩

end State

/-- Settles O32: the arrival up to the checkpoint's work once for all checkpoints, then each checkpoint's work and way on. -/
theorem onTimeArrivalMovesOn : Obligations.OnTimeArrivalMovesOn := by
  refine ⟨?_, ?_, ?_⟩
  · intro c n k x d s hk hclear hup hx hd hearly hlate hocc hunique segment hway lead expected
    have h : OnTime k c x d s := ⟨hk, hclear, hup, hx, hd, hearly, hlate, hocc, hunique⟩
    have hexec : exec (.leadingEdge c) s
        = .next ((s.arrivedAt k c x).enterQueue k x.id n (s.transport.count.get n.sec) segment).finish := by
      obtain ⟨t, rfl, rfl, rfl⟩ | ⟨rfl, rfl, rfl⟩ := hway
      · exact h.goesTo_only rfl rfl fun _ _ => rfl
      · exact h.goesTo_only rfl rfl fun _ _ => rfl
    have hne : c ≠ n := by
      obtain ⟨t, rfl, rfl, -⟩ | ⟨rfl, rfl, -⟩ := hway <;> exact fun hc => by cases hc
    refine ⟨_, hexec, sheets_after_arrival _ segment hunique, ?_, ?_, compares_after_arrival k c n x s _ segment,
      arrival_rest k c n x s _ segment⟩
    · rw [queues_after_arrival, PerCheckpoint.get_set_of_ne _ hne, PerCheckpoint.get_set_self]
      simp
    · rw [queues_after_arrival, PerCheckpoint.get_set_self]
      exact mem_queueWith _ n x.id
  · intro c k x d s hk hclear hup hx hd hearly hlate hocc hunique lead stuck updated arrived goesTo
    have h : OnTime k c x d s := ⟨hk, hclear, hup, hx, hd, hearly, hlate, hocc, hunique⟩
    refine ⟨?_, ?_, ?_, ?_, ?_, ?_⟩
    · rintro rfl
      exact ⟨fun hreturn => h.goesTo_only rfl (workAtMrg_return hreturn _) fun _ _ => rfl,
        fun hother => h.goesTo_only rfl (workAtMrg_other hother _) fun _ _ => rfl⟩
    · rintro rfl
      exact ⟨fun hpass hcheck => h.goesTo_only rfl (endSide2Check_pending ⟨hpass, hcheck⟩ _) fun _ _ => rfl,
        fun hother => h.goesTo_only rfl (endSide2Check_other hother _) fun _ _ => rfl⟩
    · rintro rfl
      intro abandoned w set
      refine ⟨fun hway => ?_, fun hway => ?_⟩
      · have hway := (towardInv_iff x).mpr hway
        exact h.goesTo_fus (workAtFus_way (if_pos hway) _) (if_pos hway)
      · have hway := (not_congr (towardInv_iff x)).mpr hway
        exact h.goesTo_fus (workAtFus_way (if_neg hway) _) (if_neg hway)
    · rintro rfl
      exact ⟨fun hcheck => h.goesTo_only rfl (workAtInv_checked hcheck _) fun _ _ => rfl,
        fun hother => h.goesTo_only rfl (workAtInv_other hother _) fun _ _ => rfl⟩
    · rintro rfl
      exact ⟨fun hpurge => h.goesTo rfl rfl h.found (route_mrk (provisionalDest_marked hpurge _)),
        fun m b hpurge hm hb => h.goesTo rfl rfl h.found (route_mrk (provisionalDest_bin hpurge hm hb))⟩
    · rintro t rfl w
      have hfound := findSheet_updSheet_self (f := fun r => { r with next := none, due := none }) (by intro; rfl) h.found
      refine ⟨fun hcommitted => ?_, fun huncommitted => ?_⟩
      · rw [h.goesTo_bin, checkCommitted_committed hfound hcommitted]
        rfl
      · rw [h.goesTo_bin, checkCommitted_uncommitted hfound huncommitted, pathFault_bin]
        rfl
  · intro k id n anchor segment s expected late
    refine ⟨s.queueWith n id, enterQueue_eq k id n anchor segment s, fun hn => if_neg hn, fun hn x hx => ?_⟩
    subst hn
    intro key
    rw [queueWith, if_pos rfl, keyOf_of_findSheet hx]
    obtain ⟨before, after, hl, hins, hbefore, hafter⟩ := insertByKey_place s id (mergeKey x) (s.track.queues.get .mrg)
    exact ⟨before, after, hl, hins, hbefore, hafter⟩

end Machine
end Sys2Proof
end

section
/-! PROOFS. Trailing edges (O35). -/

namespace Sys2Proof.Machine

open State

namespace State

section

variable {c : Checkpoint} {latch : PerSection Pos} {s : State} {k : Installed} {x : Sheet} {o : Occupancy}

/-! ## The occupancy ends (R104) -/

/-- The state in which the sheet has left the sensor of c (R104). -/
def occupancyEnded (c : Checkpoint) (x : Sheet) (s : State) : State :=
  ((s.fresh.setSensor c false).updSheet x.id fun r => { r with occ := r.occ.filter (·.at_ ≠ c) }).withdrawOwner
    (· == .stuck x.id c)

theorem matchTrailing_frozen (hk : s.config = some k) (hx : s.occupant c = some (x, o)) (hfrozen : x.state = .frozen) :
    s.matchTrailing c latch = s.pathFault .unexpected c (some x.order) latch := by
  simp only [matchTrailing, hk, hx, hfrozen, if_true]

theorem exec_trailingEdge_live (hk : s.config = some k) (hcovered : s.transport.sensors.get c = true)
    (hup : s.track.tracking.get c.sec = true) (hx : s.occupant c = some (x, o)) (hlive : x.state ≠ .frozen) :
    exec (.trailingEdge c) s
      = .next ((s.occupancyEnded c x).afterOccupancy k c x o s.transport.count).finish := by
  have hk' : (s.fresh.setSensor c false).config = some k := hk
  have hx' : (s.fresh.setSensor c false).occupant c = some (x, o) := hx
  rw [exec_trailingEdge_eq, trailingEdge_tracking hcovered hup]
  simp only [matchTrailing, hk', hx', if_neg hlive]
  rfl

/-! ## The length check (R105) -/

theorem lengthFaults_iff (c : Checkpoint) (x : Sheet) : lengthFaults c x = true ↔
    (c = .fus ∨ c = .inv ∨ c = .rtn ∨ c = .mrk ∨ (c = .mrg ∧ x.pass2 = true))
      ∧ x.purge ≠ some .multifeed ∧ x.purge ≠ some .shortSheet := by
  cases c <;> simp [lengthFaults, and_assoc]

theorem lengthOk_iff (k : Installed) (x : Sheet) (len : Nat) :
    lengthOk k x len = true ↔ ((len : Int) - ((k.block.trays.get x.tray).media : Int)).natAbs ≤ k.block.lengthTol :=
  decide_eq_true_iff

theorem afterOccupancy_reg_ok (h : lengthOk k x (posLength (latch.get Checkpoint.reg.sec) o.lead) = true) :
    s.afterOccupancy k .reg x o latch = s := by
  simp only [afterOccupancy, h, if_true]

theorem afterOccupancy_reg_fails (h : ¬lengthOk k x (posLength (latch.get Checkpoint.reg.sec) o.lead) = true) :
    s.afterOccupancy k .reg x o latch
      = s.giveMark x.id (if mediaOf k x < posLength (latch.get Checkpoint.reg.sec) o.lead then .multifeed else .shortSheet) := by
  simp only [afterOccupancy, if_true, if_neg h]

theorem afterOccupancy_fault (hfaults : lengthFaults c x = true)
    (hlen : ¬lengthOk k x (posLength (latch.get c.sec) o.lead) = true) :
    s.afterOccupancy k c x o latch = s.pathFault .length c (some x.order) latch := by
  have hreg : c ≠ .reg := by
    rintro rfl
    exact absurd hfaults (by simp [lengthFaults])
  simp only [afterOccupancy, if_neg hreg, hfaults, Bool.eq_false_iff.mpr hlen, Bool.not_false, Bool.and_self, if_true]

/-- A sheet of the right length, or one whose length is not judged, goes on as its checkpoint says. -/
theorem afterOccupancy_passes (hreg : c ≠ .reg)
    (hlen : ¬lengthFaults c x = true ∨ lengthOk k x (posLength (latch.get c.sec) o.lead) = true) :
    s.afterOccupancy k c x o latch
      = c.dest?.elim (if c = .mrk then s.commit k x o.lead else s) (s.settleSheet x) := by
  have hpass : ¬(lengthFaults c x && !lengthOk k x (posLength (latch.get c.sec) o.lead)) = true := by
    obtain hlen | hlen := hlen <;> simp [hlen]
  simp only [afterOccupancy, if_neg hreg, if_neg hpass]
  cases c.dest? <;> rfl

end

end State

/-- Settles O35. -/
theorem trailingEdges : Obligations.TrailingEdges := by
  refine ⟨fun c k x o s hk hcovered hup hx hlive => ?_, fun c k x o s hk hcovered hup hx hfrozen => ?_⟩
  · intro len media fits judged ended
    rw [exec_trailingEdge_live hk hcovered hup hx hlive]
    have hjudged : lengthFaults c x = true ↔ judged := lengthFaults_iff c x
    have hfits : lengthOk k x len = true ↔ fits := lengthOk_iff k x len
    refine ⟨fun hreg hmrk hdest hpass => ?_, fun hj hlen => ?_, ?_, ?_, ?_⟩
    · rw [afterOccupancy_passes hreg (hpass.imp (not_congr hjudged).mpr hfits.mpr)]
      simp only [hdest, Option.elim_none, if_neg hmrk]
      rfl
    · rw [afterOccupancy_fault (hjudged.mpr hj) ((not_congr hfits).mpr hlen)]
      rfl
    · rintro rfl hlen
      rw [afterOccupancy_reg_ok (hfits.mpr hlen)]
      rfl
    · rintro rfl hlen hlong
      rw [afterOccupancy_reg_fails ((not_congr hfits).mpr hlen), if_pos (by exact hlong)]
      rfl
    · rintro rfl hlen hshort
      rw [afterOccupancy_reg_fails ((not_congr hfits).mpr hlen), if_neg (by exact (Nat.lt_asymm hshort))]
      rfl
  · rw [exec_trailingEdge_eq, trailingEdge_tracking hcovered hup, matchTrailing_frozen (by exact hk) (by exact hx) hfrozen]
    rfl

end Sys2Proof.Machine
end

section
/-! PROOFS. Mailpieces: purging, opening and settlement (O48, O49). -/

namespace Sys2Proof.Machine

open State

namespace State

/-! ## Entering PURGING (R70, R71) -/

section

variable {s : State} {id : Nat} {why : Reason} {m : Mailpiece}

/-- The mailpiece purges, its sheets are marked and its places in the bin are given back (R71 steps 1 and 2). -/
def purgingBegun (s : State) (id : Nat) (why : Reason) (m : Mailpiece) : State :=
  ((s.updMp id fun r => { r with state := .purging, reason := some why }).markMailpieceSheets id).releaseReservation m

theorem enterPurging_gone (h : s.findMp id = none) : s.enterPurging id why = s := by
  simp only [enterPurging, h]

theorem enterPurging_kept (h : s.findMp id = some m) (hstate : ¬(m.state = .filling ∨ m.state = .launched)) :
    s.enterPurging id why = s := by
  simp only [enterPurging, h, if_neg hstate]

theorem enterPurging_begins (h : s.findMp id = some m) (hstate : m.state = .filling ∨ m.state = .launched) :
    s.enterPurging id why = (s.purgingBegun id why m).skipCandidate id := by
  simp only [enterPurging, h, if_pos hstate]
  rfl

theorem releaseReservation_eq (m : Mailpiece) (s : State) : s.releaseReservation m = { s with mail := { s.mail with
    bins := match m.bin with
      | none => s.mail.bins
      | some b => s.mail.bins.set b { s.mail.bins.get b with
          reserved := (s.mail.bins.get b).reserved - (m.sheetCount - m.committed) } } } := by
  unfold releaseReservation
  cases m.bin <;> rfl

/-- Whether the candidate belongs to mailpiece `id` and can be skipped (R71 step 3). -/
def candidateOf (s : State) (id : Nat) : Prop := s.currentMp.map (·.id) = some id ∧ s.ctl.state ≠ .stopping

theorem skipCandidate_its {c : Nat} (hc : s.launch.candidate = some c) (hits : s.candidateOf id) :
    s.skipCandidate id = ((s.setEntry c .passed .skipped (some .mailpiecePurging)).onLaunch
      fun u => { u with candidate := none }).countTaken id := by
  obtain ⟨cur, hcur, hid⟩ := Option.map_eq_some_iff.mp hits.1
  have hskip : cur.id = id ∧ s.ctl.state ≠ .stopping := ⟨hid, hits.2⟩
  simp only [skipCandidate, hc, hcur, if_pos hskip]

theorem skipCandidate_other (h : s.launch.candidate = none ∨ ¬s.candidateOf id) : s.skipCandidate id = s := by
  unfold skipCandidate
  split
  next c cur hc hcur =>
    obtain h | h := h
    · cases hc.symm.trans h
    · exact if_neg fun hits => h ⟨by rw [hcur, ← hits.1]; rfl, hits.2⟩
  · rfl

theorem currentMp_updMp {f : Mailpiece → Mailpiece} (hf : ∀ r, (f r).closed = r.closed) (i : Nat) (s : State) :
    (s.updMp i f).currentMp = s.currentMp.map fun r => if r.id = i then f r else r := by
  have hclosed : ∀ r : Mailpiece, (if r.id = i then f r else r).closed = r.closed := fun r => by split <;> simp [hf]
  simp only [currentMp, updMp, onMail, List.getLast?_map]
  cases s.mail.table.getLast? with
  | none => rfl
  | some r =>
    simp only [Option.map_some, hclosed]
    split <;> rfl

theorem candidateOf_purgingBegun (s : State) (id i : Nat) (why : Reason) (m : Mailpiece) :
    (s.purgingBegun id why m).candidateOf i ↔ s.candidateOf i := by
  have hcur : (s.purgingBegun id why m).currentMp.map (·.id) = s.currentMp.map (·.id) := by
    rw [purgingBegun, releaseReservation_eq]
    show ((s.updMp id _).currentMp).map _ = _
    rw [currentMp_updMp, Option.map_map]
    · congr 1
      funext r
      rw [Function.comp]
      split <;> rfl
    · exact fun _ => rfl
  have hctl : (s.purgingBegun id why m).ctl = s.ctl := by
    rw [purgingBegun, releaseReservation_eq]
    rfl
  rw [candidateOf, candidateOf, hcur, hctl]

end

/-! ## Purge marks (R106) -/

theorem giveMark_gone {s : State} {track : Nat} (h : s.findSheet track = none) (why : Reason) : s.giveMark track why = s := by
  simp only [giveMark, h]

theorem giveMark_kept {s : State} {track : Nat} {x : Sheet} (h : s.findSheet track = some x)
    (hkept : x.committed = true ∨ x.purge ≠ none) (why : Reason) : s.giveMark track why = s := by
  have hnot : ¬(x.committed = false ∧ x.purge = none) := fun hgive =>
    hkept.elim (fun hc => Bool.noConfusion (hc.symm.trans hgive.1)) fun hp => hp hgive.2
  simp only [giveMark, h, if_neg hnot]

theorem giveMark_given {s : State} {track : Nat} {x : Sheet} (h : s.findSheet track = some x) (hcommitted : x.committed = false)
    (hpurge : x.purge = none) (why : Reason) :
    s.giveMark track why = (s.updSheet track fun y => { y with purge := some why }).enterPurging x.mp why := by
  simp only [giveMark, h, if_pos (And.intro hcommitted hpurge)]

/-! ## OPEN (R57 to R59) -/

theorem mem_enabledBins {s : State} {k : Installed} (hk : s.config = some k) (mask : PerBin Bool) (b : Bin) :
    b ∈ s.enabledBins mask ↔ mask.get b = true ∧ (k.block.bins.get b).enabled = true := by
  have horder : b ∈ Bin.order := by cases b <;> decide
  simp [enabledBins, hk, horder]

theorem binCapacity_of_config {s : State} {k : Installed} (hk : s.config = some k) (b : Bin) :
    s.binCapacity b = (k.block.bins.get b).capacity := by
  simp only [binCapacity, hk]

section

variable {s : State} {w : OrderWords}

theorem openRefusal_badCount (h : ¬(1 ≤ w.w5.toNat ∧ w.w5.toNat ≤ 64)) : s.openRefusal w = some .badCount := by
  have hout : inRange 1 64 w.w5.toNat = false := by simpa [inRange] using h
  simp only [openRefusal, hout, Bool.not_false, if_true]

/-- Past the count, what is left is whether a bin is named and whether one of them is large enough. -/
theorem openRefusal_of_count (hlow : 1 ≤ w.w5.toNat) (hhigh : w.w5.toNat ≤ 64) : s.openRefusal w =
    if (s.enabledBins (binMaskOf w.w6)).isEmpty then some .noBin
    else if !(s.enabledBins (binMaskOf w.w6)).any (fun b => decide (w.w5.toNat ≤ s.binCapacity b)) then some .binImpossible
    else none := by
  have hin : inRange 1 64 w.w5.toNat = true := by simp [inRange, hlow, hhigh]
  simp only [openRefusal, hin, Bool.not_true, Bool.false_eq_true, if_false]

theorem openRefusal_noBin (hlow : 1 ≤ w.w5.toNat) (hhigh : w.w5.toNat ≤ 64) (h : ∀ b, b ∉ s.enabledBins (binMaskOf w.w6)) :
    s.openRefusal w = some .noBin := by
  rw [openRefusal_of_count hlow hhigh, if_pos (List.isEmpty_iff.mpr (List.eq_nil_iff_forall_not_mem.mpr h))]

theorem openRefusal_binImpossible (hlow : 1 ≤ w.w5.toNat) (hhigh : w.w5.toNat ≤ 64) {b : Bin}
    (hb : b ∈ s.enabledBins (binMaskOf w.w6)) (hsmall : ∀ b ∈ s.enabledBins (binMaskOf w.w6), s.binCapacity b < w.w5.toNat) :
    s.openRefusal w = some .binImpossible := by
  have hany : (s.enabledBins (binMaskOf w.w6)).any (fun b => decide (w.w5.toNat ≤ s.binCapacity b)) = false := by
    simpa using hsmall
  rw [openRefusal_of_count hlow hhigh, if_neg fun hnil => List.ne_nil_of_mem hb (List.isEmpty_iff.mp hnil), hany]
  rfl

theorem openRefusal_none (hlow : 1 ≤ w.w5.toNat) (hhigh : w.w5.toNat ≤ 64) {b : Bin}
    (hb : b ∈ s.enabledBins (binMaskOf w.w6)) (hlarge : w.w5.toNat ≤ s.binCapacity b) : s.openRefusal w = none := by
  have hany : (s.enabledBins (binMaskOf w.w6)).any (fun b => decide (w.w5.toNat ≤ s.binCapacity b)) = true :=
    List.any_eq_true.mpr ⟨b, hb, decide_eq_true hlarge⟩
  rw [openRefusal_of_count hlow hhigh, if_neg fun hnil => List.ne_nil_of_mem hb (List.isEmpty_iff.mp hnil), hany]
  rfl

end

section

variable {s : State} {e : Entry}

theorem takeOpen_refused (hcur : s.currentMp = none) {why : Reason} (h : s.openRefusal e.words = some why) :
    s.takeOpen e = s.setEntry e.id .settled .refused (some why) := by
  simp only [takeOpen, hcur, h]

theorem takeOpen_waits (hcur : s.currentMp = none) (h : s.openRefusal e.words = none) (hfull : 32 ≤ s.mail.table.length) :
    s.takeOpen e = s.onMail fun u => { u with waitingOpen := some e.id } := by
  have hroom : ¬s.tableHasRoom = true := fun hroom => Nat.not_le.mpr (of_decide_eq_true hroom) hfull
  simp only [takeOpen, hcur, h, if_neg hroom]

theorem takeOpen_accepted (hcur : s.currentMp = none) (h : s.openRefusal e.words = none) (hroom : s.mail.table.length < 32) :
    s.takeOpen e = s.acceptOpen e := by
  have hroom : s.tableHasRoom = true := decide_eq_true hroom
  simp only [takeOpen, hcur, h, if_pos hroom]

end

/-! ## Settlement (R73) -/

section

variable {m : Mailpiece} {jam : Bool} {s : State}

theorem mpSettles_iff : mpSettles jam m = true ↔ (m.state = .launched ∨ m.state = .purging) ∧ m.closed = true
    ∧ (jam = true ∨ m.interrupted = false) ∧ m.stacked + m.purged + m.lost = m.launched := by
  simp [mpSettles, and_assoc]

theorem mpOutcome_complete (h : m.stacked = m.sheetCount) : mpOutcome m = ⟨.complete, none⟩ := if_pos h

theorem mpOutcome_purged (h : m.stacked ≠ m.sheetCount) (hnone : m.stacked = 0) : mpOutcome m = ⟨.purged, m.reason⟩ := by
  rw [mpOutcome, if_neg h, if_pos hnone]

theorem mpOutcome_split (h : m.stacked ≠ m.sheetCount) (hsome : m.stacked ≠ 0) : mpOutcome m = ⟨.split, m.reason⟩ := by
  rw [mpOutcome, if_neg h, if_neg hsome]

theorem settleMp_settles (h : mpSettles jam m = true) : s.settleMp jam m =
    (s.updMp m.id fun r => { r with state := .settled }).setEntry m.openRef .settled (mpOutcome m).result
      (mpOutcome m).reason := if_pos h

theorem settleMp_kept (h : mpSettles jam m = false) : s.settleMp jam m = s := if_neg (Bool.eq_false_iff.mp h)

end

end State

/-- Settles O48. -/
theorem mailpieceOpeningAndSettlement : Obligations.MailpieceOpeningAndSettlement := by
  refine ⟨fun e k s hk hcur => ?_, fun m jam s => ⟨mpSettles_iff, mpOutcome_complete, mpOutcome_purged, mpOutcome_split,
    settleMp_settles, settleMp_kept⟩⟩
  intro n named refused
  have hnamed : ∀ b, b ∈ s.enabledBins (binMaskOf e.words.w6) ↔ named b := mem_enabledBins hk _
  refine ⟨fun hn => takeOpen_refused hcur (openRefusal_badCount hn), fun hlow hhigh hnone => ?_,
    fun hlow hhigh ⟨b, hb⟩ hsmall => ?_, fun b hlow hhigh hb hlarge hfull => ?_, fun b hlow hhigh hb hlarge hroom => ?_⟩
  · exact takeOpen_refused hcur (openRefusal_noBin hlow hhigh fun b hb => hnone b ((hnamed b).mp hb))
  · refine takeOpen_refused hcur (openRefusal_binImpossible hlow hhigh ((hnamed b).mpr hb) fun b hb => ?_)
    rw [binCapacity_of_config hk]
    exact hsmall b ((hnamed b).mp hb)
  · rw [← binCapacity_of_config hk] at hlarge
    exact takeOpen_waits hcur (openRefusal_none hlow hhigh ((hnamed b).mpr hb) hlarge) hfull
  · rw [← binCapacity_of_config hk] at hlarge
    exact takeOpen_accepted hcur (openRefusal_none hlow hhigh ((hnamed b).mpr hb) hlarge) hroom

/-- Settles O49. -/
theorem mailpiecePurging : Obligations.MailpiecePurging := by
  refine ⟨fun id why s => ⟨enterPurging_gone, fun m hm hstate => enterPurging_kept hm ?_, fun m hm hstate => ?_⟩,
    fun track why s => ⟨fun h => giveMark_gone h why, fun x hx hkept => giveMark_kept hx hkept why,
      fun x hx hcommitted hpurge => giveMark_given hx hcommitted hpurge why⟩,
    fun m s => ⟨fun h => ?_, fun h => ?_⟩⟩
  · obtain hstate | hstate := hstate <;> simp [hstate]
  · intro base itsCandidate
    have hbase : s.purgingBegun id why m = base := releaseReservation_eq m _
    have hits : base.candidateOf id ↔ itsCandidate := hbase ▸ candidateOf_purgingBegun s id id why m
    rw [enterPurging_begins hm hstate, hbase]
    refine ⟨fun c hc hcandidate => ?_, fun hother => skipCandidate_other (hother.imp_right (not_congr hits).mpr)⟩
    rw [skipCandidate_its (by exact hc) (hits.mpr hcandidate)]
    rfl
  · rw [closeShort, if_pos h]
    rfl
  · rw [closeShort, if_neg h]
    rfl

end Sys2Proof.Machine
end

section
/-! PROOFS. The commit at MRK (O37). -/

namespace Sys2Proof.Machine

open State

namespace State

/-! ## The states of the mailpieces through a purge -/

/-- Number, state and reason of every mailpiece on record. -/
def mpStates (s : State) : List (Nat × MpState × Option Reason) := s.mail.table.map fun r => (r.id, r.state, r.reason)

theorem mpStates_updMp {f : Mailpiece → Mailpiece} {g : Nat × MpState × Option Reason → Nat × MpState × Option Reason} {i : Nat}
    (h : ∀ r, r.id = i → ((f r).id, (f r).state, (f r).reason) = g (r.id, r.state, r.reason)) (s : State) :
    (s.updMp i f).mpStates = s.mpStates.map fun r => if r.1 = i then g r else r := by
  show (s.mail.table.map _).map _ = (s.mail.table.map _).map _
  rw [List.map_map, List.map_map]
  refine List.map_congr_left fun r _ => ?_
  rw [Function.comp, Function.comp]
  by_cases hr : r.id = i
  · rw [if_pos hr, if_pos hr, h r hr]
  · rw [if_neg hr, if_neg hr]

theorem mpStates_skipCandidate (i : Nat) (s : State) : (s.skipCandidate i).mpStates = s.mpStates := by
  unfold skipCandidate
  split
  · split
    · refine (mpStates_updMp (g := id) (by intros; rfl) _).trans ?_
      simp only [id, ite_self, List.map_id']
      rfl
    · rfl
  · rfl

theorem mpStates_purgingBegun (s : State) (i : Nat) (why : Reason) (m : Mailpiece) :
    (s.purgingBegun i why m).mpStates = s.mpStates.map fun r => if r.1 = i then (r.1, .purging, some why) else r := by
  rw [purgingBegun, releaseReservation_eq]
  exact mpStates_updMp (g := fun r => (r.1, .purging, some why)) (by intros; rfl) s

theorem findMp_of_unique {s : State} {i : Nat} {m : Mailpiece} (h : s.mail.table.filter (·.id = i) = [m]) :
    s.findMp i = some m := by
  rw [findMp, ← List.head?_filter]
  exact congrArg List.head? h

/-- The one record of a number purges, if it is still FILLING or LAUNCHED; every other record keeps state and reason. -/
theorem mpStates_enterPurging {s : State} {i : Nat} {m : Mailpiece} (h : s.findMp i = some m) (why : Reason) :
    (s.enterPurging i why).mpStates = s.mpStates.map fun r =>
      if r.1 = i ∧ (m.state = .filling ∨ m.state = .launched) then (r.1, .purging, some why) else r := by
  by_cases hstate : m.state = .filling ∨ m.state = .launched
  · rw [enterPurging_begins h hstate, mpStates_skipCandidate, mpStates_purgingBegun]
    simp only [hstate, and_true]
  · rw [enterPurging_kept h hstate]
    simp only [hstate, and_false, if_false, List.map_id']

/-! ## The destination (R117, R119) -/

section

variable {k : Installed} {m : Mailpiece} {x : Sheet} {s : State} {b : Bin}

theorem markCheckApplies_iff :
    markCheckApplies k m x = true ↔ (k.block.trays.get x.tray).markCheck = true ∧ m.markMask ≠ 0 := by
  simp [markCheckApplies]

theorem markFailure_unchecked (h : ¬markCheckApplies k m x = true) : markFailure k m x = none := if_neg h

theorem markFailure_missing (h : markCheckApplies k m x = true) (hmark : x.mark = .empty ∨ x.mark = .noRead) :
    markFailure k m x = some .markMissing := by
  obtain hmark | hmark := hmark <;> simp only [markFailure, h, hmark, if_true]

theorem markFailure_value (h : markCheckApplies k m x = true) {v : Word} (hmark : x.mark = .value v) :
    markFailure k m x = if markMatches m x v then none else some .markMismatch := by
  simp only [markFailure, h, hmark, if_true]

theorem chooseDest_marked (h : x.purge ≠ none) : chooseDest k s x = (.prg, none) := by
  obtain ⟨why, hwhy⟩ := Option.ne_none_iff_exists'.mp h
  simp only [chooseDest, hwhy]

theorem chooseDest_fails (hpurge : x.purge = none) (hm : s.findMp x.mp = some m) {why : Reason}
    (h : markFailure k m x = some why) : chooseDest k s x = (.prg, some why) := by
  simp only [chooseDest, hpurge, hm, h]

theorem chooseDest_bin (hpurge : x.purge = none) (hm : s.findMp x.mp = some m) (h : markFailure k m x = none)
    (hb : m.bin = some b) : chooseDest k s x = (.stk b, none) := by
  simp only [chooseDest, hpurge, hm, h, hb]

end

/-! ## The commit (R120) -/

section

variable (x : Sheet) (d : Dest) (failed : Option Reason) (s : State)

/-- The state in which the sheet has left MRK and its destination is on record (R120 steps 1 and 2). -/
def recordedAs : State :=
  ((s.occupancyEnded .mrk x).updSheet x.id fun y =>
    { y with dest := some d, committed := true, purge := failed.elim y.purge some }).onExit fun u => { u with diverter := d }

variable {x d failed s}

theorem recordedAs_eq : s.recordedAs x d failed = { s with
    out := []
    transport := { s.transport with
      sensors := s.transport.sensors.set .mrk false
      compares := s.transport.compares.filter fun q => q.owner != .stuck x.id .mrk }
    track := { s.track with sheets := s.track.sheets.map fun y =>
      if y.id = x.id then
        { y with
          occ := y.occ.filter (·.at_ ≠ .mrk), dest := some d, committed := true
          purge := failed.elim y.purge some }
      else y }
    exit := { s.exit with diverter := d } } := by
  have hmap : (s.recordedAs x d failed).track.sheets = s.track.sheets.map fun y =>
      if y.id = x.id then
        { y with
          occ := y.occ.filter (·.at_ ≠ .mrk), dest := some d, committed := true
          purge := failed.elim y.purge some }
      else y := by
    show (s.track.sheets.map _).map _ = _
    rw [List.map_map]
    refine List.map_congr_left fun y _ => ?_
    rw [Function.comp]
    by_cases hy : y.id = x.id
    · rw [if_pos hy, if_pos hy]
      exact (if_pos hy).symm
    · rw [if_neg hy, if_neg hy, if_neg hy]
  rw [← hmap]
  rfl

theorem moveToDest_stays {k : Installed} {anchor : Pos} (h : x.next = some d.checkpoint ∨ x.next = none) :
    s.moveToDest k x anchor d = s := by
  obtain h | h := h <;> simp only [moveToDest, h, if_true]

theorem moveToDest_moves {k : Installed} {anchor : Pos} {c : Checkpoint} (h : x.next = some c) (hc : c ≠ d.checkpoint) :
    s.moveToDest k x anchor d = (s.leaveQueue x.id c).enterQueue k x.id d.checkpoint anchor (segmentToDest k d) := by
  simp only [moveToDest, h, if_neg hc]

theorem tellCommit_passed : s.tellCommit x d none = { s with mail := { s.mail with table := s.mail.table.map fun r =>
    if r.id = x.mp ∧ d ≠ .prg then { r with committed := r.committed + 1 } else r } } := by
  cases d with
  | stk b =>
    simp only [ne_eq, reduceCtorEq, not_false_eq_true, and_true]
    rfl
  | prg =>
    simp only [ne_eq, not_true_eq_false, and_false, if_false, List.map_id']
    rfl

theorem commit_eq {k : Installed} {anchor : Pos} (h : chooseDest k (s.occupancyEnded .mrk x) x = (d, failed)) :
    (s.occupancyEnded .mrk x).commit k x anchor = ((s.recordedAs x d failed).moveToDest k x anchor d).tellCommit x d failed := by
  simp only [commit, h]
  cases failed <;> rfl

end

/-- A sheet under the sensor of MRK that is not frozen, has the right length or a mark that excuses it, and whose
mailpiece has its bin. -/
structure AtMrk (k : Installed) (x : Sheet) (m : Mailpiece) (b : Bin) (o : Occupancy) (s : State) : Prop where
  config : s.config = some k
  covered : s.transport.sensors.get .mrk = true
  up : s.track.tracking.down = true
  occ : s.occupant .mrk = some (x, o)
  live : x.state ≠ .frozen
  mailpiece : s.findMp x.mp = some m
  bin : m.bin = some b
  length : x.purge = some .multifeed ∨ x.purge = some .shortSheet
    ∨ ((posLength s.transport.count.down o.lead : Int) - ((k.block.trays.get x.tray).media : Int)).natAbs ≤ k.block.lengthTol

section

variable {k : Installed} {x : Sheet} {m : Mailpiece} {b : Bin} {o : Occupancy} {s : State} {d : Dest} {failed : Option Reason}

theorem AtMrk.exec_eq (h : AtMrk k x m b o s) (hdest : chooseDest k (s.occupancyEnded .mrk x) x = (d, failed)) :
    exec (.trailingEdge .mrk) s
      = .next (((s.recordedAs x d failed).moveToDest k x o.lead d).tellCommit x d failed).finish := by
  have hpass : ¬lengthFaults .mrk x = true ∨ lengthOk k x (posLength (s.transport.count.get Checkpoint.mrk.sec) o.lead) = true := by
    rw [lengthFaults_iff, lengthOk_iff]
    obtain hlen | hlen | hlen := h.length
    · exact .inl fun hf => hf.2.1 hlen
    · exact .inl fun hf => hf.2.2 hlen
    · exact .inr hlen
  rw [exec_trailingEdge_live h.config h.covered (by exact h.up) h.occ h.live, afterOccupancy_passes (by decide) hpass,
    ← commit_eq hdest]
  rfl

/-- What the rows of R119 choose for the sheet, with the purge reason a mark failure gives. -/
inductive Chosen (k : Installed) (x : Sheet) (m : Mailpiece) (b : Bin) : Dest → Option Reason → Prop
  | marked : x.purge ≠ none → Chosen k x m b .prg none
  | missing : x.purge = none → markCheckApplies k m x = true → x.mark = .empty ∨ x.mark = .noRead →
      Chosen k x m b .prg (some .markMissing)
  | mismatch (v : Word) : x.purge = none → markCheckApplies k m x = true → x.mark = .value v → markMatches m x v = false →
      Chosen k x m b .prg (some .markMismatch)
  | matching (v : Word) : x.purge = none → markCheckApplies k m x = true → x.mark = .value v → markMatches m x v = true →
      Chosen k x m b (.stk b) none
  | unchecked : x.purge = none → ¬markCheckApplies k m x = true → Chosen k x m b (.stk b) none

theorem Chosen.chooseDest_eq (hchosen : Chosen k x m b d failed) (hm : s.findMp x.mp = some m) (hb : m.bin = some b) :
    chooseDest k s x = (d, failed) := by
  cases hchosen with
  | marked h => exact chooseDest_marked h
  | missing h happ hmark => exact chooseDest_fails h hm (markFailure_missing happ hmark)
  | mismatch v h happ hmark hval =>
    exact chooseDest_fails h hm ((markFailure_value happ hmark).trans (if_neg (Bool.eq_false_iff.mp hval)))
  | matching v h happ hmark hval => exact chooseDest_bin h hm ((markFailure_value happ hmark).trans (if_pos hval)) hb
  | unchecked h happ => exact chooseDest_bin h hm (markFailure_unchecked happ) hb

theorem AtMrk.exec_chosen (h : AtMrk k x m b o s) (hchosen : Chosen k x m b d failed) :
    exec (.trailingEdge .mrk) s
      = .next (((s.recordedAs x d failed).moveToDest k x o.lead d).tellCommit x d failed).finish :=
  h.exec_eq (hchosen.chooseDest_eq (by exact h.mailpiece) h.bin)

/-! ## What is on record after the commit -/

/-- A committed record of sheet `i` with destination d and purge reason p. -/
def CommittedTo (i : Nat) (d : Dest) (p : Option Reason) (s : State) : Prop :=
  ∃ y ∈ s.track.sheets, y.id = i ∧ y.dest = some d ∧ y.committed = true ∧ y.purge = p

variable {i : Nat} {p : Option Reason} {t : State}

theorem CommittedTo.map {f : Sheet → Sheet} (h : CommittedTo i d p s) (ht : t.track.sheets = s.track.sheets.map f)
    (hf : ∀ y, y.committed = true →
      (f y).id = y.id ∧ (f y).dest = y.dest ∧ (f y).committed = true ∧ (f y).purge = y.purge) : CommittedTo i d p t := by
  obtain ⟨y, hy, hid, hdest, hcommitted, hpurge⟩ := h
  obtain ⟨fid, fdest, fcommitted, fpurge⟩ := hf y hcommitted
  exact ⟨f y, ht ▸ List.mem_map_of_mem hy, fid.trans hid, fdest.trans hdest, fcommitted, fpurge.trans hpurge⟩

theorem committedTo_recordedAs (hx : x ∈ s.track.sheets) :
    CommittedTo x.id d (failed.elim x.purge some) (s.recordedAs x d failed) := by
  rw [recordedAs_eq]
  exact ⟨_, List.mem_map_of_mem hx, by rw [if_pos rfl], by rw [if_pos rfl], by rw [if_pos rfl], by rw [if_pos rfl]⟩

theorem CommittedTo.moveToDest (h : CommittedTo i d p s) (anchor : Pos) (e : Dest) :
    CommittedTo i d p (s.moveToDest k x anchor e) := by
  unfold State.moveToDest
  split
  · split
    · exact h
    · rw [enterQueue_eq]
      refine h.map rfl fun y hy => ?_
      split
      · exact ⟨rfl, rfl, hy, rfl⟩
      · exact ⟨rfl, rfl, hy, rfl⟩
  · exact h

theorem CommittedTo.enterPurging (h : CommittedTo i d p s) (j : Nat) (why : Reason) :
    CommittedTo i d p (s.enterPurging j why) := by
  unfold State.enterPurging
  split
  · exact h
  · split
    · refine h.map (f := fun y => if y.mp = j ∧ y.committed = false ∧ y.purge = none then { y with purge := some .mailpiece } else y)
        (by simp [markMailpieceSheets, updMp]) fun y hy => ?_
      rw [if_neg fun hmark => Bool.noConfusion (hy.symm.trans hmark.2.1)]
      exact ⟨rfl, rfl, hy, rfl⟩
    · exact h

theorem CommittedTo.tellCommit (h : CommittedTo i d p s) (e : Dest) (f : Option Reason) :
    CommittedTo i d p (s.tellCommit x e f) := by
  cases f with
  | some why => exact h.enterPurging x.mp why
  | none =>
    rw [tellCommit_passed]
    exact h

/-- What the Mailpiece Unit records at the commit (R66, R121). -/
theorem told_of_commit {w : State} (hm : w.findMp x.mp = some m) :
    (failed = none → w.tellCommit x d failed = { w with mail := { w.mail with table := w.mail.table.map fun r =>
      if r.id = x.mp ∧ d ≠ .prg then { r with committed := r.committed + 1 } else r } })
    ∧ ∀ why, failed = some why → w.tellCommit x d failed = w.enterPurging x.mp why
      ∧ (w.tellCommit x d failed).mpStates = w.mail.table.map fun r =>
          if r.id = x.mp ∧ (m.state = .filling ∨ m.state = .launched) then (r.id, .purging, some why)
          else (r.id, r.state, r.reason) := by
  refine ⟨?_, ?_⟩
  · rintro rfl
    exact tellCommit_passed
  · rintro why rfl
    refine ⟨rfl, (mpStates_enterPurging hm why).trans ?_⟩
    rw [mpStates, List.map_map]
    rfl

theorem mail_beforeTold (anchor : Pos) : ((s.recordedAs x d failed).moveToDest k x anchor d).mail = s.mail := by
  simp only [moveToDest_frame]
  rfl

/-- After a mark failure no record of the mailpiece is still FILLING or LAUNCHED. -/
theorem not_filling_of_mpStates {u : State} {j : Nat} {why : Reason} {r : Mailpiece} {table : List Mailpiece}
    (hmp : table.filter (·.id = j) = [m])
    (hstates : u.mpStates = table.map fun r =>
      if r.id = j ∧ (m.state = .filling ∨ m.state = .launched) then (r.id, .purging, some why)
      else (r.id, r.state, r.reason))
    (hr : r ∈ u.mail.table) (hid : r.id = j) : r.state ≠ .filling ∧ r.state ≠ .launched := by
  have hmem : (r.id, r.state, r.reason) ∈ u.mpStates := List.mem_map_of_mem hr
  rw [hstates] at hmem
  obtain ⟨q, hq, hqr⟩ := List.mem_map.mp hmem
  split at hqr
  next =>
    have hstate : r.state = .purging := (congrArg (·.2.1) hqr).symm
    simp [hstate]
  next hnot =>
    have hqid : q.id = j := (congrArg (·.1) hqr).trans hid
    have hqm : q ∈ table.filter (·.id = j) := List.mem_filter.mpr ⟨hq, decide_eq_true hqid⟩
    rw [hmp] at hqm
    cases List.mem_singleton.mp hqm
    have hstate : r.state = m.state := (congrArg (·.2.1) hqr).symm
    rw [hstate]
    exact not_or.mp fun h => hnot ⟨hqid, h⟩

end

end State

/-- Settles O37: row by row of R119, with what the commit records shown once for all rows. -/
theorem mrkTrailingEdgeCommits : Obligations.MrkTrailingEdgeCommits := by
  refine ⟨?_, ?_⟩
  · intro k x m b o s hk hcovered hup hx hlive hmp hb hunique hlen checked outcome
    have h : AtMrk k x m b o s := ⟨hk, hcovered, hup, hx, hlive, findMp_of_unique hmp, hb, hlen⟩
    have hoccurs : ∀ d failed p, Chosen k x m b d failed → failed.elim x.purge some = p → outcome d p failed := by
      rintro d failed p hchosen rfl
      have hmail := s.mail_beforeTold (x := x) (d := d) (failed := failed) (k := k) o.lead
      have hm : ((s.recordedAs x d failed).moveToDest k x o.lead d).findMp x.mp = some m := by
        rw [findMp, hmail]
        exact h.mailpiece
      obtain ⟨hpassed, hfailed⟩ := told_of_commit (d := d) (failed := failed) hm
      have hmem : x ∈ s.track.sheets := (List.mem_filter.mp (hunique ▸ List.mem_singleton_self x)).1
      refine ⟨_, h.exec_chosen hchosen, ?_, ((committedTo_recordedAs hmem).moveToDest o.lead d).tellCommit d failed,
        fun hnone => ?_, fun why r hwhy hr hid => ?_, ?_⟩
      · simp only [tellCommit_frame, moveToDest_frame]
        rfl
      · rw [hpassed hnone, hmail]
      · have hstates := (hfailed why hwhy).2
        rw [hmail] at hstates
        exact not_filling_of_mpStates hmp hstates hr hid
      · simp only [tellCommit_frame, moveToDest_frame]
        exact ⟨rfl, rfl, rfl, rfl, rfl, rfl, rfl, rfl⟩
    exact ⟨fun why hwhy => hoccurs _ _ _ (.marked (by simp [hwhy])) hwhy,
      fun hpurge hcheck hmark => hoccurs _ _ _ (.missing hpurge (markCheckApplies_iff.mpr hcheck) hmark) rfl,
      fun v hpurge hcheck hmark hval => hoccurs _ _ _ (.mismatch v hpurge (markCheckApplies_iff.mpr hcheck) hmark hval) rfl,
      fun v hpurge hcheck hmark hval => hoccurs _ _ _ (.matching v hpurge (markCheckApplies_iff.mpr hcheck) hmark hval) hpurge,
      fun hpurge hcheck => hoccurs _ _ _ (.unchecked hpurge ((not_congr markCheckApplies_iff).mpr hcheck)) hpurge⟩
  · intro k x m b o s hk hcovered hup hx hlive hmp hb hlen checked segment recorded moved told commits
    have h : AtMrk k x m b o s := ⟨hk, hcovered, hup, hx, hlive, findMp_of_unique hmp, hb, hlen⟩
    have htold : ∀ d failed w, Chosen k x m b d failed → (s.recordedAs x d failed).moveToDest k x o.lead d = w →
        told d failed w := by
      rintro d failed w hchosen rfl
      have hmail := s.mail_beforeTold (x := x) (d := d) (failed := failed) (k := k) o.lead
      have hm : ((s.recordedAs x d failed).moveToDest k x o.lead d).findMp x.mp = some m := by
        rw [findMp, hmail]
        exact h.mailpiece
      obtain ⟨hpassed, hfailed⟩ := told_of_commit (d := d) (failed := failed) hm
      rw [hmail] at hfailed
      exact ⟨_, h.exec_chosen hchosen, hpassed, hfailed⟩
    have hrecorded : ∀ d failed, s.recordedAs x d failed = recorded d failed := fun d failed => recordedAs_eq
    have hcommits : ∀ d failed, Chosen k x m b d failed → commits d failed := by
      refine fun d failed hchosen => ⟨fun hnext => htold d failed _ hchosen ?_, fun c hnext hc => htold d failed _ hchosen ?_⟩
      · rw [moveToDest_stays hnext, hrecorded]
      · rw [moveToDest_moves hnext hc, hrecorded]
        cases d <;> rfl
    exact ⟨fun hpurge => hcommits _ _ (.marked hpurge),
      fun hpurge hcheck hmark => hcommits _ _ (.missing hpurge (markCheckApplies_iff.mpr hcheck) hmark),
      fun v hpurge hcheck hmark hval => hcommits _ _ (.mismatch v hpurge (markCheckApplies_iff.mpr hcheck) hmark hval),
      fun v hpurge hcheck hmark hval => hcommits _ _ (.matching v hpurge (markCheckApplies_iff.mpr hcheck) hmark hval),
      fun hpurge hcheck => hcommits _ _ (.unchecked hpurge ((not_congr markCheckApplies_iff).mpr hcheck))⟩

end Sys2Proof.Machine
end

section
/-! PROOFS. A sheet settles in its bin (O38). -/

namespace Sys2Proof.Machine

open State

namespace State

/-! ## The settlement of a sheet (R124, R125) -/

/-- The Mailpiece Unit and the Retire Unit count the sheet. -/
def settlementCounted (x : Sheet) (d : Dest) (s : State) : State :=
  match d with
  | .stk b => (s.reportStacked x.mp b).onRetire fun u => { u with stacked := u.stacked + 1 }
  | .prg => (s.reportPurged x.mp).onRetire fun u => { u with purged := u.purged + 1 }

/-- The state in which the sheet has settled and its record is free (R125 steps 1 and 2). -/
def sheetSettled (x : Sheet) (d : Dest) (s : State) : State :=
  ((s.settlementCounted x d).settleSheetOrder x d).freeSheet x.id

theorem settleSheet_eq (x : Sheet) (d : Dest) (s : State) :
    s.settleSheet x d = (s.sheetSettled x d).afterSettlement s.mail.purgeFull := rfl

/-! ## Its order (R125 step 1) -/

/-- The draft of a sheet that settles in a bin. -/
def binDraft (x : Sheet) (d : Dest) : Draft := if d = .prg then ⟨.purged, x.purge⟩ else ⟨.stacked, none⟩

/-- The summary of the outermost CALL with that settlement counted. -/
def binCounted (d : Dest) (a : Summary) : Summary :=
  if d = .prg then { a with purged := a.purged + 1 } else { a with stacked := a.stacked + 1 }

theorem settleSheetOrder_eq (x : Sheet) (d : Dest) (s : State) : s.settleSheetOrder x d =
    (s.setEntry x.order .settled (binDraft x d).result (binDraft x d).reason).sumIntoCaller x.order (binCounted d) := by
  cases d <;> rfl

theorem caller_setEntry (o i : Nat) (st : EntryState) (r : Result) (why : Option Reason) (s : State) :
    ((s.setEntry i st r why).findEntry o).bind (·.caller) = (s.findEntry o).bind (·.caller) := by
  have hid : ∀ e : Entry, (if e.id = i then { e with state := st, draft := some ⟨r, why⟩ } else e).id = e.id :=
    fun e => by split <;> rfl
  show ((s.fetch.window.map _).find? _).bind _ = _
  rw [List.find?_map]
  simp only [Function.comp_def, hid, Option.bind_map]
  rw [findEntry]
  congr 1
  funext e
  split <;> rfl

theorem sumIntoCaller_eq (o : Nat) (f : Summary → Summary) (s : State) :
    s.sumIntoCaller o f = { s with fetch := { s.fetch with window := s.fetch.window.map fun e =>
      { e with summary := if (s.findEntry o).bind (·.caller) = some e.id then f e.summary else e.summary } } } := by
  unfold sumIntoCaller
  cases (s.findEntry o).bind (·.caller) with
  | none =>
    simp only [reduceCtorEq, if_false, List.map_id']
  | some c =>
    have hmap : (s.updEntry c fun e => { e with summary := f e.summary }).fetch.window
        = s.fetch.window.map fun e => { e with summary := if some c = some e.id then f e.summary else e.summary } := by
      refine List.map_congr_left fun e _ => ?_
      by_cases h : e.id = c
      · rw [if_pos h, if_pos (congrArg some h.symm)]
      · rw [if_neg h, if_neg fun hc => h (Option.some.inj hc).symm]
    dsimp only
    rw [← hmap]
    rfl

/-- An order settles, and its settlement is counted in the outermost CALL (R130). -/
theorem setEntry_sumIntoCaller (o : Nat) (r : Result) (why : Option Reason) (f : Summary → Summary) (s : State) :
    (s.setEntry o .settled r why).sumIntoCaller o f = { s with fetch := { s.fetch with window := s.fetch.window.map fun e =>
      { e with
        state := if e.id = o then .settled else e.state
        draft := if e.id = o then some ⟨r, why⟩ else e.draft
        summary := if (s.findEntry o).bind (·.caller) = some e.id then f e.summary else e.summary } } } := by
  have hmap : ((s.setEntry o .settled r why).fetch.window.map fun e : Entry =>
      { e with summary := if (s.findEntry o).bind (·.caller) = some e.id then f e.summary else e.summary })
      = s.fetch.window.map fun e =>
        { e with
          state := if e.id = o then .settled else e.state
          draft := if e.id = o then some ⟨r, why⟩ else e.draft
          summary := if (s.findEntry o).bind (·.caller) = some e.id then f e.summary else e.summary } := by
    refine (List.map_map ..).trans (List.map_congr_left fun e _ => ?_)
    rw [Function.comp]
    by_cases h : e.id = o <;> simp only [h, if_true, if_false]
  rw [sumIntoCaller_eq, caller_setEntry, hmap]
  rfl

theorem settleSheetOrder_fetch (x : Sheet) (d : Dest) (s : State) : (s.settleSheetOrder x d).fetch =
    { s.fetch with window := s.fetch.window.map fun e =>
      { e with
        state := if e.id = x.order then .settled else e.state
        draft := if e.id = x.order then some (binDraft x d) else e.draft
        summary := if (s.findEntry x.order).bind (·.caller) = some e.id then binCounted d e.summary else e.summary } } := by
  rw [settleSheetOrder_eq, setEntry_sumIntoCaller]

/-! ## The record is freed -/

theorem settlementCounted_frame (x : Sheet) (d : Dest) (s : State) :
    (s.settlementCounted x d).track = s.track ∧ (s.settlementCounted x d).fetch = s.fetch
    ∧ (s.settlementCounted x d).clock = s.clock ∧ (s.settlementCounted x d).exit = s.exit
    ∧ (s.settlementCounted x d).jam = s.jam ∧ (s.settlementCounted x d).mem = s.mem
    ∧ (s.settlementCounted x d).launch = s.launch ∧ (s.settlementCounted x d).config = s.config
    ∧ (s.settlementCounted x d).out = s.out := by
  cases d <;> simp [settlementCounted]

theorem sheetSettled_sheets (x : Sheet) (d : Dest) (s : State) :
    (s.sheetSettled x d).track.sheets = s.track.sheets.filter (·.id ≠ x.id) := by
  have htrack : ((s.settlementCounted x d).settleSheetOrder x d).track = s.track := by
    simp only [settleSheetOrder_frame, settlementCounted_frame]
  show List.filter _ ((s.settlementCounted x d).settleSheetOrder x d).track.sheets = _
  rw [htrack]

theorem filter_map_updated {l : List Sheet} {i : Nat} {f : Sheet → Sheet} (hf : ∀ y, (f y).id = y.id) :
    (l.map fun y => if y.id = i then f y else y).filter (·.id ≠ i) = l.filter (·.id ≠ i) := by
  induction l with
  | nil => rfl
  | cons y rest ih =>
    rw [List.map_cons]
    by_cases hy : y.id = i
    · rw [if_pos hy, List.filter_cons_of_neg (by simp [hf, hy]), List.filter_cons_of_neg (by simp [hy]), ih]
    · rw [if_neg hy, List.filter_cons_of_pos (by simp [hy]), List.filter_cons_of_pos (by simp [hy]), ih]

theorem occupancyEnded_others (c : Checkpoint) (x : Sheet) (s : State) :
    (s.occupancyEnded c x).track.sheets.filter (·.id ≠ x.id) = s.track.sheets.filter (·.id ≠ x.id) :=
  filter_map_updated (f := fun r => { r with occ := r.occ.filter (·.at_ ≠ c) }) (fun _ => rfl)

/-- What the settlement of a sheet leaves as it was. -/
theorem sheetSettled_frame (x : Sheet) (d : Dest) (s : State) :
    (s.sheetSettled x d).clock = s.clock ∧ (s.sheetSettled x d).exit = s.exit
    ∧ (s.sheetSettled x d).jam = s.jam ∧ (s.sheetSettled x d).mem = s.mem
    ∧ (s.sheetSettled x d).launch = s.launch ∧ (s.sheetSettled x d).config = s.config
    ∧ (s.sheetSettled x d).out = s.out := by
  simp [sheetSettled, settlementCounted_frame]

theorem sheetSettled_fetch (x : Sheet) (d : Dest) (s : State) : (s.sheetSettled x d).fetch = (s.settleSheetOrder x d).fetch := by
  have hfetch : (s.settlementCounted x d).fetch = s.fetch := (settlementCounted_frame x d s).2.1
  have hfind : (s.settlementCounted x d).findEntry x.order = s.findEntry x.order := by rw [findEntry, hfetch, findEntry]
  show ((s.settlementCounted x d).settleSheetOrder x d).fetch = _
  rw [settleSheetOrder_fetch, settleSheetOrder_fetch, hfetch, hfind]

/-- The counts of the sheet's bin, its mailpiece and the run, as they are counted before its order settles. -/
theorem sheetSettled_counts (x : Sheet) (d : Dest) (s : State) :
    (s.sheetSettled x d).mail = (s.settlementCounted x d).mail ∧ (s.sheetSettled x d).retire = (s.settlementCounted x d).retire
    ∧ (s.sheetSettled x d).ctl = (s.settlementCounted x d).ctl := by
  simp [sheetSettled]

/-! ## The counts of the purge bin (R68) -/

theorem countPurge_eq (s : State) : ∃ n i, s.countPurge = { s with mail := { s.mail with purgeCount := n }, freeIndex := i }
    ∧ (s.mail.purgeCount.toNat < 4294967295 → n = s.mail.purgeCount + 1) := by
  unfold countPurge
  split
  next h =>
    refine ⟨_, _, rfl, fun hlt => ?_⟩
    rw [h] at hlt
    exact absurd hlt (by decide)
  · exact ⟨_, _, rfl, fun _ => rfl⟩

theorem purgeFullNow_iff {s : State} {k : Installed} (hk : s.config = some k) :
    s.purgeFullNow = decide (k.block.purgeCapacity ≤ s.mail.purgeCount.toNat) := by
  simp only [purgeFullNow, hk]

theorem reportPurged_eq (m : Nat) {s : State} {k : Installed} (hk : s.config = some k) : ∃ n i,
    s.reportPurged m = { s with
      mail := { s.mail with
        purgeCount := n, purgeFull := decide (k.block.purgeCapacity ≤ n.toNat)
        table := s.mail.table.map fun r => if r.id = m then { r with purged := r.purged + 1 } else r }
      ctl := { s.ctl with attn :=
        (if (decide (k.block.purgeCapacity ≤ n.toNat)) = true ∧ s.mail.purgeFull = false then s.ctl.attn ||| 0x100
          else s.ctl.attn) }
      freeIndex := i }
    ∧ (s.mail.purgeCount.toNat < 4294967295 → n = s.mail.purgeCount + 1) := by
  obtain ⟨n, i, hcount, hn⟩ := countPurge_eq (s.updMp m fun r => { r with purged := r.purged + 1 })
  refine ⟨n, i, ?_, hn⟩
  rw [reportPurged, hcount, reevaluatePurgeFull_eq, purgeFullNow_iff (k := k) (by exact hk)]
  rfl

end State

theorem exec_trailingEdge_bin {d : Dest} {k : Installed} {x : Sheet} {o : Occupancy} {s : State} (hk : s.config = some k)
    (hcovered : s.transport.sensors.get d.checkpoint = true) (hup : s.track.tracking.down = true)
    (hx : s.occupant d.checkpoint = some (x, o)) (hlive : x.state ≠ .frozen) :
    exec (.trailingEdge d.checkpoint) s
      = .next ((((s.occupancyEnded d.checkpoint x).sheetSettled x d).afterSettlement s.mail.purgeFull).finish) := by
  have hsec : d.checkpoint.sec = .down := by cases d <;> rfl
  have hreg : d.checkpoint ≠ .reg := by cases d <;> exact fun h => by cases h
  have hjudged : ¬lengthFaults d.checkpoint x = true := by cases d <;> exact Bool.false_ne_true
  rw [exec_trailingEdge_live hk hcovered (by rw [hsec]; exact hup) hx hlive, afterOccupancy_passes hreg (.inl hjudged),
    dest?_checkpoint]
  rfl

/-- Settles O38: the state in which the sheet has settled, field by field. -/
theorem binTrailingEdgeSettles : Obligations.BinTrailingEdgeSettles := by
  refine ⟨fun d k x o s hk hcovered hup hx hlive => ?_, fun d k x o s hk hcovered hup hx hlive => ?_⟩
  · intro draft
    obtain ⟨hmail, hretire, hctl⟩ := sheetSettled_counts x d (s.occupancyEnded d.checkpoint x)
    refine ⟨_, exec_trailingEdge_bin hk hcovered hup hx hlive, ?_, ?_, fun b hb => ?_, fun hprg => ?_,
      sheetSettled_frame x d (s.occupancyEnded d.checkpoint x)⟩
    · rw [sheetSettled_sheets, occupancyEnded_others]
    · rw [sheetSettled_fetch, settleSheetOrder_fetch]
      refine (List.map_map ..).trans (List.map_congr_left fun e _ => ?_)
      rw [Function.comp]
      split <;> rfl
    · subst hb
      rw [hmail, hretire, hctl]
      exact ⟨rfl, rfl, rfl⟩
    · subst hprg
      obtain ⟨n, i, hpurged, hn⟩ := reportPurged_eq x.mp (s := s.occupancyEnded Dest.prg.checkpoint x) hk
      rw [hmail, hretire, hctl]
      simp only [settlementCounted, hpurged]
      exact ⟨rfl, rfl, hn, rfl, rfl⟩
  · intro draft outermost counted
    refine ⟨_, exec_trailingEdge_bin hk hcovered hup hx hlive, ?_⟩
    rw [sheetSettled_fetch, settleSheetOrder_fetch]
    rfl

end Sys2Proof.Machine
end

section
/-! PROOFS. Samples and the run-up timer (O39, O40, O41). -/

namespace Sys2Proof

theorem PerSection.get_map {α β : Type} (f : α → β) (p : PerSection α) (x : Section) : (p.map f).get x = f (p.get x) := by
  cases x <;> rfl

namespace Machine

open State

namespace State

/-! ## Speeds and their classes (R13) -/

/-- The travel of a section since its reference. -/
def speedOf (s : State) (x : Section) : Nat := posLength (s.transport.count.get x) (s.transport.ref.get x)

theorem speedClasses_get (b : ConfigBlock) (s : State) (x : Section) :
    (s.speedClasses b).get x = speedClass b (s.speedOf x) := by
  rw [speedClasses, PerSection.get_map, speeds, PerSection.get_of, speedOf]

theorem speedClass_belowFloor_iff (b : ConfigBlock) (v : Nat) : speedClass b v = .belowFloor ↔ v < b.floor ∨ v = 0 := by
  unfold speedClass
  split
  next h => simp [h]
  next h => split <;> simp [h]

theorem speedClass_inBand_iff (b : ConfigBlock) (v : Nat) : speedClass b v = .inBand ↔
    b.floor ≤ v ∧ v ≠ 0 ∧ b.nominal - b.band ≤ v ∧ v ≤ b.nominal + b.band := by
  unfold speedClass
  split
  next h => simp; omega
  next h => split <;> simp <;> omega

theorem nextBelow_speedClass (b : ConfigBlock) (old v : Nat) :
    nextBelow old (speedClass b v) = if v < b.floor ∨ v = 0 then min 2 (old + 1) else 0 := by
  by_cases h : v < b.floor ∨ v = 0
  · rw [if_pos h, (speedClass_belowFloor_iff b v).mpr h]
    rfl
  · rw [if_neg h]
    cases hclass : speedClass b v with
    | belowFloor => exact absurd ((speedClass_belowFloor_iff b v).mp hclass) h
    | inBand | deviating => rfl

/-- The below-floor counts after a sample (R13). -/
def belowAfter (b : ConfigBlock) (s : State) : PerSection Nat :=
  .of fun x => if s.speedOf x < b.floor ∨ s.speedOf x = 0 then min 2 (s.transport.below.get x + 1) else 0

theorem takeSample_eq (b : ConfigBlock) (s : State) : s.takeSample b = { s with transport := { s.transport with
    ref := s.transport.count, below := s.belowAfter b, samplePeriod := some b.samplePeriod } } := by
  simp only [takeSample, speedClasses_get, nextBelow_speedClass]
  rfl

/-! ## A sample in RUN-UP (R11) -/

/-- The speed of a section lies in the band. -/
def InBandAt (b : ConfigBlock) (s : State) (x : Section) : Prop :=
  b.floor ≤ s.speedOf x ∧ s.speedOf x ≠ 0 ∧ b.nominal - b.band ≤ s.speedOf x ∧ s.speedOf x ≤ b.nominal + b.band

theorem allGood_iff (b : ConfigBlock) (s : State) :
    ((s.speedClasses b).get .up == .inBand && (s.speedClasses b).get .loop == .inBand
      && (s.speedClasses b).get .down == .inBand) = true ↔ s.InBandAt b .up ∧ s.InBandAt b .loop ∧ s.InBandAt b .down := by
  simp only [Bool.and_eq_true, beq_iff_eq, speedClasses_get, speedClass_inBand_iff, InBandAt, and_assoc]

/-- A sample taken, with the number of all-in-band samples in a row. -/
def sampledWith (b : ConfigBlock) (n : Nat) (s : State) : State := { s with transport := { s.transport with
  ref := s.transport.count, allInBand := n, samplePeriod := some b.samplePeriod, below := s.belowAfter b } }

theorem sampleRunUp_good {b : ConfigBlock} {s : State} (h : s.InBandAt b .up ∧ s.InBandAt b .loop ∧ s.InBandAt b .down) :
    s.sampleRunUp b = if s.transport.allInBand + 1 = 3 then (s.sampledWith b (s.transport.allInBand + 1)).enterAtSpeed
      else s.sampledWith b (s.transport.allInBand + 1) := by
  simp only [sampleRunUp, (allGood_iff b s).mpr h, if_true, takeSample_eq]
  rfl

theorem sampleRunUp_bad {b : ConfigBlock} {s : State} (h : ¬(s.InBandAt b .up ∧ s.InBandAt b .loop ∧ s.InBandAt b .down)) :
    s.sampleRunUp b = s.sampledWith b 0 := by
  simp only [sampleRunUp, if_neg ((not_congr (allGood_iff b s)).mpr h), takeSample_eq]
  exact if_neg (by decide)

theorem enterAtSpeed_eq {k : Installed} {s : State} (hk : s.config = some k) : s.enterAtSpeed =
    launchDecision (registerCompare .boundary .up (posAdd s.transport.count.up k.block.pitchLength)
      { s with
        transport := { s.transport with state := .atSpeed, runUpTimer := none }
        clock := { s.clock with running := true, pitch := 0, boundary := s.transport.count.up, lastFinal := none } }) := by
  have hlength : s.pitchLength = k.block.pitchLength := by simp only [pitchLength, hk]
  rw [← hlength]
  rfl

/-! ## A sample in AT-SPEED (R14) -/

/-- A running section that is not in the band. -/
def OffAt (b : ConfigBlock) (s : State) (x : Section) : Prop := s.transport.run.get x = true
  ∧ ((s.speedOf x < b.floor ∨ s.speedOf x = 0) ∨ s.speedOf x < b.nominal - b.band ∨ b.nominal + b.band < s.speedOf x)

theorem off_iff (b : ConfigBlock) (s : State) (x : Section) :
    (s.transport.run.get x && (s.speedClasses b).get x != .inBand) = true ↔ s.OffAt b x := by
  rw [Bool.and_eq_true, bne_iff_ne, ne_eq, speedClasses_get, speedClass_inBand_iff, OffAt]
  refine and_congr_right fun _ => ?_
  omega

theorem anyOff_iff (b : ConfigBlock) (s : State) :
    (((s.transport.run.get .up && (s.speedClasses b).get .up != .inBand)
      || (s.transport.run.get .loop && (s.speedClasses b).get .loop != .inBand)
      || (s.transport.run.get .down && (s.speedClasses b).get .down != .inBand)) = true)
      ↔ s.OffAt b .up ∨ s.OffAt b .loop ∨ s.OffAt b .down := by
  rw [Bool.or_eq_true, Bool.or_eq_true, off_iff, off_iff, off_iff, or_assoc]

theorem judgeDeviation_eq (b : ConfigBlock) (s : State) (deviates : Bool)
    (h : deviates = true ↔ s.OffAt b .up ∨ s.OffAt b .loop ∨ s.OffAt b .down) : s.judgeDeviation b = { s with
      transport := { s.transport with speedDeviation := deviates }
      ctl := { s.ctl with attn :=
        if deviates = true ∧ s.transport.speedDeviation = false then s.ctl.attn ||| 0x400 else s.ctl.attn } } := by
  rw [← anyOff_iff] at h
  unfold judgeDeviation
  cases deviates with
  | false =>
    refine (if_neg (by rw [← h]; exact Bool.false_ne_true)).trans ?_
    simp only [Bool.false_eq_true, false_and, if_false]
    rfl
  | true =>
    refine (if_pos (h.mp rfl)).trans ?_
    cases hold : s.transport.speedDeviation with
    | false => rfl
    | true =>
      simp only [if_true, Bool.true_eq_false, and_false, if_false]
      rw [← hold]

theorem stalls_eq (b : ConfigBlock) (s : State) : stalls b s = [Section.up, .loop, .down].filter fun x =>
    s.transport.run.get x && s.transport.below.get x != 0 && s.transport.below.get x != 2
      && decide (s.speedOf x < b.floor ∨ s.speedOf x = 0) := by
  unfold stalls
  congr 1
  funext x
  rw [speedClasses_get, nextBelow_speedClass, Bool.eq_iff_iff]
  by_cases hslow : s.speedOf x < b.floor ∨ s.speedOf x = 0
  · have hsecond : min 2 (s.transport.below.get x + 1) = 2 ↔ s.transport.below.get x ≠ 0 := by omega
    rw [if_pos hslow, decide_eq_true hslow]
    simp only [Bool.and_eq_true, bne_iff_ne, beq_iff_eq, and_true, hsecond, and_assoc, and_comm (a := _ ≠ 2)]
  · rw [if_neg hslow, decide_eq_false hslow]
    simp

/-! ## The sample as a whole (R13) -/

section

variable {k : Installed} {s : State}

theorem sample_runUp (hk : s.config = some k) (h : s.transport.state = .runUp) : s.sample = s.sampleRunUp k.block := by
  simp only [sample, hk, h]

theorem sample_atSpeed (hk : s.config = some k) (h : s.transport.state = .atSpeed) : s.sample = s.sampleAtSpeed k.block := by
  simp only [sample, hk, h]

theorem sample_runOut (hk : s.config = some k) (h : s.transport.state = .runOut) : s.sample = s.sampleRunOut k.block := by
  simp only [sample, hk, h]

theorem sample_idle (h : s.transport.state = .stopped ∨ s.config = none) : s.sample = s := by
  unfold sample
  obtain h | h := h
  · cases s.config <;> simp only [h]
  · simp only [h]

end

end State

theorem exec_sample (s : State) : exec .sample s = .next s.fresh.sample.finish := rfl

/-- Settles O39: the samples that count on, that begin again, and the third that ends the run-up. -/
theorem sampleInRunUp : Obligations.SampleInRunUp := by
  intro k s hk hstate speed inBand low all next
  rw [exec_sample, sample_runUp (by exact hk) (by exact hstate)]
  refine ⟨fun hall hn => ?_, fun hall => ?_, fun hall hn => ?_⟩
  · rw [sampleRunUp_good (by exact hall), if_neg (by exact hn)]
    rfl
  · rw [sampleRunUp_bad (by exact hall)]
    rfl
  · have hthird : s.fresh.transport.allInBand + 1 = 3 := congrArg (· + 1) hn
    rw [sampleRunUp_good (by exact hall), hthird, if_pos rfl, enterAtSpeed_eq (by exact hk)]
    rfl

/-- Settles O40: the deviation judged and the stalls found, each as its own lemma. -/
theorem sampleAtSpeed : Obligations.SampleAtSpeed := by
  intro k s hk hstate speed low off stalled deviates sampled
  rw [exec_sample, sample_atSpeed (by exact hk) (by exact hstate), State.sampleAtSpeed, stalls_eq,
    judgeDeviation_eq k.block s.fresh (decide deviates) decide_eq_true_iff, takeSample_eq, reportStalls]
  simp only [decide_eq_true_eq]
  rfl

/-! ## Run-out and the run-up timer (R12, R15) -/

namespace State

theorem sampleRunOut_goesOn {b : ConfigBlock} {s : State} (h : s.belowAfter b ≠ perSection 2) :
    s.sampleRunOut b = s.takeSample b := by
  rw [sampleRunOut, takeSample_eq]
  exact if_neg h

theorem sampleRunOut_ends {b : ConfigBlock} {s : State} (h : s.belowAfter b = perSection 2) :
    s.sampleRunOut b = (s.takeSample b).enterStopped := by
  rw [sampleRunOut, takeSample_eq]
  exact if_pos h

theorem enterStopped_stays {s : State} (h : s.transport.heldRunUp = false) : s.enterStopped =
    { s with transport := { s.transport with state := .stopped, samplePeriod := none } } :=
  if_neg (Bool.eq_false_iff.mp h)

theorem enterStopped_held {s : State} (h : s.transport.heldRunUp = true) : s.enterStopped =
    startRunUp { s with transport := { s.transport with state := .stopped, samplePeriod := none } } :=
  if_pos h

end State

theorem exec_runupTimeout (s : State) : exec .runupTimeout s = .next s.fresh.runUpExpiry.finish := rfl

/-- Settles O41, by the state the sample or the expiry meets. -/
theorem sampleInRunOutAndTimers : Obligations.SampleInRunOutAndTimers := by
  refine ⟨fun k s hk hstate => ?_, fun s => ⟨fun hstate htimer => ?_, fun hnone => ?_⟩, fun s hidle => ?_⟩
  · intro speed below sampled
    rw [exec_sample, sample_runOut (by exact hk) (by exact hstate)]
    refine ⟨fun hrest => ?_, fun hall hheld => ?_, fun hall hheld => ?_⟩
    · rw [sampleRunOut_goesOn (by exact hrest), takeSample_eq]
      rfl
    · rw [sampleRunOut_ends (by exact hall), enterStopped_stays (by exact hheld), takeSample_eq]
      rfl
    · rw [sampleRunOut_ends (by exact hall), enterStopped_held (by exact hheld), takeSample_eq]
      rfl
  · rw [exec_runupTimeout, runUpExpiry, if_pos (by exact ⟨hstate, htimer⟩), enterRunOut_runUp (by exact hstate)]
    rfl
  · rw [exec_runupTimeout, runUpExpiry, if_neg (by exact hnone)]
    rfl
  · rw [exec_sample, sample_idle (by exact hidle)]
    rfl

end Machine
end Sys2Proof
end

section
/-! PROOFS. The events of compares (O42). -/

namespace Sys2Proof.Machine

open State

namespace State

/-! ## No event to take -/

theorem takeReached_none {s : State} {p : CompareOwner → Bool} (h : ∀ q ∈ s.transport.compares, p q.owner = true → q.event = none) :
    s.takeReached p = s := by
  have hnone : s.reachedCompare p = none := by
    refine List.find?_eq_none.mpr fun q hq hreached => ?_
    obtain ⟨hevent, howner⟩ := Bool.and_eq_true_iff.mp hreached
    rw [h q hq howner] at hevent
    exact Bool.false_ne_true hevent
  simp only [takeReached, hnone]

/-! ## A boundary (R17) -/

theorem advancePitch_eq {s : State} {k : Installed} (hk : s.config = some k) : s.advancePitch =
    registerCompare .boundary .up (posAdd (posAdd s.clock.boundary k.block.pitchLength) k.block.pitchLength)
      { s with clock := { s.clock with
          pitch := s.clock.pitch + 1, boundary := posAdd s.clock.boundary k.block.pitchLength } } := by
  have hlength : s.pitchLength = k.block.pitchLength := by simp only [pitchLength, hk]
  rw [← hlength]
  rfl

theorem owner_of_find {s : State} {o : CompareOwner} {q : Compare}
    (h : s.transport.compares.find? (fun c => c.event.isSome && c.owner == o) = some q) : q.owner = o := by
  have hq := List.find?_some h
  rw [Bool.and_eq_true, beq_iff_eq] at hq
  exact hq.2

/-! ## A deadline (R102, R103) -/

theorem takeCompare_late {s : State} {i : Nat} {x : Sheet} {c : Checkpoint} (hx : s.findSheet i = some x)
    (hnext : x.next = some c) (latch : PerSection Pos) :
    s.takeCompare (.late i) latch = s.pathFault .late c (some x.order) latch := by
  simp only [takeCompare, hx, hnext]

theorem takeCompare_stuck {s : State} {i : Nat} {x : Sheet} (hx : s.findSheet i = some x) (c : Checkpoint)
    (latch : PerSection Pos) : s.takeCompare (.stuck i c) latch = s.pathFault .stuck c (some x.order) latch := by
  simp only [takeCompare, hx]

/-! ## A pick (R87, R96) -/

section

variable {k : Installed} {p : Pick} {latch : PerSection Pos} {x : Sheet} {s : State}

/-- The record of a picked sheet, on its way to the feeder sensor of its tray. -/
def picked (k : Installed) (p : Pick) (latch : PerSection Pos) (y : Sheet) : Sheet :=
  goingTo k (.fd p.tray) latch.up (k.block.trays.get p.tray).pickToFd { y with state := .inPath }

theorem issuePick_eq (hk : s.config = some k) (hp : s.launch.schedule.find? (·.track == p.track) = some p)
    (hx : s.track.sheets.filter (·.id = p.track) = [x]) : s.issuePick p.track latch =
      registerCompare (.late p.track) .up
        (posAdd (posAdd latch.up (k.block.trays.get p.tray).pickToFd) (k.block.lateTol.get .up))
        { s with
          out := s.out ++ [.pickPulse p.tray]
          launch := { s.launch with schedule := s.launch.schedule.filter (·.track ≠ p.track) }
          track := { s.track with
            sheets := s.track.sheets.map fun y => if y.id = p.track then picked k p latch x else y
            queues := s.track.queues.set (.fd p.tray) (s.track.queues.get (.fd p.tray) ++ [p.track]) } } := by
  have hid : x.id = p.track := by
    have hmem : x ∈ s.track.sheets.filter (·.id = p.track) := hx ▸ List.mem_singleton_self x
    exact of_decide_eq_true (List.mem_filter.mp hmem).2
  have hmap : (s.track.sheets.map fun y => if y.id = p.track then { y with state := .inPath } else y).map (fun y =>
      if y.id = p.track then goingTo k (.fd p.tray) latch.up (k.block.trays.get p.tray).pickToFd y else y)
      = s.track.sheets.map fun y => if y.id = p.track then picked k p latch x else y := by
    refine (List.map_map ..).trans (List.map_congr_left fun y hy => ?_)
    rw [Function.comp]
    by_cases hyid : y.id = p.track
    · cases eq_of_unique (by rw [hid]; exact hx) hy (hyid.trans hid.symm)
      rw [if_pos hid, if_pos hid]
      exact (if_pos hid).symm
    · rw [if_neg hyid, if_neg hyid, if_neg hyid]
  simp only [issuePick, hk, hp]
  rw [enterQueue_eq, ← hmap, queueWith, if_neg (by simp)]
  exact ext_parts rfl rfl rfl rfl rfl rfl rfl rfl rfl rfl rfl hk rfl rfl rfl

end

end State

/-- Settles O42, one kind of compare at a time. -/
theorem reachedComparesTaken : Obligations.ReachedComparesTaken := by
  refine ⟨fun q latch k s hk => ⟨fun hfirst hevent => ?_, fun hnone => ?_⟩,
    fun q p latch x k s hk hfirst howner hevent hp hx => ?_, fun c q latch x s hevent => ?_⟩
  · have howner := owner_of_find hfirst
    simp only [exec, execPitchBoundary, event, takeReached_of_first hevent (· == .boundary) hfirst, howner]
    rw [takeCompare, advancePitch_eq (by exact hk)]
    rfl
  · have hkept : s.fresh.takeReached (· == .boundary) = s.fresh := takeReached_none fun q hq ho => hnone q hq (beq_iff_eq.mp ho)
    simp only [exec, execPitchBoundary, event, hkept]
    rfl
  · intro expected
    have hexec : exec .pick s = .next (((s.fresh.withdrawOwner (· == .pick p.track)).issuePick p.track latch).finish) := by
      simp only [exec, execPick, event, takeReached_of_first hevent isPick hfirst, howner, takeCompare]
    rw [issuePick_eq (by exact hk) (by exact hp) (by exact hx)] at hexec
    exact ⟨_, hexec, rfl, rfl, rfl, rfl, rfl⟩
  · intro taken halted
    refine ⟨fun hfirst howner hx hnext => ?_, fun hfirst howner hx => ?_, fun hnone => ?_, fun hnone => ?_⟩
    · have hfault : (s.fresh.withdrawOwner (· == q.owner)).takeCompare q.owner latch
          = (s.fresh.withdrawOwner (· == q.owner)).pathFault .late c (some x.order) latch := by
        rw [howner]
        exact takeCompare_late (by exact hx) hnext latch
      simp only [exec, execLateDeadline, event, takeReached_of_first hevent (s.fresh.isLateAt c) hfirst, hfault]
      rfl
    · have hfault : (s.fresh.withdrawOwner (· == q.owner)).takeCompare q.owner latch
          = (s.fresh.withdrawOwner (· == q.owner)).pathFault .stuck c (some x.order) latch := by
        rw [howner]
        exact takeCompare_stuck (by exact hx) c latch
      simp only [exec, execStuckDeadline, event, takeReached_of_first hevent (isStuckAt c) hfirst, hfault]
      rfl
    · have hkept : s.fresh.takeReached (s.fresh.isLateAt c) = s.fresh := takeReached_none hnone
      simp only [exec, execLateDeadline, event, hkept]
      rfl
    · have hkept : s.fresh.takeReached (isStuckAt c) = s.fresh := takeReached_none hnone
      simp only [exec, execStuckDeadline, event, hkept]
      rfl

end Sys2Proof.Machine
end

section
/-! PROOFS. Launch checks, decisions and skips (O44, O45). -/

namespace Sys2Proof.Machine

open State

namespace State

/-! ## Checks 2 to 4 (R64, R80, R83) -/

section

variable {k : Installed} {s : State} {m : Mailpiece} {e : Entry} {b : Bin}

/-- The bin has room for the whole mailpiece (R64). -/
def BinFits (k : Installed) (s : State) (m : Mailpiece) (b : Bin) : Prop :=
  m.binMask.get b = true ∧ (k.block.bins.get b).enabled = true
    ∧ m.sheetCount + (s.mail.bins.get b).stacked + (s.mail.bins.get b).reserved ≤ (k.block.bins.get b).capacity

theorem enabled_and_fits_iff (hk : s.config = some k) (b : Bin) :
    (b ∈ s.enabledBins m.binMask ∧ decide (m.sheetCount + (s.mail.bins.get b).stacked + (s.mail.bins.get b).reserved
      ≤ s.binCapacity b) = true) ↔ BinFits k s m b := by
  rw [mem_enabledBins hk, decide_eq_true_eq, binCapacity_of_config hk, BinFits, and_assoc]

theorem binFor_none (hk : s.config = some k) (h : ∀ b, ¬BinFits k s m b) : s.binFor m = none :=
  List.find?_eq_none.mpr fun b hb hroom => h b ((enabled_and_fits_iff hk b).mp ⟨hb, hroom⟩)

theorem find?_order {f : Bin → Bool} (hb : f b = true) (hfirst : ∀ b', Bin.order.idxOf b' < Bin.order.idxOf b → f b' = false) :
    Bin.order.find? f = some b := by
  cases b with
  | b1 => simp [Bin.order, hb]
  | b2 => simp [Bin.order, hb, hfirst .b1 (by decide)]
  | b3 => simp [Bin.order, hb, hfirst .b1 (by decide), hfirst .b2 (by decide)]
  | b4 => simp [Bin.order, hb, hfirst .b1 (by decide), hfirst .b2 (by decide), hfirst .b3 (by decide)]

/-- The first bin, in the order of the bins, that has room. -/
theorem binFor_first (hk : s.config = some k) (hb : BinFits k s m b)
    (hfirst : ∀ b', Bin.order.idxOf b' < Bin.order.idxOf b → ¬BinFits k s m b') : s.binFor m = some b := by
  have hfits : ∀ b, decide ((m.binMask.get b && (k.block.bins.get b).enabled) = true
      ∧ decide (m.sheetCount + (s.mail.bins.get b).stacked + (s.mail.bins.get b).reserved ≤ s.binCapacity b) = true) = true
      ↔ BinFits k s m b := fun b => by
    rw [decide_eq_true_eq, Bool.and_eq_true, decide_eq_true_eq, binCapacity_of_config hk, BinFits, and_assoc]
  simp only [binFor, enabledBins, hk, List.find?_filter]
  exact find?_order ((hfits b).mpr hb) fun b' hlt => Bool.eq_false_iff.mpr fun h => hfirst b' hlt ((hfits b').mp h)

theorem binCheck_has (hm : s.currentMp = some m) (hb : m.bin ≠ none) : s.binCheck = (s, true) := by
  simp only [binCheck, hm, Option.isSome_iff_ne_none.mpr hb, if_true]

theorem binCheck_none (hm : s.currentMp = some m) (hb : m.bin = none) (h : s.binFor m = none) : s.binCheck = (s, false) := by
  simp only [binCheck, hm, hb, Option.isSome_none, Bool.false_eq_true, if_false, h]

theorem binCheck_reserves (hm : s.currentMp = some m) (hb : m.bin = none) (h : s.binFor m = some b) :
    s.binCheck = (s.reserveBin m b, true) := by
  simp only [binCheck, hm, hb, Option.isSome_none, Bool.false_eq_true, if_false, h]

theorem trayCheck_iff (hk : s.config = some k) (w : OrderWords) : s.trayCheck w = true ↔
    ∃ t, trayOf w.w4 = some t ∧ (k.block.trays.get t).enabled = true ∧ s.launch.trays.get t = false := by
  simp only [trayCheck, hk]
  cases trayOf w.w4 <;> simp

theorem imageCheck_iff (hk : s.config = some k) (w : OrderWords) : s.imageCheck w = true ↔
    w.ready.getLsbD 0 = true ∧ (k.block.duplexGate = true → side2Of w ≠ none → w.ready.getLsbD 1 = true) := by
  simp only [imageCheck, hk, side1Ready, side2Ready]
  cases k.block.duplexGate <;> cases side2Of w <;> simp

/-! ## Checks 1 to 4 together (R79) -/

theorem noCandidateReason_chainFault (hopen : s.mail.waitingOpen = none) {src : FaultSource} (hpos : s.fetch.pos = .chainFault src) :
    s.noCandidateReason = .chainFault := by
  simp only [noCandidateReason, hopen, hpos, Option.isSome_none, Bool.false_eq_true, if_false]

theorem noCandidateReason_other (hopen : s.mail.waitingOpen = none) (hpos : ∀ src, s.fetch.pos ≠ .chainFault src) :
    s.noCandidateReason = if s.front = none ∧ s.fetch.window.length = 64 then .windowFull else .starved := by
  simp only [noCandidateReason, hopen, Option.isSome_none, Bool.false_eq_true, if_false, Option.isNone_iff_eq_none]
  cases h : s.fetch.pos with
  | chainFault src => exact absurd h (hpos src)
  | idle | next | chainEnd | awaitingHead | returning | continuing => rfl

theorem checks1to4_noCandidate (h : s.candidateEntry = none) : s.checks1to4 = (s, some s.noCandidateReason) := by
  simp only [checks1to4, h]

theorem checks1to4_binWait (he : s.candidateEntry = some e) (h : s.binCheck = (s, false)) :
    s.checks1to4 = (s, some .binWait) := by
  simp only [checks1to4, he, h, Bool.not_false, if_true]

theorem checks1to4_of_bin {t : State} (he : s.candidateEntry = some e) (h : s.binCheck = (t, true)) : s.checks1to4 =
    if !t.trayCheck e.words then (t, some .trayEmpty)
    else if !t.imageCheck e.words then (t, some .imageWait)
    else (t, none) := by
  simp only [checks1to4, he, h, Bool.not_true, Bool.false_eq_true, if_false]

theorem checks1to4_trayEmpty (he : s.candidateEntry = some e) (h : s.binCheck = (s, true)) (ht : ¬s.trayCheck e.words = true) :
    s.checks1to4 = (s, some .trayEmpty) := by
  rw [checks1to4_of_bin he h, if_pos (by simpa using ht)]

theorem checks1to4_imageWait (he : s.candidateEntry = some e) (h : s.binCheck = (s, true)) (ht : s.trayCheck e.words = true)
    (hi : ¬s.imageCheck e.words = true) : s.checks1to4 = (s, some .imageWait) := by
  rw [checks1to4_of_bin he h, if_neg (by simp [ht]), if_pos (by simpa using hi)]

theorem checks1to4_pass (he : s.candidateEntry = some e) (h : s.binCheck = (s, true)) (ht : s.trayCheck e.words = true)
    (hi : s.imageCheck e.words = true) : s.checks1to4 = (s, none) := by
  rw [checks1to4_of_bin he h, if_neg (by simp [ht]), if_neg (by simp [hi])]

/-- With its bin reserved, the mailpiece passes check 2, and the checks go on as they would have. -/
theorem checks1to4_reserved (he : s.candidateEntry = some e) (hm : s.currentMp = some m) (hb : m.bin = none)
    (h : s.binFor m = some b) : s.checks1to4 = (s.reserveBin m b).checks1to4 := by
  have hcur : (s.reserveBin m b).currentMp = some { m with bin := some b } := by
    have hbin : (s.reserveBin m b).currentMp = (s.updMp m.id fun r => { r with bin := some b }).currentMp := rfl
    rw [hbin, currentMp_updMp, hm]
    · exact congrArg some (if_pos rfl)
    · exact fun _ => rfl
  have hcheck : (s.reserveBin m b).binCheck = (s.reserveBin m b, true) := binCheck_has hcur (by simp)
  rw [checks1to4_of_bin he (binCheck_reserves hm hb h), checks1to4_of_bin (by exact he) hcheck]

end

/-! ## The decision (R78 to R80) -/

section

variable {k : Installed} {s : State} {m : Mailpiece} {e : Entry} {b : Bin} {tray : Tray} {p : Word}

theorem launchDecision_idle (hk : s.config = some k)
    (h : ¬(k.block.slotOfPitch (s.decisionPitch k) = some .feed ∧ s.ctl.state = .running)) : s.launchDecision = s := by
  simp only [launchDecision, hk, if_neg h]

/-- A decision is to be taken for merge pitch p. -/
structure Decides (k : Installed) (p : Word) (s : State) : Prop where
  config : s.config = some k
  pitch : s.decisionPitch k = p
  feed : k.block.slotOfPitch p = some .feed
  running : s.ctl.state = .running

theorem Decides.skips (h : Decides k p s) {t : State} {r : SkipReason} (hchecks : s.checks1to4 = (t, some r)) :
    s.launchDecision = t.skip r := by
  have hdecides : k.block.slotOfPitch (s.decisionPitch k) = some .feed ∧ s.ctl.state = .running := ⟨h.pitch ▸ h.feed, h.running⟩
  simp only [launchDecision, h.config, if_pos hdecides, hchecks]

theorem Decides.goesOn (h : Decides k p s) {t : State} (hchecks : s.checks1to4 = (t, none)) :
    s.launchDecision = t.decideLaunch k p := by
  have hdecides : k.block.slotOfPitch p = some .feed ∧ s.ctl.state = .running := ⟨h.feed, h.running⟩
  simp only [launchDecision, h.config, h.pitch, if_pos hdecides, hchecks]

/-- Checks that come out the same lead to the same decision. -/
theorem Decides.congr {t : State} (hs : Decides k p s) (ht : Decides k p t) (h : s.checks1to4 = t.checks1to4) :
    s.launchDecision = t.launchDecision := by
  rcases hu : t.checks1to4 with ⟨u, r⟩
  cases r with
  | none => rw [hs.goesOn (h.trans hu), ht.goesOn hu]
  | some r => rw [hs.skips (h.trans hu), ht.skips hu]

theorem launchable_eq (he : s.candidateEntry = some e) (hm : s.currentMp = some m) (ht : trayOf e.words.w4 = some tray) :
    s.launchable = some ⟨e, m, tray⟩ := by
  simp only [launchable, he, hm, ht, Option.map_some]

theorem checks5to7_pathFull {c : Candidate} (h : ¬s.pathCheck (pickPosition k s p c.tray) = true) :
    checks5to7 k s c p = some .pathFull := by
  rw [checks5to7, if_pos (by simpa using h)]

theorem checks5to7_noReturnSlot {c : Candidate} (hpath : s.pathCheck (pickPosition k s p c.tray) = true)
    (h : ¬returnCheck k s c.order.words (finalPitchOf k c.order.words p) = true) :
    checks5to7 k s c p = some .noReturnSlot := by
  rw [checks5to7, if_neg (by simp [hpath]), if_pos (by simpa using h)]

theorem checks5to7_orderHold {c : Candidate} (hpath : s.pathCheck (pickPosition k s p c.tray) = true)
    (hreturn : returnCheck k s c.order.words (finalPitchOf k c.order.words p) = true)
    (h : ¬s.exitOrderOk (finalPitchOf k c.order.words p) = true) : checks5to7 k s c p = some .orderHold := by
  rw [checks5to7, if_neg (by simp [hpath]), if_neg (by simp [hreturn]), if_pos (by simpa using h)]

theorem checks5to7_pass {c : Candidate} (hpath : s.pathCheck (pickPosition k s p c.tray) = true)
    (hreturn : returnCheck k s c.order.words (finalPitchOf k c.order.words p) = true)
    (h : s.exitOrderOk (finalPitchOf k c.order.words p) = true) : checks5to7 k s c p = none := by
  rw [checks5to7, if_neg (by simp [hpath]), if_neg (by simp [hreturn]), if_neg (by simp [h])]

theorem decideLaunch_skips {c : Candidate} {r : SkipReason} (hc : s.launchable = some c) (h : checks5to7 k s c p = some r) :
    s.decideLaunch k p = s.skip r := by
  simp only [decideLaunch, hc, h]

theorem decideLaunch_launches {c : Candidate} (hc : s.launchable = some c) (h : checks5to7 k s c p = none) :
    s.decideLaunch k p = s.launchCandidate k c p := by
  simp only [decideLaunch, hc, h]

/-! ## Checks 5 to 7 (R80, R85) -/

theorem pathCheck_iff (pos : Pos) : s.pathCheck pos = true ↔ s.track.sheets.length < 24 ∧ s.launch.schedule.length < 6
    ∧ ∀ l, s.launch.schedule.getLast? = some l → 0 ≤ posDiff pos l.pos := by
  rw [pathCheck, Bool.and_eq_true, Bool.and_eq_true, decide_eq_true_eq, decide_eq_true_eq, and_assoc]
  refine and_congr_right fun _ => and_congr_right fun _ => ?_
  cases s.launch.schedule.getLast? <;> simp

theorem finalPitchOf_eq (k : Installed) (w : OrderWords) (p : Word) :
    finalPitchOf k w p = if modeOf w.w5 = .loop then p + BitVec.ofNat 32 k.qty.loopDelay else p := by
  unfold finalPitchOf
  cases modeOf w.w5 <;> rfl

theorem returnCheck_iff (k : Installed) (s : State) (w : OrderWords) (final : Word) : returnCheck k s w final = true ↔
    (modeOf w.w5 = .loop → k.block.slotOfPitch final = some .ret
      ∧ ∀ h ∈ s.clock.ring, h.pitch.toNat % 64 ≠ final.toNat % 64) := by
  unfold returnCheck
  cases modeOf w.w5 <;> simp [ringFree, ringIndex]

theorem exitOrderOk_iff (s : State) (final : Word) :
    s.exitOrderOk final = true ↔ ∀ last, s.clock.lastFinal = some last → pitchGreater final last = true := by
  unfold exitOrderOk
  cases s.clock.lastFinal <;> simp

theorem pickPosition_eq (hk : s.config = some k) (hp : s.decisionPitch k = p) (t : Tray) : pickPosition k s p t =
    posSub (posAdd s.clock.boundary (k.qty.lmax % 4294967296 * k.block.pitchLength))
      ((k.block.trays.get t).pickToFd + (k.block.trays.get t).fdToMrg) := by
  have hlength : s.pitchLength = k.block.pitchLength := by simp only [pitchLength, hk]
  have hahead : (p - s.clock.pitch).toNat = k.qty.lmax % 4294967296 := by
    rw [← hp, decisionPitch, BitVec.add_comm, BitVec.add_sub_cancel, BitVec.toNat_ofNat]
  rw [pickPosition, boundaryOf, hlength, hahead]
  rfl

/-! ## The launch (R86) -/

theorem launchCandidate_eq {final : Word} (hfinal : finalPitchOf k e.words p = final) {pos : Pos} (hpos : pickPosition k s p tray = pos) :
    s.launchCandidate k ⟨e, m, tray⟩ p = registerCompare (.pick s.track.nextId) .up pos
      { s with
        track := { s.track with
          sheets := s.track.sheets ++ [
            { id := s.track.nextId, order := e.id, mp := m.id, tray := tray, mode := modeOf e.words.w5
              side2 := side2Of e.words, pass2 := false, index := m.launched, mergePitch := p
              finalPitch := final, last := none, next := none, due := none, occ := [], dest := none
              committed := false, purge := none, transfer := .none, side2Check := .notDue
              mark := .empty, state := .pickPending }]
          nextId := s.track.nextId + 1 }
        clock := { s.clock with
          ring := if modeOf e.words.w5 = .loop then s.clock.ring ++ [⟨s.track.nextId, final⟩] else s.clock.ring
          lastFinal := some final }
        launch := { s.launch with
          schedule := s.launch.schedule ++ [⟨s.track.nextId, tray, pos⟩], candidate := none, emptyCount := 0
          starvedArm := true, trayArm := true }
        mail := { s.mail with
          binWaitArm := true
          table := s.mail.table.map fun y =>
            if y.id = m.id then
              { y with
                launched := y.launched + 1, taken := y.taken + 1
                closed := y.closed || decide (y.sheetCount ≤ y.taken + 1)
                state := if y.sheetCount ≤ y.taken + 1 then .launched else y.state }
            else y }
        fetch := { s.fetch with
          window := s.fetch.window.map fun y =>
            if y.id = e.id then { y with state := .launched } else y }
        retire := { s.retire with launched := s.retire.launched + 1 } } := by
  subst hfinal hpos
  have hcount : ∀ y : Mailpiece, (if decide (y.sheetCount ≤ y.taken + 1) = true then MpState.launched else y.state)
      = if y.sheetCount ≤ y.taken + 1 then .launched else y.state := fun y => by simp only [decide_eq_true_eq]
  by_cases hloop : modeOf e.words.w5 = .loop
  · simp only [launchCandidate, newSheet, countLaunch, hcount, hloop, if_true]
    rfl
  · simp only [launchCandidate, newSheet, countLaunch, hcount, if_neg hloop]
    rfl

end

/-! ## Skips (R57, R65, R81) -/

section

variable (r : SkipReason) (s : State)

/-- The skip is recorded and counted (R81 steps 1 and 2). -/
def skipCounted : State := { s with
  ctl := { s.ctl with lastSkip := some r }
  retire := { s.retire with skipped := s.retire.skipped + 1 }
  launch := { s.launch with emptyCount := min s.runOutLimit (s.launch.emptyCount + 1) } }

/-- What every skip does, whatever its reason (R81 steps 1 to 3). -/
def skipBase : State := (s.skipCounted r).considerStandby

theorem skip_eq : s.skip r = (((s.skipBase r).skipRequests r).skipAttention r).closeFullWindow r := rfl

variable {r s}

theorem considerStandby_of_running (h : s.ctl.state = .running) : s.considerStandby =
    if s.launch.emptyCount = s.runOutLimit ∧ s.track.sheets = [] then s.enterStandby else s := by
  simp only [considerStandby, h, true_and, List.isEmpty_iff]

theorem skipBase_frame : (s.skipBase r).fetch = s.fetch ∧ (s.skipBase r).mail = s.mail ∧ (s.skipBase r).mem = s.mem
    ∧ (s.skipBase r).launch = { s.launch with emptyCount := min s.runOutLimit (s.launch.emptyCount + 1) }
    ∧ (s.skipBase r).track.sheets = s.track.sheets
    ∧ (s.skipBase r).retire = { s.retire with skipped := s.retire.skipped + 1 }
    ∧ (s.skipBase r).ctl.lastSkip = some r := by
  simp [skipBase, skipCounted]

theorem askReread_eq (s : State) : s.askReread = { s with fetch := { s.fetch with rereadAsked :=
    match s.fetch.pos with
    | .chainEnd _ => true
    | _ => s.fetch.rereadAsked } } := by
  unfold askReread
  cases s.fetch.pos <;> rfl

theorem skipAttention_starved (s : State) : s.skipAttention .starved = { s with
    launch := { s.launch with starvedArm := false }
    ctl := { s.ctl with attn := if s.launch.starvedArm then s.ctl.attn ||| BitVec.ofNat 11 (2 ^ AttnFlag.starved.bit) else s.ctl.attn } } := by
  cases h : s.launch.starvedArm with
  | true =>
    simp only [skipAttention, h, if_true]
    rfl
  | false =>
    simp only [skipAttention, h, Bool.false_eq_true, if_false]
    exact ext_parts rfl rfl rfl rfl (by rw [← h]) rfl rfl rfl rfl rfl rfl rfl rfl rfl rfl

theorem skipAttention_trayEmpty (s : State) : s.skipAttention .trayEmpty = { s with
    launch := { s.launch with trayArm := false }
    ctl := { s.ctl with attn := if s.launch.trayArm then s.ctl.attn ||| BitVec.ofNat 11 (2 ^ AttnFlag.trayEmpty.bit) else s.ctl.attn } } := by
  cases h : s.launch.trayArm with
  | true =>
    simp only [skipAttention, h, if_true]
    rfl
  | false =>
    simp only [skipAttention, h, Bool.false_eq_true, if_false]
    exact ext_parts rfl rfl rfl rfl (by rw [← h]) rfl rfl rfl rfl rfl rfl rfl rfl rfl rfl

theorem skipAttention_binWait (s : State) : s.skipAttention .binWait = { s with
    mail := { s.mail with binWaitArm := false }
    ctl := { s.ctl with attn := if s.mail.binWaitArm then s.ctl.attn ||| BitVec.ofNat 11 (2 ^ AttnFlag.binWait.bit) else s.ctl.attn } } := by
  cases h : s.mail.binWaitArm with
  | true =>
    simp only [skipAttention, h, if_true]
    rfl
  | false =>
    simp only [skipAttention, h, Bool.false_eq_true, if_false]
    exact ext_parts rfl rfl rfl (by rw [← h]) rfl rfl rfl rfl rfl rfl rfl rfl rfl rfl rfl

theorem skip_plain (h : r = .pathFull ∨ r = .chainFault ∨ r = .noReturnSlot ∨ r = .orderHold) : s.skip r = s.skipBase r := by
  obtain rfl | rfl | rfl | rfl := h <;> rfl

/-- Counts, schedule and records after any skip. -/
theorem skip_counts : (s.skip r).retire.skipped = s.retire.skipped + 1 ∧ (s.skip r).launch.schedule = s.launch.schedule
    ∧ (s.skip r).track.sheets.length = s.track.sheets.length ∧ (s.skip r).ctl.lastSkip = some r
    ∧ (s.skip r).launch.emptyCount = min s.runOutLimit (s.launch.emptyCount + 1) := by
  obtain ⟨-, -, -, hlaunch, hsheets, hretire, hskip⟩ := skipBase_frame (r := r) (s := s)
  refine ⟨?_, ?_, ?_, ?_, ?_⟩
  · simp [skip_eq, hretire]
  · simp
  · rw [skip_eq, sheetIds_len, sheetIds_closeFullWindow, ← sheetIds_len]
    simp [hsheets]
  · simp [skip_eq, hskip]
  · simp [skip_eq, hlaunch]

theorem skip_starved (s : State) : s.skip .starved =
    { s.skipBase .starved with
      fetch := { s.fetch with rereadAsked :=
        match s.fetch.pos with
        | .chainEnd _ => true
        | _ => s.fetch.rereadAsked }
      launch := { (s.skipBase .starved).launch with starvedArm := false }
      ctl := { (s.skipBase .starved).ctl with attn :=
        if s.launch.starvedArm then (s.skipBase .starved).ctl.attn ||| BitVec.ofNat 11 (2 ^ AttnFlag.starved.bit)
        else (s.skipBase .starved).ctl.attn } } := by
  obtain ⟨hfetch, -, -, hlaunch, -⟩ := skipBase_frame (r := .starved) (s := s)
  have hskip : s.skip .starved = (s.skipBase .starved).askReread.skipAttention .starved := rfl
  have harm : (s.skipBase .starved).launch.starvedArm = s.launch.starvedArm := by rw [hlaunch]
  rw [hskip, skipAttention_starved, askReread_eq, ← hfetch, ← harm]

theorem skip_trayEmpty (s : State) : s.skip .trayEmpty =
    { s.skipBase .trayEmpty with
      launch := { (s.skipBase .trayEmpty).launch with trayArm := false }
      ctl := { (s.skipBase .trayEmpty).ctl with attn :=
        if s.launch.trayArm then (s.skipBase .trayEmpty).ctl.attn ||| BitVec.ofNat 11 (2 ^ AttnFlag.trayEmpty.bit)
        else (s.skipBase .trayEmpty).ctl.attn } } := by
  obtain ⟨-, -, -, hlaunch, -⟩ := skipBase_frame (r := .trayEmpty) (s := s)
  have hskip : s.skip .trayEmpty = (s.skipBase .trayEmpty).skipAttention .trayEmpty := rfl
  have harm : (s.skipBase .trayEmpty).launch.trayArm = s.launch.trayArm := by rw [hlaunch]
  rw [hskip, skipAttention_trayEmpty, ← harm]

theorem skip_binWait (s : State) : s.skip .binWait =
    { s.skipBase .binWait with
      mail := { (s.skipBase .binWait).mail with binWaitArm := false }
      ctl := { (s.skipBase .binWait).ctl with attn :=
        if s.mail.binWaitArm then (s.skipBase .binWait).ctl.attn ||| BitVec.ofNat 11 (2 ^ AttnFlag.binWait.bit)
        else (s.skipBase .binWait).ctl.attn } } := by
  obtain ⟨-, hmail, -⟩ := skipBase_frame (r := .binWait) (s := s)
  have hskip : s.skip .binWait = (s.skipBase .binWait).skipAttention .binWait := rfl
  have harm : (s.skipBase .binWait).mail.binWaitArm = s.mail.binWaitArm := by rw [hmail]
  rw [hskip, skipAttention_binWait, ← harm]

theorem skip_imageWait {e : Entry} (he : s.candidateEntry = some e) : s.skip .imageWait =
    if s.launch.candRead = none then
      { s.skipBase .imageWait with
        launch := { (s.skipBase .imageWait).launch with candRead := some e.id }
        mem := { s.mem with waiting := s.mem.waiting ++ [⟨.candidateReady, [e.addr + 12]⟩] } }
    else s.skipBase .imageWait := by
  obtain ⟨hfetch, -, hmem, hlaunch, -⟩ := skipBase_frame (r := .imageWait) (s := s)
  have hskip : s.skip .imageWait = (s.skipBase .imageWait).requestCandidateRead := rfl
  have hcand : (s.skipBase .imageWait).candidateEntry = some e := by
    rw [← he, candidateEntry, candidateEntry, hlaunch]
    congr 1
    funext i
    rw [findEntry, findEntry, hfetch]
  have hread : (s.skipBase .imageWait).launch.candRead = s.launch.candRead := by rw [hlaunch]
  rw [hskip, ← hmem, ← hread]
  simp only [requestCandidateRead, hcand, Option.isNone_iff_eq_none]
  rfl

theorem skip_windowFull (s : State) : s.skip .windowFull =
    match s.currentMp, s.fetch.window with
    | some m, h :: _ => if m.openRef = h.id then (s.skipBase .windowFull).closeShort m else s.skipBase .windowFull
    | _, _ => s.skipBase .windowFull := by
  obtain ⟨hfetch, hmail, -⟩ := skipBase_frame (r := .windowFull) (s := s)
  have hskip : s.skip .windowFull = (s.skipBase .windowFull).closeFullWindow .windowFull := rfl
  have hcur : (s.skipBase .windowFull).currentMp = s.currentMp := by rw [currentMp, currentMp, hmail]
  rw [hskip]
  simp only [closeFullWindow, hcur, hfetch]
  cases s.currentMp <;> cases s.fetch.window <;> rfl

end

end State

/-- Settles O44: no decision, no candidate, and a launch. -/
theorem launchDecisionAtABoundary : Obligations.LaunchDecisionAtABoundary := by
  intro k s hk p
  refine ⟨fun hidle => launchDecision_idle hk hidle, fun hfeed hrun hnone => ?_, ?_⟩
  · have hskip : s.launchDecision = s.skip s.noCandidateReason :=
      Decides.skips ⟨hk, rfl, hfeed, hrun⟩ (checks1to4_noCandidate hnone)
    obtain ⟨hskipped, hschedule, hsheets, hlast, hempty⟩ := skip_counts (r := s.noCandidateReason) (s := s)
    refine ⟨_, rfl, ?_⟩
    rw [hskip]
    refine ⟨hskipped, hschedule, hsheets, fun hopen => ?_, fun hopen src hpos => ?_, fun hopen hpos => ?_, hempty⟩
    · rw [hlast, noCandidateReason, if_pos (Option.isSome_iff_ne_none.mpr hopen)]
    · rw [hlast, noCandidateReason_chainFault hopen hpos]
    · rw [hlast, noCandidateReason_other hopen hpos]
      split <;> rfl
  · intro e m b tray hfeed hrun he hm hb ht henabled hlevel hready hside loop final pos hsheets hschedule hpos hreturn horder x
    have hd : Decides k p s := ⟨hk, rfl, hfeed, hrun⟩
    have hchecks : s.checks1to4 = (s, none) := checks1to4_pass he (binCheck_has hm (by simp [hb]))
      ((trayCheck_iff hk _).mpr ⟨tray, ht, henabled, hlevel⟩) ((imageCheck_iff hk _).mpr ⟨hready, hside⟩)
    have hfinal : finalPitchOf k e.words p = final := finalPitchOf_eq k e.words p
    have hposition : pickPosition k s p tray = pos := pickPosition_eq hk rfl tray
    have hpass : checks5to7 k s ⟨e, m, tray⟩ p = none := by
      refine checks5to7_pass ?_ ?_ ?_
      · exact hposition ▸ (pathCheck_iff pos).mpr ⟨hsheets, hschedule, hpos⟩
      · exact hfinal ▸ (returnCheck_iff k s e.words final).mpr hreturn
      · exact hfinal ▸ (exitOrderOk_iff s final).mpr horder
    rw [hd.goesOn hchecks, decideLaunch_launches (launchable_eq he hm ht) hpass, launchCandidate_eq hfinal hposition]

/-- Settles O45: check by check, then reason by reason. -/
theorem failedChecksAndSkips : Obligations.FailedChecksAndSkips := by
  refine ⟨fun k e m s hk => ?_, fun r s hrun => ?_⟩
  · intro p hfeed hrun he hm fits reserved
    have hd : Decides k p s := ⟨hk, rfl, hfeed, hrun⟩
    refine ⟨fun hb hfull => ?_, fun b hb hfits hfirst => ?_, fun hb htrays => ?_, fun t hb ht henabled hlevel => ?_⟩
    · exact hd.skips (checks1to4_binWait he (binCheck_none hm hb (binFor_none hk hfull)))
    · exact hd.congr (t := reserved b) ⟨hk, rfl, hfeed, hrun⟩ (checks1to4_reserved he hm hb (binFor_first hk hfits hfirst))
    · refine hd.skips (checks1to4_trayEmpty he (binCheck_has hm hb) fun hcheck => ?_)
      obtain ⟨t, ht, henabled, hlevel⟩ := (trayCheck_iff hk _).mp hcheck
      obtain hoff | hempty := htrays t ht
      · exact Bool.false_ne_true (hoff.symm.trans henabled)
      · exact Bool.false_ne_true (hlevel.symm.trans hempty)
    · intro imagesReady final pos room returnFree
      have htray : s.trayCheck e.words = true := (trayCheck_iff hk _).mpr ⟨t, ht, henabled, hlevel⟩
      have himages : s.imageCheck e.words = true ↔ imagesReady := imageCheck_iff hk _
      have hfinal : finalPitchOf k e.words p = final := finalPitchOf_eq k e.words p
      have hpath : s.pathCheck (pickPosition k s p t) = true ↔ room := by
        rw [show pickPosition k s p t = pos from pickPosition_eq hk rfl t]
        exact pathCheck_iff pos
      have hreturn : returnCheck k s e.words (finalPitchOf k e.words p) = true ↔ returnFree := by
        rw [hfinal]
        exact returnCheck_iff k s e.words final
      have hdecides : imagesReady → s.launchDecision = s.decideLaunch k p := fun hready =>
        hd.goesOn (checks1to4_pass he (binCheck_has hm hb) htray (himages.mpr hready))
      have hcandidate : s.launchable = some ⟨e, m, t⟩ := launchable_eq he hm ht
      refine ⟨fun hready => ?_, fun hready hroom => ?_, fun hready hroom hfree => ?_,
        fun last hready hroom hfree hlast horder => ?_⟩
      · exact hd.skips (checks1to4_imageWait he (binCheck_has hm hb) htray ((not_congr himages).mpr hready))
      · rw [hdecides hready]
        exact decideLaunch_skips hcandidate (checks5to7_pathFull ((not_congr hpath).mpr hroom))
      · rw [hdecides hready]
        exact decideLaunch_skips hcandidate (checks5to7_noReturnSlot (hpath.mpr hroom) ((not_congr hreturn).mpr hfree))
      · rw [hdecides hready]
        refine decideLaunch_skips hcandidate (checks5to7_orderHold (hpath.mpr hroom) (hreturn.mpr hfree) ?_)
        rw [hfinal, exitOrderOk_iff]
        exact fun hall => Bool.false_ne_true (horder.symm.trans (hall last hlast))
  · intro count counted base flagged
    have hbase : s.skipBase r = base := considerStandby_of_running (s := s.skipCounted r) hrun
    refine ⟨fun hr => ?_, ?_, ?_, ?_, ?_, ?_⟩
    · have hskip := skip_plain (s := s) hr
      rw [hbase] at hskip
      exact hskip
    · rintro rfl
      have hskip := skip_starved s
      rw [hbase] at hskip
      exact hskip
    · rintro rfl
      have hskip := skip_trayEmpty s
      rw [hbase] at hskip
      exact hskip
    · rintro rfl
      have hskip := skip_binWait s
      rw [hbase] at hskip
      exact hskip
    · rintro e rfl he
      have hskip := skip_imageWait he
      rw [hbase] at hskip
      exact hskip
    · rintro rfl
      have hskip := skip_windowFull s
      rw [hbase] at hskip
      exact hskip

end Sys2Proof.Machine
end

section
/-! PROOFS. STANDBY, the end of a settlement, and wakes (O47). -/

namespace Sys2Proof.Machine

open State

namespace State

/-! ## Entry to STANDBY (R88) -/

theorem enterStandby_eq (s : State) : s.enterStandby = { haltSections ⟨false, false, true⟩ s.runOutOrder with
    ctl := { s.ctl with state := .standby, attn := s.ctl.attn ||| 8 } } := by
  have hctl : (haltSections ⟨false, false, true⟩ s.runOutOrder).ctl = s.ctl := by simp
  rw [← hctl]
  rfl

theorem enterStandby_track (s : State) :
    s.enterStandby.track = { s.track with tracking := s.track.tracking.set .down false } := by
  have htrack : s.runOutOrder.track = s.track := by simp
  have htracking : PerSection.of (fun x => s.track.tracking.get x && !(PerSection.get ⟨false, false, true⟩ x))
      = s.track.tracking.set .down false :=
    PerSection.ext_get fun x => by
      rw [PerSection.get_of, PerSection.get_set]
      cases x <;> simp [PerSection.get]
  rw [enterStandby_eq, ← htracking, ← htrack]
  rfl

section

variable {s : State}

theorem considerStandby_enters (hrun : s.ctl.state = .running) (hcount : s.launch.emptyCount = s.runOutLimit)
    (hempty : s.track.sheets = []) : s.considerStandby = s.enterStandby := by
  rw [considerStandby_of_running hrun, if_pos ⟨hcount, hempty⟩]

theorem considerStandby_stays (h : ¬(s.ctl.state = .running ∧ s.launch.emptyCount = s.runOutLimit ∧ s.track.sheets = [])) :
    s.considerStandby = s := by
  rw [considerStandby, if_neg (by simpa only [List.isEmpty_iff] using h)]

theorem considerStandby_other (h : s.ctl.state ≠ .running) : s.considerStandby = s :=
  considerStandby_stays fun hstandby => h hstandby.1

theorem considerStandby_state (h : s.ctl.state = .running) :
    s.considerStandby.ctl.state = .running ∨ s.considerStandby.ctl.state = .standby := by
  by_cases hstandby : s.launch.emptyCount = s.runOutLimit ∧ s.track.sheets = []
  · rw [considerStandby_enters h hstandby.1 hstandby.2]
    exact .inr rfl
  · rw [considerStandby_stays fun hs => hstandby hs.2]
    exact .inl h

/-! ## What follows a settlement (R125 step 3) -/

theorem endOfDrain_other (h : s.ctl.state ≠ .stopping) : s.endOfDrain = s :=
  if_neg fun hstop => h hstop.1

/-- The end of a settlement from the point where purge full has been acted on. -/
def settlementEnd (s : State) : State :=
  let t := s.considerStandby
  (if t.ctl.state = .draining ∧ t.track.sheets.isEmpty then t.enterHalted else t).endOfDrain

theorem afterSettlement_full {wasFull : Bool} (h : (s.settleMailpieces false).mail.purgeFull = true ∧ wasFull = false)
    (hrun : (s.settleMailpieces false).ctl.state = .running) :
    s.afterSettlement wasFull = (s.settleMailpieces false).enterDraining.settlementEnd := by
  have hfull : (s.settleMailpieces false).mail.purgeFull = true ∧ wasFull = false
      ∧ (s.settleMailpieces false).ctl.state = .running := ⟨h.1, h.2, hrun⟩
  simp only [afterSettlement, if_pos hfull]
  rfl

theorem afterSettlement_other {wasFull : Bool} (h : ¬((s.settleMailpieces false).mail.purgeFull = true ∧ wasFull = false
      ∧ (s.settleMailpieces false).ctl.state = .running)) :
    s.afterSettlement wasFull = (s.settleMailpieces false).settlementEnd := by
  simp only [afterSettlement, if_neg h]
  rfl

theorem settlementEnd_running (h : s.ctl.state = .running) : s.settlementEnd = s.considerStandby := by
  have hstate := considerStandby_state h
  have hdraining : s.considerStandby.ctl.state ≠ .draining := by
    obtain hstate | hstate := hstate <;> simp [hstate]
  have hstopping : s.considerStandby.ctl.state ≠ .stopping := by
    obtain hstate | hstate := hstate <;> simp [hstate]
  simp only [settlementEnd, if_neg fun hd : _ ∧ _ => hdraining hd.1]
  exact endOfDrain_other hstopping

theorem settlementEnd_draining (h : s.ctl.state = .draining) :
    s.settlementEnd = if s.track.sheets = [] then s.enterHalted else s := by
  have hkept : s.considerStandby = s := considerStandby_other (by simp [h])
  simp only [settlementEnd, hkept, h, true_and, List.isEmpty_iff]
  by_cases hempty : s.track.sheets = []
  · rw [if_pos hempty]
    exact endOfDrain_other (by rw [enterHalted_state]; decide)
  · rw [if_neg hempty]
    exact endOfDrain_other (by simp [h])

theorem settlementEnd_stopping (h : s.ctl.state = .stopping) : s.settlementEnd = s.endOfDrain := by
  have hkept : s.considerStandby = s := considerStandby_other (by simp [h])
  simp only [settlementEnd, hkept]
  rw [if_neg (by simp [h])]

theorem settlementEnd_other (hrun : s.ctl.state ≠ .running) (hdrain : s.ctl.state ≠ .draining)
    (hstop : s.ctl.state ≠ .stopping) : s.settlementEnd = s := by
  simp only [settlementEnd, considerStandby_other hrun, if_neg fun hd : _ ∧ _ => hdrain hd.1]
  exact endOfDrain_other hstop

/-! ## Wakes (R89) -/

/-- The wake evaluation has been made. -/
def wakeDone (s : State) : State := { s with launch := { s.launch with wakeAsked := false } }

theorem evaluateWake_notAsked (h : s.launch.wakeAsked = false) : s.evaluateWake = s :=
  if_neg (Bool.eq_false_iff.mp h)

theorem evaluateWake_awake (h : s.launch.wakeAsked = true) (hstate : s.ctl.state ≠ .standby) : s.evaluateWake = s.wakeDone :=
  (if_pos h).trans (if_neg (by exact hstate))

theorem evaluateWake_standby (h : s.launch.wakeAsked = true) (hstate : s.ctl.state = .standby) : s.evaluateWake =
    if s.wakeDone.checks1to4.2.isNone then (s.wakeDone.checks1to4.1.setState .running).runUpOrder
    else s.wakeDone.checks1to4.1 :=
  (if_pos h).trans (if_pos (by exact hstate))

theorem evaluateWake_fails (h : s.launch.wakeAsked = true) (hstate : s.ctl.state = .standby) {r : SkipReason}
    (hchecks : s.wakeDone.checks1to4 = (s.wakeDone, some r)) : s.evaluateWake = s.wakeDone := by
  rw [evaluateWake_standby h hstate, hchecks]
  rfl

theorem evaluateWake_wakes (h : s.launch.wakeAsked = true) (hstate : s.ctl.state = .standby)
    (hchecks : s.wakeDone.checks1to4 = (s.wakeDone, none)) :
    s.evaluateWake = (s.wakeDone.setState .running).runUpOrder := by
  rw [evaluateWake_standby h hstate, hchecks]
  rfl

theorem binCheck_noMailpiece (h : s.currentMp = none) : s.binCheck = (s, false) := by
  simp only [binCheck, h]

/-- Without a candidate or without a mailpiece no check passes. -/
theorem checks1to4_nothing (h : s.candidateEntry = none ∨ s.currentMp = none) : ∃ r, s.checks1to4 = (s, some r) := by
  cases he : s.candidateEntry with
  | none => exact ⟨_, checks1to4_noCandidate he⟩
  | some e =>
    obtain h | h := h
    · cases he.symm.trans h
    · exact ⟨_, checks1to4_binWait he (binCheck_noMailpiece h)⟩

end

end State

/-- Settles O47, in the order of its parts. -/
theorem standbyEntryAndWake : Obligations.StandbyEntryAndWake := by
  refine ⟨⟨fun s => ⟨fun hrun hcount hempty => ?_, considerStandby_stays, by simp⟩, fun wasFull s => ?_, fun s => ?_⟩,
    fun s hrun hcount hempty => ?_⟩
  · rw [considerStandby_enters hrun hcount hempty, enterStandby_eq]
  · intro a newlyFull
    refine ⟨fun hrun hfull hsheets => ?_, fun hrun hfull hsheets => ?_, fun hrun hfull => ?_, fun hdrain => ?_,
      fun hstop => ?_, fun hrun hdrain hstop => ?_⟩
    · rw [afterSettlement_full hfull hrun, enterDraining_nonempty (by exact hsheets), settlementEnd_draining (by rfl)]
      exact if_neg hsheets
    · rw [afterSettlement_full hfull hrun, enterDraining_empty (by exact hsheets)]
      have hhalted := enterHalted_state (s.settleMailpieces false)
      exact settlementEnd_other (by simp [hhalted]) (by simp [hhalted]) (by simp [hhalted])
    · rw [afterSettlement_other fun h => hfull ⟨h.1, h.2.1⟩]
      exact settlementEnd_running hrun
    · rw [afterSettlement_other fun h => absurd (h.2.2.symm.trans hdrain) (by decide)]
      exact settlementEnd_draining hdrain
    · rw [afterSettlement_other fun h => absurd (h.2.2.symm.trans hstop) (by decide), settlementEnd_stopping hstop,
        endOfDrain_eq]
      exact ite_congr (propext (and_iff_right hstop)) (fun _ => rfl) (fun _ => rfl)
    · rw [afterSettlement_other fun h => hrun h.2.2]
      exact settlementEnd_other hrun hdrain hstop
  · intro done
    refine ⟨evaluateWake_notAsked, evaluateWake_awake, fun hasked hstate => ⟨fun hnothing => ?_, fun m e k hm he hk => ?_⟩⟩
    · obtain ⟨r, hr⟩ := checks1to4_nothing (s := s.wakeDone) hnothing
      exact evaluateWake_fails hasked hstate hr
    · intro fits passes
      refine ⟨fun hb hfull => ?_, fun b hb hfits hfirst => ?_, fun hb hfails => ?_, fun hb hpass => ?_⟩
      · exact evaluateWake_fails hasked hstate (checks1to4_binWait (by exact he) (binCheck_none (by exact hm) hb (binFor_none (by exact hk) hfull)))
      · have hchecks : s.wakeDone.checks1to4 = (s.wakeDone.reserveBin m b).checks1to4 :=
          checks1to4_reserved (by exact he) (by exact hm) hb (binFor_first (by exact hk) hfits hfirst)
        rw [evaluateWake_standby hasked hstate, hchecks]
        exact (evaluateWake_standby (s := s.reserveBin m b) hasked hstate).symm
      · obtain ⟨r, hr⟩ : ∃ r, s.wakeDone.checks1to4 = (s.wakeDone, some r) := by
          by_cases htray : s.wakeDone.trayCheck e.words = true
          · refine ⟨_, checks1to4_imageWait (by exact he) (binCheck_has (by exact hm) hb) htray fun himage => hfails ?_⟩
            exact ⟨(trayCheck_iff (by exact hk) _).mp htray, (imageCheck_iff (by exact hk) _).mp himage⟩
          · exact ⟨_, checks1to4_trayEmpty (by exact he) (binCheck_has (by exact hm) hb) htray⟩
        exact evaluateWake_fails hasked hstate hr
      · obtain ⟨htray, himage⟩ := hpass
        exact evaluateWake_wakes hasked hstate (checks1to4_pass (by exact he) (binCheck_has (by exact hm) hb)
          ((trayCheck_iff (by exact hk) _).mpr htray) ((imageCheck_iff (by exact hk) _).mpr himage))
  · rw [considerStandby_enters hrun hcount hempty]
    refine ⟨enterStandby_eq s, enterStandby_track s, fun d => ?_⟩
    rw [enterStandby_track]
    cases d <;> rfl

end Sys2Proof.Machine
end

section
/-! PROOFS. The Retire Unit's moves and the orders at the front come to an end (for O46). -/

namespace Sys2Proof.Machine

open State

namespace State

/-! ## The moves of the Retire Unit (R128) -/

/-- What the moves of the Retire Unit use up: entries of the window, places in the write queue, and the write it may hold. -/
def retireMeasure (s : State) : Nat :=
  s.fetch.window.length + (16 - s.mem.queue.length) + if s.retireHeld then 0 else 1

theorem retireMeasure_lt_fuel (s : State) : s.retireMeasure < s.retireFuel := by
  unfold retireMeasure retireFuel
  split <;> simp only [Config.writeQueueSize] <;> omega

theorem retireHeld_of_mem {s t : State} (h : t.mem = s.mem) : t.retireHeld = s.retireHeld := by
  rw [retireHeld, h, retireHeld]

theorem retireMeasure_removeHead {s : State} {e : Entry} {rest : List Entry} (hw : s.fetch.window = e :: rest) :
    (s.removeHead e rest).retireMeasure < s.retireMeasure := by
  have hmem : (s.removeHead e rest).mem = s.mem := by simp
  have hwindow : (s.removeHead e rest).fetch.window = rest := by
    unfold removeHead
    dsimp only
    split <;> simp
  rw [retireMeasure, retireMeasure, retireHeld_of_mem hmem, hmem, hwindow, hw, List.length_cons]
  omega

theorem retireMeasure_issueWrite {s : State} (hheld : ¬s.retireHeld = true) (w : Write) :
    (s.issueWrite w .retire id).retireMeasure < s.retireMeasure := by
  rw [retireMeasure, retireMeasure, if_neg hheld]
  cases hroom : s.queueHasRoom with
  | true =>
    have hlen : s.mem.queue.length < 16 := of_decide_eq_true hroom
    rw [issueWrite_room hroom]
    simp only [id, List.length_append, List.length_singleton]
    split <;> omega
  | false =>
    have hnow : (s.issueWrite w .retire id).retireHeld = true := by
      rw [issueWrite_full hroom]
      simp [retireHeld]
    rw [if_pos hnow, issueWrite_full hroom]
    simp only
    omega

theorem retireMeasure_retireMove {s t : State} (h : s.retireMove = some t) : t.retireMeasure < s.retireMeasure := by
  unfold retireMove at h
  split at h
  · cases h
  next e rest hw =>
    split at h
    · cases h
    next hmoves =>
      have hheld : ¬s.retireHeld = true := fun hheld => hmoves (by simp [hheld])
      split at h
      · cases h
        exact retireMeasure_removeHead hw
      · split at h
        next x _ =>
          cases h
          exact retireMeasure_issueWrite (s := s.retireAdvance x (s.retire.step.getD 0)) hheld _
        · cases h
          exact retireMeasure_removeHead hw

theorem retireLoop_of_none {s : State} (h : s.retireMove = none) (n : Nat) : s.retireLoop n = s := by
  cases n <;> simp [retireLoop, h]

theorem retireLoop_of_some {s t : State} (h : s.retireMove = some t) (n : Nat) : s.retireLoop (n + 1) = t.retireLoop n := by
  simp only [retireLoop, h]

/-- With fuel enough the loop ends where no move is left, and more fuel changes nothing. -/
theorem retireLoop_ends {n : Nat} {s : State} (hn : s.retireMeasure < n) : (s.retireLoop n).retireMove = none := by
  induction n generalizing s with
  | zero => exact absurd hn (Nat.not_lt_zero _)
  | succ n ih =>
    cases h : s.retireMove with
    | none => rwa [retireLoop_of_none h]
    | some t =>
      rw [retireLoop_of_some h]
      exact ih (Nat.lt_of_lt_of_le (retireMeasure_retireMove h) (Nat.le_of_lt_succ hn))

theorem retireLoop_fuel {n : Nat} {s : State} (hn : s.retireMeasure < n) {m : Nat} (hm : s.retireMeasure < m) :
    s.retireLoop n = s.retireLoop m := by
  induction n generalizing s m with
  | zero => exact absurd hn (Nat.not_lt_zero _)
  | succ n ih =>
    cases h : s.retireMove with
    | none => rw [retireLoop_of_none h, retireLoop_of_none h]
    | some t =>
      cases m with
      | zero => exact absurd hm (Nat.not_lt_zero _)
      | succ m =>
        have hless := retireMeasure_retireMove h
        rw [retireLoop_of_some h, retireLoop_of_some h]
        exact ih (Nat.lt_of_lt_of_le hless (Nat.le_of_lt_succ hn)) (Nat.lt_of_lt_of_le hless (Nat.le_of_lt_succ hm))

theorem retireAll_of_none {s : State} (h : s.retireMove = none) : s.retireAll = s := retireLoop_of_none h _

theorem retireAll_of_some {s t : State} (h : s.retireMove = some t) : s.retireAll = t.retireAll := by
  obtain ⟨n, hn⟩ : ∃ n, s.retireFuel = n + 1 := ⟨s.fetch.window.length + Config.writeQueueSize + 1, rfl⟩
  rw [retireAll, hn, retireLoop_of_some h]
  refine retireLoop_fuel ?_ t.retireMeasure_lt_fuel
  have hlt := s.retireMeasure_lt_fuel
  rw [hn] at hlt
  exact Nat.lt_of_lt_of_le (retireMeasure_retireMove h) (Nat.le_of_lt_succ hlt)

theorem retireAll_ends (s : State) : s.retireAll.retireMove = none := retireLoop_ends s.retireMeasure_lt_fuel

/-! ## The orders not yet taken -/

/-- The numbers of the entries that wait to be taken, the front first. -/
def untaken (s : State) : List Nat := (s.fetch.window.filter (·.state == .fetched)).map (·.id)

/-- No order comes to wait anew. -/
def NoMore (s t : State) : Prop := t.untaken.Sublist s.untaken

theorem NoMore.refl (s : State) : NoMore s s := List.Sublist.refl _

theorem NoMore.trans {s t u : State} (hst : NoMore s t) (htu : NoMore t u) : NoMore s u := List.Sublist.trans htu hst

theorem untaken_of_window {s t : State} (h : t.fetch.window = s.fetch.window) : t.untaken = s.untaken := by
  rw [untaken, h, untaken]

theorem noMore_of_window {s t : State} (h : t.fetch.window = s.fetch.window) : NoMore s t := by
  have hsame := untaken_of_window h
  unfold NoMore
  exact hsame ▸ List.Sublist.refl _

theorem noMore_of_map {s t : State} {f : Entry → Entry} (h : t.fetch.window = s.fetch.window.map f)
    (hid : ∀ e, (f e).id = e.id) (hstate : ∀ e, (f e).state = .fetched → e.state = .fetched) : NoMore s t := by
  rw [NoMore, untaken, untaken, h]
  induction s.fetch.window with
  | nil => exact List.Sublist.refl _
  | cons e rest ih =>
    rw [List.map_cons]
    by_cases hf : (f e).state = .fetched
    · rw [List.filter_cons_of_pos (by simpa using hf), List.filter_cons_of_pos (by simpa using hstate e hf), List.map_cons,
        List.map_cons, hid]
      exact ih.cons_cons _
    · rw [List.filter_cons_of_neg (by simpa using hf)]
      by_cases he : e.state = .fetched
      · rw [List.filter_cons_of_pos (by simpa using he), List.map_cons]
        exact ih.cons _
      · rwa [List.filter_cons_of_neg (by simpa using he)]

theorem noMore_updEntry {f : Entry → Entry} (hid : ∀ e, (f e).id = e.id)
    (hstate : ∀ e, (f e).state = .fetched → e.state = .fetched) (i : Nat) (s : State) : NoMore s (s.updEntry i f) := by
  refine noMore_of_map (f := fun e => if e.id = i then f e else e) rfl (fun e => ?_) fun e => ?_
  · split
    · exact hid e
    · rfl
  · split
    · exact hstate e
    · exact id

theorem noMore_setEntry {st : EntryState} (h : st ≠ .fetched) (i : Nat) (r : Result) (why : Option Reason) (s : State) :
    NoMore s (s.setEntry i st r why) :=
  noMore_updEntry (by intro; rfl) (fun _ hst => absurd hst h) i s

/-- An entry given another state waits no longer. -/
theorem not_mem_untaken_updEntry {f : Entry → Entry} (hstate : ∀ e, (f e).state ≠ .fetched)
    (i : Nat) (s : State) : i ∉ (s.updEntry i f).untaken := by
  intro hmem
  obtain ⟨e, he, heid⟩ := List.mem_map.mp hmem
  obtain ⟨hwindow, hfetched⟩ := List.mem_filter.mp he
  obtain ⟨y, -, rfl⟩ := List.mem_map.mp hwindow
  have hfetched := beq_iff_eq.mp hfetched
  by_cases hy : y.id = i
  · rw [if_pos hy] at hfetched
    exact hstate y hfetched
  · rw [if_neg hy] at heid
    exact hy heid

/-! ## An OPEN closes the current mailpiece (R58) -/

theorem takeOpen_current {s : State} {m : Mailpiece} (h : s.currentMp = some m) (e : Entry) :
    s.takeOpen e = (s.closeShort m).takeOpen e := by
  simp only [takeOpen, h, currentMp_closeShort h]

/-! ## Operations at the front -/

section

variable (s : State)

theorem noMore_skipCandidate (m : Nat) : NoMore s (s.skipCandidate m) := by
  unfold skipCandidate
  split
  · split
    · exact noMore_setEntry (by decide) _ _ _ s
    · exact .refl s
  · exact .refl s

theorem noMore_enterPurging (m : Nat) (why : Reason) : NoMore s (s.enterPurging m why) := by
  cases hm : s.findMp m with
  | none =>
    rw [enterPurging_gone hm]
    exact .refl s
  | some r =>
    by_cases hstate : r.state = .filling ∨ r.state = .launched
    · rw [enterPurging_begins hm hstate]
      refine NoMore.trans (noMore_of_window ?_) (noMore_skipCandidate _ m)
      rw [purgingBegun, releaseReservation_eq]
      rfl
    · rw [enterPurging_kept hm hstate]
      exact .refl s

theorem noMore_closeShort (m : Mailpiece) : NoMore s (s.closeShort m) := by
  unfold closeShort
  split
  · exact noMore_enterPurging s m.id .shortMailpiece
  · exact .refl s

theorem noMore_settlePause : NoMore s s.settlePause := by
  unfold settlePause
  split
  · exact .refl s
  · exact noMore_updEntry (by intro; rfl) (by intro e he; cases he) _ s

theorem noMore_enterHalted : NoMore s s.enterHalted := by
  refine NoMore.trans (noMore_of_window ?_) (noMore_settlePause _)
  simp

theorem noMore_enterDraining : NoMore s s.enterDraining := by
  by_cases h : s.track.sheets = []
  · rw [enterDraining_empty h]
    exact noMore_enterHalted s
  · rw [enterDraining_nonempty h]
    exact .refl s

theorem noMore_settleCalls : NoMore s s.settleCalls := by
  refine noMore_of_map (f := fun e => if s.callSettles e then { e with state := .settled } else e) rfl (fun e => ?_) fun e => ?_
  · split <;> rfl
  · split
    · intro he
      cases he
    · exact id

theorem noMore_settleMp (jam : Bool) (m : Mailpiece) : NoMore s (s.settleMp jam m) := by
  unfold settleMp
  split
  · exact noMore_setEntry (by decide) _ _ _ (s.updMp m.id _)
  · exact .refl s

theorem noMore_foldl {α : Type} {f : State → α → State} (hf : ∀ s a, NoMore s (f s a)) (l : List α) (s : State) :
    NoMore s (l.foldl f s) := by
  induction l generalizing s with
  | nil => exact .refl s
  | cons a l ih => exact (hf s a).trans (ih (f s a))

theorem noMore_removeHead {e : Entry} {rest : List Entry} (hw : s.fetch.window = e :: rest) : NoMore s (s.removeHead e rest) := by
  have hwindow : (s.removeHead e rest).fetch.window = rest := by
    unfold removeHead
    dsimp only
    split <;> simp
  rw [NoMore, untaken, untaken, hwindow, hw]
  exact ((List.sublist_cons_self e rest).filter _).map _

theorem noMore_retireMove {s t : State} (h : s.retireMove = some t) : NoMore s t := by
  unfold retireMove at h
  split at h
  · cases h
  next e rest hw =>
    split at h
    · cases h
    · split at h
      · cases h
        exact noMore_removeHead s hw
      · split at h
        · cases h
          exact noMore_of_window (by simp)
        · cases h
          exact noMore_removeHead s hw

theorem noMore_retireLoop (n : Nat) (s : State) : NoMore s (s.retireLoop n) := by
  induction n generalizing s with
  | zero => exact .refl s
  | succ n ih =>
    cases h : s.retireMove with
    | none =>
      rw [retireLoop_of_none h]
      exact .refl s
    | some t =>
      rw [retireLoop_of_some h]
      exact (noMore_retireMove h).trans (ih t)

theorem noMore_settleBooks : NoMore s s.settleBooks := by
  have hmail : NoMore s.settleCalls (s.settleCalls.settleMailpieces false) :=
    noMore_foldl (fun s m => noMore_settleMp s false m) _ _
  have hretire : NoMore (s.settleCalls.settleMailpieces false) (s.settleCalls.settleMailpieces false).retireAll :=
    noMore_retireLoop _ _
  have hrecord : NoMore (s.settleCalls.settleMailpieces false).retireAll s.settleBooks := noMore_of_window (by simp [settleBooks])
  exact (noMore_settleCalls s).trans (hmail.trans (hretire.trans hrecord))

/-- What taking the front order i leads to: it waits no longer, or it is the OPEN or the candidate that is waited for. -/
def Taken (i : Nat) (s t : State) : Prop :=
  NoMore s t ∧ (i ∉ t.untaken ∨ t.mail.waitingOpen = some i ∨ t.launch.candidate = some i)

variable {s} {t u : State} {i : Nat}

theorem taken_of_drop (h : NoMore s t) (hi : i ∉ t.untaken) : Taken i s t := ⟨h, .inl hi⟩

theorem taken_updEntry {f : Entry → Entry} (hid : ∀ e, (f e).id = e.id) (hstate : ∀ e, (f e).state ≠ .fetched) :
    Taken i s (s.updEntry i f) :=
  taken_of_drop (noMore_updEntry hid (fun e he => absurd he (hstate e)) i s) (not_mem_untaken_updEntry hstate i s)

theorem taken_setEntry {st : EntryState} (h : st ≠ .fetched) (r : Result) (why : Option Reason) :
    Taken i s (s.setEntry i st r why) :=
  taken_updEntry (by intro; rfl) (fun _ => h)

/-- What is done after the order has been passed does not bring it back. -/
theorem taken_then_noMore (hst : NoMore s t) (hi : i ∉ t.untaken) (htu : NoMore t u) : Taken i s u :=
  taken_of_drop (hst.trans htu) fun hmem => hi (htu.subset hmem)

theorem Taken.of_noMore (hst : NoMore s t) (htu : Taken i t u) : Taken i s u := ⟨hst.trans htu.1, htu.2⟩

theorem setEntry_passed_drops (r : Result) (why : Option Reason) (s : State) :
    NoMore s (s.setEntry i .passed r why) ∧ i ∉ (s.setEntry i .passed r why).untaken :=
  ⟨noMore_setEntry (by decide) i r why s, not_mem_untaken_updEntry (by intro _ h; cases h) i s⟩

theorem taken_acceptOpen (e : Entry) (s : State) : Taken e.id s (s.acceptOpen e) :=
  Taken.of_noMore (t := s.onMail fun u =>
    { u with table := u.table ++ [s.newMailpiece e], nextId := u.nextId + 1, waitingOpen := none }) (.refl s)
    (taken_updEntry (by intro; rfl) (by intro _ h; cases h))

theorem taken_takeOpen_none {e : Entry} {s : State} (hcur : s.currentMp = none) : Taken e.id s (s.takeOpen e) := by
  simp only [takeOpen, hcur]
  split
  · exact taken_setEntry (by decide) _ _
  · split
    · exact taken_acceptOpen e _
    · exact ⟨.refl _, .inr (.inl rfl)⟩

theorem taken_takeOpen (e : Entry) (s : State) : Taken e.id s (s.takeOpen e) := by
  cases hcur : s.currentMp with
  | none => exact taken_takeOpen_none hcur
  | some m =>
    rw [takeOpen_current hcur]
    exact Taken.of_noMore (noMore_closeShort s m) (taken_takeOpen_none (currentMp_closeShort hcur))

theorem taken_assignSheet (e : Entry) (s : State) : Taken e.id s (s.assignSheet e) := by
  unfold assignSheet
  split
  · exact taken_setEntry (by decide) _ _
  next m _ =>
    split
    · exact taken_setEntry (by decide) .skipped (some .mailpiecePurging)
    · split
      next why _ =>
        obtain ⟨hmore, hdrop⟩ := setEntry_passed_drops (i := e.id) .refused (some why) s
        exact taken_then_noMore hmore hdrop (noMore_enterPurging ((s.setEntry e.id .passed .refused (some why)).updMp m.id
          fun r => { r with taken := r.taken + 1 }) m.id .shortMailpiece)
      · exact ⟨.refl s, .inr (.inr rfl)⟩

theorem taken_takePause (i : Nat) (s : State) : Taken i s (s.takePause i) := by
  obtain ⟨hmore, hdrop⟩ := setEntry_passed_drops (i := i) .passed none s
  unfold takePause
  dsimp only
  split
  · exact taken_then_noMore hmore hdrop (noMore_enterHalted ((s.setEntry i .passed .passed none).onCtl _))
  · exact taken_then_noMore hmore hdrop (noMore_enterDraining ((s.setEntry i .passed .passed none).onCtl _))

theorem taken_takeCallAtFront (i : Nat) (s : State) : Taken i s (s.takeCallAtFront i) := by
  unfold takeCallAtFront
  split
  · split
    · exact taken_setEntry (by decide) _ _
    · exact taken_setEntry (by decide) _ _
  · exact taken_setEntry (by decide) _ _

theorem taken_handleFront (e : Entry) (s : State) : Taken e.id s (s.handleFront e) := by
  unfold handleFront
  split
  · exact taken_updEntry (by intro; rfl) (by intro _ h; cases h)
  · split
    · exact taken_setEntry (by decide) _ _
    · split
      · exact taken_takeOpen e s
      · exact taken_assignSheet e s
      · exact taken_takeCallAtFront e.id s
      · exact taken_takePause e.id s
      all_goals exact taken_setEntry (by decide) _ _

/-! ## The front comes to an end -/

theorem front_id (s : State) : s.front.map (·.id) = s.untaken.head? := by
  rw [front, untaken, List.head?_map, List.head?_filter]

/-- Whether something is waited for at the order i. -/
abbrev WaitsAt (s : State) (i : Nat) : Prop := s.mail.waitingOpen = some i ∨ s.launch.candidate = some i

/-- Twice the orders not yet taken, less one while the first of them is waited for. -/
def frontMeasure (s : State) : Nat :=
  match s.untaken with
  | [] => 0
  | i :: rest => 2 * (rest.length + 1) - if s.WaitsAt i then 1 else 0

theorem frontMeasure_le (s : State) : s.frontMeasure ≤ 2 * s.untaken.length := by
  unfold frontMeasure
  cases s.untaken with
  | nil => exact Nat.zero_le _
  | cons i rest => exact Nat.sub_le _ _

theorem frontMeasure_lt_fuel (s : State) : s.frontMeasure < 2 * s.fetch.window.length + 1 := by
  have huntaken : s.untaken.length ≤ s.fetch.window.length := by
    rw [untaken, List.length_map]
    exact List.length_filter_le _ _
  have hle := s.frontMeasure_le
  omega

theorem frontMeasure_cons {rest : List Nat} (h : s.untaken = i :: rest) :
    s.frontMeasure = 2 * (rest.length + 1) - if s.WaitsAt i then 1 else 0 := by
  simp only [frontMeasure, h]

/-- An order that is gone makes up for its place and for what was waited for. -/
theorem frontMeasure_of_gone {rest : List Nat} (hs : s.untaken = i :: rest) (ht : NoMore s t) (hi : i ∉ t.untaken) :
    t.frontMeasure < s.frontMeasure := by
  have hshort : t.untaken.length ≤ rest.length := by
    unfold NoMore at ht
    rw [hs] at ht
    generalize t.untaken = l at ht hi ⊢
    cases ht with
    | cons _ hsub => exact hsub.length_le
    | cons_cons _ _ => exact absurd List.mem_cons_self hi
  have hle := t.frontMeasure_le
  rw [frontMeasure_cons hs]
  split <;> omega

/-- An order newly waited for, still in front or gone with others, brings the measure down too. -/
theorem frontMeasure_of_waits {rest : List Nat} (hs : s.untaken = i :: rest) (hnot : ¬s.WaitsAt i) (ht : NoMore s t)
    (hwaits : t.WaitsAt i) : t.frontMeasure < s.frontMeasure := by
  by_cases hi : i ∈ t.untaken
  · by_cases hlen : t.untaken.length = s.untaken.length
    · have hsame : t.untaken = i :: rest := (ht.eq_of_length hlen).trans hs
      rw [frontMeasure_cons hs, frontMeasure_cons hsame, if_pos hwaits, if_neg hnot]
      omega
    · have hshort : t.untaken.length < s.untaken.length := Nat.lt_of_le_of_ne ht.length_le hlen
      have hle := t.frontMeasure_le
      rw [frontMeasure_cons hs, if_neg hnot]
      rw [hs, List.length_cons] at hshort
      omega
  · exact frontMeasure_of_gone hs ht hi

theorem settleBooks_waits (s : State) (i : Nat) : s.settleBooks.WaitsAt i ↔ s.WaitsAt i := by
  have hopen : s.settleBooks.mail.waitingOpen = s.mail.waitingOpen := by simp [settleBooks]
  have hcandidate : s.settleBooks.launch.candidate = s.launch.candidate := by simp [settleBooks]
  rw [WaitsAt, hopen, hcandidate]

/-- An order taken was not the candidate, and an OPEN waited for is accepted. -/
theorem takeFront_taken (h : s.takeFront = some t) : ∃ i rest, s.untaken = i :: rest
    ∧ NoMore s t ∧ (i ∉ t.untaken ∨ ¬s.WaitsAt i ∧ t.WaitsAt i) := by
  unfold takeFront at h
  split at h
  rotate_left
  · cases h
  split at h
  · cases h
  next e he =>
    have hhead : s.untaken.head? = some e.id := by rw [← front_id, he]; rfl
    obtain ⟨rest, hrest⟩ := List.head?_eq_some_iff.mp hhead
    have hwake : NoMore s s.askWake := noMore_of_window (by simp)
    refine ⟨e.id, rest, hrest, ?_⟩
    split at h
    · cases h
    next hcandidate =>
      split at h
      next hopen =>
        split at h
        · cases h
          obtain ⟨hmore, -⟩ := taken_acceptOpen e s.askWake
          exact ⟨hwake.trans hmore, .inl (not_mem_untaken_updEntry (by intro _ h; cases h) e.id _)⟩
        · cases h
      next hopen =>
        cases h
        obtain ⟨hmore, hdone⟩ := taken_handleFront e s.askWake
        exact ⟨hwake.trans hmore, hdone.imp_right fun hwaits => ⟨fun hnot => hnot.elim hopen hcandidate, hwaits⟩⟩

theorem frontMeasure_takeFront (h : s.takeFront = some t) : t.settleBooks.frontMeasure < s.frontMeasure := by
  obtain ⟨i, rest, hs, hmore, hdone⟩ := takeFront_taken h
  have hbooks := hmore.trans (noMore_settleBooks t)
  obtain hgone | ⟨hnot, hwaits⟩ := hdone
  · exact frontMeasure_of_gone hs hbooks fun hmem => hgone ((noMore_settleBooks t).subset hmem)
  · exact frontMeasure_of_waits hs hnot hbooks ((settleBooks_waits t i).mpr hwaits)

/-- With fuel enough the front is taken to its end. -/
theorem frontLoop_ends {n : Nat} {s : State} (hn : s.frontMeasure < n) : (s.frontLoop n).takeFront = none := by
  induction n generalizing s with
  | zero => exact absurd hn (Nat.not_lt_zero _)
  | succ n ih =>
    cases h : s.takeFront with
    | none => simp only [frontLoop, h]
    | some t =>
      simp only [frontLoop, h]
      exact ih (Nat.lt_of_lt_of_le (frontMeasure_takeFront h) (Nat.le_of_lt_succ hn))

end

end State

end Sys2Proof.Machine
end

section
/-! PROOFS. Orders taken at the front (O46). -/

namespace Sys2Proof.Machine

open State

namespace State

section

variable {s : State} {e : Entry} {m : Mailpiece} {k : Installed}

/-! ## The order at the front (R75) -/

theorem takeFront_none (h : ¬(s.ctl.state = .running ∨ s.ctl.state = .standby) ∨ s.front = none) : s.takeFront = none := by
  unfold takeFront
  split
  next htakes =>
    obtain h | h := h
    · exact absurd ((takesFront_iff s).mp htakes) h
    · simp only [h]
  · rfl

/-- An order stands at the front and may be taken. -/
structure AtFront (e : Entry) (s : State) : Prop where
  live : s.ctl.state = .running ∨ s.ctl.state = .standby
  front : s.front = some e

theorem AtFront.takeFront_eq (h : AtFront e s) : s.takeFront =
    if s.launch.candidate = some e.id then none
    else if s.mail.waitingOpen = some e.id then (if s.tableHasRoom then some (s.askWake.acceptOpen e) else none)
    else some (s.askWake.handleFront e) := by
  simp only [takeFront, (takesFront_iff s).mpr h.live, if_true, h.front]

theorem AtFront.candidate (h : AtFront e s) (hc : s.launch.candidate = some e.id) : s.takeFront = none := by
  rw [h.takeFront_eq, if_pos hc]

theorem AtFront.waiting_room (h : AtFront e s) (hc : s.launch.candidate ≠ some e.id) (hw : s.mail.waitingOpen = some e.id)
    (hroom : s.mail.table.length < 32) : s.takeFront = some (s.askWake.acceptOpen e) := by
  have hroom : s.tableHasRoom = true := decide_eq_true hroom
  rw [h.takeFront_eq, if_neg hc, if_pos hw, if_pos hroom]

theorem AtFront.waiting_full (h : AtFront e s) (hc : s.launch.candidate ≠ some e.id) (hw : s.mail.waitingOpen = some e.id)
    (hfull : 32 ≤ s.mail.table.length) : s.takeFront = none := by
  have hroom : ¬s.tableHasRoom = true := fun hroom => Nat.not_le.mpr (of_decide_eq_true hroom) hfull
  rw [h.takeFront_eq, if_neg hc, if_pos hw, if_neg hroom]

theorem AtFront.handled (h : AtFront e s) (hc : s.launch.candidate ≠ some e.id) (hw : s.mail.waitingOpen ≠ some e.id) :
    s.takeFront = some (s.askWake.handleFront e) := by
  rw [h.takeFront_eq, if_neg hc, if_neg hw]

/-! ## Its handling, by draft and kind -/

theorem handleFront_draft (h : e.draft ≠ none) : s.handleFront e = s.updEntry e.id fun x => { x with state := .passed } := by
  obtain ⟨d, hd⟩ := Option.ne_none_iff_exists'.mp h
  simp only [handleFront, hd]

theorem handleFront_notAllowed (h : e.draft = none) (hn : e.notAllowed = true) :
    s.handleFront e = s.setEntry e.id .passed .passed none := by
  simp only [handleFront, h, hn, if_true]

theorem handleFront_plain (h : e.draft = none) (hn : e.notAllowed = false) (hk : e.kind = .head ∨ e.kind = .ret ∨ e.kind = .nop) :
    s.handleFront e = s.setEntry e.id .passed .passed none := by
  obtain hk | hk | hk := hk <;> simp only [handleFront, h, hn, hk, Bool.false_eq_true, if_false]

theorem handleFront_open (h : e.draft = none) (hn : e.notAllowed = false) (hk : e.kind = .mpOpen) :
    s.handleFront e = s.takeOpen e := by
  simp only [handleFront, h, hn, hk, Bool.false_eq_true, if_false]

theorem handleFront_sheet (h : e.draft = none) (hn : e.notAllowed = false) (hk : e.kind = .sheet) :
    s.handleFront e = s.assignSheet e := by
  simp only [handleFront, h, hn, hk, Bool.false_eq_true, if_false]

theorem handleFront_call (h : e.draft = none) (hn : e.notAllowed = false) (hk : e.kind = .call) :
    s.handleFront e = s.takeCallAtFront e.id := by
  simp only [handleFront, h, hn, hk, Bool.false_eq_true, if_false]

theorem handleFront_pause (h : e.draft = none) (hn : e.notAllowed = false) (hk : e.kind = .pause) :
    s.handleFront e = s.takePause e.id := by
  simp only [handleFront, h, hn, hk, Bool.false_eq_true, if_false]

/-! ## CALL, PAUSE and SHEET -/

theorem takeCallAtFront_none (h : s.currentMp = none) (i : Nat) : s.takeCallAtFront i = s.setEntry i .passed .passed none := by
  simp only [takeCallAtFront, h]

theorem takeCallAtFront_some (h : s.currentMp = some m) (i : Nat) : s.takeCallAtFront i =
    if m.state = .purging then s.setEntry i .passed .skipped (some .mailpiecePurging) else s.setEntry i .passed .passed none := by
  simp only [takeCallAtFront, h]

theorem takePause_running (h : s.ctl.state ≠ .standby) (i : Nat) : s.takePause i =
    ((s.setEntry i .passed .passed none).onCtl fun u => { u with pauseRec := some i }).enterDraining :=
  if_neg (by exact h)

theorem takePause_standby (h : s.ctl.state = .standby) (i : Nat) : s.takePause i =
    ((s.setEntry i .passed .passed none).onCtl fun u => { u with pauseRec := some i }).enterHalted :=
  (if_pos (by exact h)).trans (enterHalted_setState _ _)

theorem assignSheet_none (h : s.currentMp = none) :
    s.assignSheet e = s.setEntry e.id .passed .refused (some .noMailpiece) := by
  simp only [assignSheet, h]

theorem assignSheet_purging (h : s.currentMp = some m) (hp : m.state = .purging) : s.assignSheet e = s.skipSheet e m.id := by
  simp only [assignSheet, h, hp, if_true]

theorem assignSheet_refused (h : s.currentMp = some m) (hp : m.state ≠ .purging) {why : Reason}
    (hwhy : s.sheetRefusal e.words = some why) : s.assignSheet e =
    (((s.setEntry e.id .passed .refused (some why)).updMp m.id fun r => { r with taken := r.taken + 1 }).enterPurging m.id
      .shortMailpiece).updMp m.id fun r => { r with closed := r.closed || decide (r.sheetCount ≤ r.taken) } := by
  simp only [assignSheet, h, if_neg hp, hwhy]

theorem assignSheet_candidate (h : s.currentMp = some m) (hp : m.state ≠ .purging) (hok : s.sheetRefusal e.words = none) :
    s.assignSheet e = s.onLaunch fun u => { u with candidate := some e.id } := by
  simp only [assignSheet, h, if_neg hp, hok]

theorem sheetRefusal_badTray (hk : s.config = some k) {w : OrderWords}
    (h : ¬∃ t, trayOf w.w4 = some t ∧ (k.block.trays.get t).enabled = true) : s.sheetRefusal w = some .badTray := by
  simp only [sheetRefusal, hk]
  cases ht : trayOf w.w4 with
  | none => rfl
  | some t => exact if_neg fun henabled => h ⟨t, ht, henabled⟩

theorem sheetRefusal_of_tray (hk : s.config = some k) {w : OrderWords}
    (h : ∃ t, trayOf w.w4 = some t ∧ (k.block.trays.get t).enabled = true) :
    s.sheetRefusal w = if modeOf w.w5 = .direct ∨ s.clock.loopUnusable = false then none else some .noLoop := by
  obtain ⟨t, ht, henabled⟩ := h
  simp only [sheetRefusal, hk, ht, henabled, if_true]

end

end State

/-- Settles O46: the loops end by their measures, and the front order is handled by its draft and kind. -/
theorem ordersTakenAtTheFront : Obligations.OrdersTakenAtTheFront := by
  refine ⟨⟨fun s => ⟨rfl, fun _ => rfl, frontLoop_ends s.frontMeasure_lt_fuel⟩, fun s => takeFront_none, fun e s hlive hfront => ?_⟩,
    fun s => ⟨rfl, rfl, fun hw => ?_, retireAll_of_none, fun t => retireAll_of_some, retireAll_ends s⟩, fun e s => rfl⟩
  rotate_left
  · simp only [retireMove, hw]
  have h : AtFront e s := ⟨hlive, hfront⟩
  intro asked becomes passed counted
  have hasked : s.askWake = asked := askWake_eq s
  refine ⟨h.candidate, fun hc hw => ⟨fun hroom => ?_, fun hfull => h.waiting_full hc hw hfull⟩, fun hc hw => ?_⟩
  · rw [h.waiting_room hc hw hroom, hasked]
  have hhandled : s.takeFront = some (asked.handleFront e) := hasked ▸ h.handled hc hw
  refine ⟨fun hd => ?_, fun hd hn => ?_, fun hd hn => ?_⟩
  · rw [hhandled, handleFront_draft hd]
    rfl
  · rw [hhandled, handleFront_notAllowed hd hn]
    rfl
  refine ⟨fun hk => ?_, fun hk => ?_, fun hk => ?_, fun hk => ?_, fun hk hm => ?_, fun m hk hm hp => ?_, fun m k hk hm hp hconfig => ?_⟩
  · rw [hhandled, handleFront_plain hd hn hk]
    rfl
  · rw [hhandled, handleFront_call hd hn hk]
    cases hm : s.currentMp with
    | none => exact congrArg some (takeCallAtFront_none (s := asked) hm e.id)
    | some m => exact congrArg some (takeCallAtFront_some (s := asked) hm e.id)
  · intro recorded
    rw [hhandled, handleFront_pause hd hn hk]
    refine ⟨fun hrun => ?_, fun hstandby => ?_⟩
    · rw [takePause_running (by exact hrun ▸ (by decide))]
      rfl
    · rw [takePause_standby (by exact hstandby)]
      rfl
  · rw [hhandled, handleFront_open hd hn hk]
    refine ⟨fun hm => rfl, fun m hm => ?_⟩
    rw [takeOpen_current (by exact hm)]
  · rw [hhandled, handleFront_sheet hd hn hk, assignSheet_none (by exact hm)]
    rfl
  · rw [hhandled, handleFront_sheet hd hn hk, assignSheet_purging (by exact hm) hp]
    rfl
  · intro trayOk loopOk refused
    rw [hhandled, handleFront_sheet hd hn hk]
    refine ⟨fun htray => ?_, fun htray hloop => ?_, fun htray hloop => ?_⟩
    · rw [assignSheet_refused (by exact hm) hp (sheetRefusal_badTray (by exact hconfig) htray)]
      rfl
    · have hrefused : asked.sheetRefusal e.words = some .noLoop :=
        (sheetRefusal_of_tray (by exact hconfig) htray).trans (if_neg hloop)
      rw [assignSheet_refused (by exact hm) hp hrefused]
      rfl
    · have hok : asked.sheetRefusal e.words = none := (sheetRefusal_of_tray (by exact hconfig) htray).trans (if_pos hloop)
      rw [assignSheet_candidate (by exact hm) hp hok]
      rfl

end Sys2Proof.Machine
end

section
/-! PROOFS. The retirement of an entry (O50). -/

namespace Sys2Proof.Machine

open State

/-! ## The write sequence (R132 to R134, R175) -/

/-- The result steps that come before the disposition. -/
def resultSteps (e : Entry) : List RetireStep :=
  match e.kind with
  | .mpOpen => [.result 0, .result 1, .result 2, .result 3, .result 4]
  | .call => [.result 0, .result 1, .result 2, .result 3]
  | .sheet | .ret | .head | .pause | .nop | .unknown => []

/-- The steps every entry ends with. -/
def lastSteps : List RetireStep := [.counter 0, .counter 1, .counter 2, .counter 3, .counter 4, .lastAddress, .count]

theorem retireSteps_eq (e : Entry) : e.retireSteps = (resultSteps e ++ [.disposition]) ++ lastSteps := by
  cases h : e.kind <;> simp only [Entry.retireSteps, resultSteps, lastSteps, h] <;> rfl

theorem retireSteps_open {e : Entry} (h : e.kind = .mpOpen) : resultSteps e = [.result 0, .result 1, .result 2, .result 3, .result 4] := by
  simp only [resultSteps, h]

theorem retireSteps_call {e : Entry} (h : e.kind = .call) : resultSteps e = [.result 0, .result 1, .result 2, .result 3] := by
  simp only [resultSteps, h]

theorem retirable_iff (e : Entry) : e.retirable = true ↔ e.state = .settled ∨ (e.state = .passed ∧
    (e.kind = .sheet ∨ e.kind = .ret ∨ e.kind = .head ∨ e.kind = .nop ∨ e.kind = .unknown
      ∨ ((e.kind = .mpOpen ∨ e.kind = .pause) ∧ e.notAllowed = true)
      ∨ (e.kind = .pause ∧ e.draft.map (·.result) = some .skipped)
      ∨ (e.kind = .call ∧ e.callStatus = .notEntered))) := by
  unfold Entry.retirable
  cases e.state with
  | fetched | launched | settled => simp
  | passed => cases e.kind <;> simp

theorem binCode_eq (b : Option Bin) : binCode b = b.elim 0 (Bin.order.idxOf · + 1) := by
  cases b with
  | none => rfl
  | some b => cases b <;> rfl

/-! ## The disposition word (R176) -/

theorem extract_byte_low (a b : Nat) :
    (BitVec.ofNat 32 (a + 256 * b)).extractLsb' 0 8 = BitVec.ofNat 8 a := by
  apply BitVec.eq_of_toNat_eq
  simp only [BitVec.extractLsb'_toNat, BitVec.toNat_ofNat, Nat.shiftRight_zero]
  omega

theorem extract_byte_high {a b : Nat} (ha : a < 256) :
    (BitVec.ofNat 32 (a + 256 * b)).extractLsb' 8 8 = BitVec.ofNat 8 b := by
  apply BitVec.eq_of_toNat_eq
  simp only [BitVec.extractLsb'_toNat, BitVec.toNat_ofNat, Nat.shiftRight_eq_div_pow]
  omega

theorem extract_upper {a b : Nat} (ha : a < 256) (hb : b < 256) :
    (BitVec.ofNat 32 (a + 256 * b)).extractLsb' 16 16 = 0#16 := by
  apply BitVec.eq_of_toNat_eq
  simp only [BitVec.extractLsb'_toNat, BitVec.toNat_ofNat, Nat.shiftRight_eq_div_pow]
  omega

theorem resultCode_lt (r : Result) : r.code < 256 := by
  cases r <;> decide

theorem reasonCode_lt (why : Option Reason) : reasonCode why < 256 := by
  cases why with
  | none => decide
  | some why => cases why <;> decide

theorem reasonCode_eq (why : Option Reason) : reasonCode why = why.elim 0 Reason.code := by
  cases why <;> rfl

namespace State

/-! ## The moves (R128, R135) -/

section

variable {s : State} {e : Entry} {rest : List Entry}

theorem retireMove_waits (hw : s.fetch.window = e :: rest) (h : e.retirable = false) : s.retireMove = none := by
  simp only [retireMove, hw, h, Bool.not_false, Bool.true_or, if_true]

theorem retireMove_held (h : ∃ h ∈ s.mem.held, h.steps = .retire) : s.retireMove = none := by
  have hheld : s.retireHeld = true := by simpa [retireHeld] using h
  unfold retireMove
  cases s.fetch.window with
  | nil => rfl
  | cons e rest => exact if_pos (by simp [hheld])

theorem retireMove_removes (hw : s.fetch.window = e :: rest) (h : e.retirable = true) (hheld : s.retireHeld = false)
    (hend : e.chain = .sequence ∨ e.retireSteps.length ≤ s.retire.step.getD 0) :
    s.retireMove = some (s.removeHead e rest) := by
  simp only [retireMove, hw, h, hheld, Bool.not_true, Bool.or_self, Bool.false_eq_true, if_false]
  by_cases hseq : e.chain = .sequence
  · rw [if_pos hseq]
  · have hnone : e.retireSteps[s.retire.step.getD 0]? = none := List.getElem?_eq_none (hend.resolve_left hseq)
    rw [if_neg hseq, hnone]

theorem retireMove_writes (hw : s.fetch.window = e :: rest) (h : e.retirable = true) (hheld : s.retireHeld = false)
    (hseq : e.chain ≠ .sequence) {x : RetireStep} (hx : e.retireSteps[s.retire.step.getD 0]? = some x) :
    s.retireMove = some ((s.retireAdvance x (s.retire.step.getD 0)).issueWrite (s.retireWrite e x) .retire id) := by
  simp only [retireMove, hw, h, hheld, Bool.not_true, Bool.or_self, Bool.false_eq_true, if_false, if_neg hseq, hx]

/-- The batch of retirements that one interrupt stands for (R136). -/
def batchOf (s : State) : Nat := s.config.elim 1 fun k => max 1 k.block.retireBatch

theorem retireBatch_eq (s : State) : s.retireBatch = s.batchOf := by
  unfold retireBatch batchOf
  cases s.config <;> rfl

theorem nextRetired_toNat (s : State) : (s.retire.retired + 1).toNat = (s.retire.retired.toNat + 1) % 4294967296 := by
  rw [BitVec.toNat_add]
  rfl

theorem retireAdvance_eq (x : RetireStep) (n : Nat) (s : State) : s.retireAdvance x n = { s with retire := { s.retire with
    step := some (n + 1)
    retired := if x = .count then s.retire.retired + 1 else s.retire.retired
    batching := if x = .count then (s.retire.retired.toNat + 1) % 4294967296 % s.batchOf else s.retire.batching } } := by
  rw [← retireBatch_eq, ← nextRetired_toNat]
  cases x <;> rfl

theorem removeHead_eq (e : Entry) (rest : List Entry) (s : State) : (s.removeHead e rest).fetch = { s.fetch with window := rest }
    ∧ (s.removeHead e rest).retire = { s.retire with step := none } ∧ (s.removeHead e rest).mem = s.mem
    ∧ (s.removeHead e rest).mail.table = if (s.mpOfOpen e.id).isSome then s.mail.table.filter (·.openRef ≠ e.id)
      else s.mail.table := by
  by_cases h : (s.mpOfOpen e.id).isSome = true
  · have hremoved : s.removeHead e rest = (onMail (fun u => { u with table := u.table.filter (·.openRef ≠ e.id) })
        { s with fetch := { s.fetch with window := rest }, retire := { s.retire with step := none } }).askWake :=
      if_pos h
    rw [hremoved, askWake_eq, if_pos h]
    exact ⟨rfl, rfl, rfl, rfl⟩
  · have hremoved : s.removeHead e rest
        = { s with fetch := { s.fetch with window := rest }, retire := { s.retire with step := none } } := if_neg h
    rw [hremoved, if_neg h]
    exact ⟨rfl, rfl, rfl, rfl⟩

/-- The unit after a write of step x has been issued (R136, R137). -/
def advanced (x : RetireStep) (s : State) : Retire := { s.retire with
  step := some (s.retire.step.getD 0 + 1)
  retired := if x = .count then s.retire.retired + 1 else s.retire.retired
  batching := if x = .count then (s.retire.retired.toNat + 1) % 4294967296 % s.batchOf else s.retire.batching }

theorem retireMove_room (hw : s.fetch.window = e :: rest) (h : e.retirable = true) (hheld : s.retireHeld = false)
    (hseq : e.chain ≠ .sequence) {x : RetireStep} (hx : e.retireSteps[s.retire.step.getD 0]? = some x)
    (hroom : s.queueHasRoom = true) : s.retireMove = some { s with
      retire := s.advanced x, mem := { s.mem with queue := s.mem.queue ++ [s.retireWrite e x] } } := by
  rw [retireMove_writes hw h hheld hseq hx, retireAdvance_eq, issueWrite_room (by exact hroom)]
  rfl

theorem retireMove_full (hw : s.fetch.window = e :: rest) (h : e.retirable = true) (hheld : s.retireHeld = false)
    (hseq : e.chain ≠ .sequence) {x : RetireStep} (hx : e.retireSteps[s.retire.step.getD 0]? = some x)
    (hroom : s.queueHasRoom = false) : s.retireMove = some { s with
      retire := s.advanced x, mem := { s.mem with held := s.mem.held ++ [⟨s.retireWrite e x, .retire⟩] } } := by
  rw [retireMove_writes hw h hheld hseq hx, retireAdvance_eq, issueWrite_full (by exact hroom)]
  rfl

/-! ## What is written -/

theorem retireWrite_class (e : Entry) (x : RetireStep) : (s.retireWrite e x).cls = 5 ∧ (s.retireWrite e x).tag =
    if x = .count ∧ decide ((s.retire.retired.toNat + 1) % 4294967296 % s.batchOf = 0) = true then .retiredCount else .plain := by
  cases x with
  | count =>
    refine ⟨rfl, ?_⟩
    simp only [retireWrite, retireBatch_eq, nextRetired_toNat, true_and, decide_eq_true_eq]
  | result | disposition | counter | lastAddress => exact ⟨rfl, rfl⟩

theorem openResult_record {m : Mailpiece} (hm : s.mpOfOpen e.id = some m) :
    [s.openResult e 0, s.openResult e 1, s.openResult e 2, s.openResult e 3, s.openResult e 4]
      = [(mpOutcome m).result.code, m.bin.elim 0 (Bin.order.idxOf · + 1), m.stacked, m.purged, m.lost] := by
  simp only [openResult, hm, binCode_eq]

theorem openResult_refused (hm : s.mpOfOpen e.id = none) :
    [s.openResult e 0, s.openResult e 1, s.openResult e 2, s.openResult e 3, s.openResult e 4] = [5, 0, 0, 0, 0] := by
  simp only [openResult, hm]
  rfl

theorem written_open (h : e.kind = .mpOpen) : (e.retireSteps.map fun x => (s.retireWrite e x).value).take 5
    = [s.openResult e 0, s.openResult e 1, s.openResult e 2, s.openResult e 3, s.openResult e 4].map (BitVec.ofNat 32) := by
  have hcall : ¬e.kind = .call := by simp [h]
  rw [retireSteps_eq, retireSteps_open h]
  simp [retireWrite, if_neg hcall]

theorem written_call (h : e.kind = .call) : (e.retireSteps.map fun x => (s.retireWrite e x).value).take 4
    = [BitVec.ofNat 32 e.summary.stacked, BitVec.ofNat 32 e.summary.purged, BitVec.ofNat 32 e.summary.lost,
        if e.summary.fault then 1 else 0] := by
  rw [retireSteps_eq, retireSteps_call h]
  cases hf : e.summary.fault <;> simp [retireWrite, h, callResult, hf]

/-! ## CALLs (R130) -/

theorem callSettles_iff : s.callSettles e = true ↔ e.kind = .call ∧ e.state = .passed ∧ e.callStatus = .left
    ∧ (e.chain = .sequence ∨ ∀ x ∈ s.fetch.window, x.kind = .sheet → x.caller = some e.id →
        x.state = .settled ∨ (x.state = .passed ∧ x.draft ≠ none)) := by
  simp only [callSettles, sheetFinished, Bool.and_eq_true, Bool.or_eq_true, beq_iff_eq, List.all_eq_true, Bool.not_eq_true',
    Bool.and_eq_false_imp, and_assoc, Option.isSome_iff_ne_none,
    beq_eq_false_iff_ne]
  refine and_congr_right fun _ => and_congr_right fun _ => and_congr_right fun _ => or_congr_right ?_
  refine forall_congr' fun x => imp_congr_right fun _ => ?_
  by_cases hsheet : x.kind = .sheet
  · by_cases hcaller : x.caller = some e.id
    · simp [hsheet, hcaller]
    · simp [hsheet, hcaller]
  · simp [hsheet]

end

end State

/-- Settles O50: the sequence, the moves, and what each write carries. -/
theorem retirementSequence : Obligations.RetirementSequence := by
  refine ⟨fun e s => ⟨?_, ?_, rfl, fun rest x n hw h hheld hseq hn hx hroom => ?_, fun rest hw h hheld hend => ?_,
    fun rest hw h => retireMove_waits hw h⟩, fun e s => ?_, rfl, rfl, fun d => ⟨?_, ?_, ?_⟩, fun e s => ⟨callSettles_iff, rfl⟩⟩
  · cases hk : e.kind <;> simp only [Entry.retireSteps, hk] <;> rfl
  · cases hk : e.kind <;> simp only [Entry.retireSteps, hk] <;> rfl
  · subst hn
    refine ⟨_, retireMove_room hw h hheld hseq hx hroom, rfl, rfl, rfl, rfl⟩
  · obtain ⟨hfetch, hretire, hmem, htable⟩ := removeHead_eq e rest s
    exact ⟨_, retireMove_removes hw h hheld hend, hfetch, hretire, hmem, htable⟩
  · intro written n batch full
    refine ⟨fun m hk hm => ?_, fun hk hm => ?_, fun hk => written_call hk, fun d hd => ?_, retireWrite_class e, retirable_iff e,
      fun rest x hw h hheld hseq hx => ⟨retireMove_room hw h hheld hseq hx, retireMove_full hw h hheld hseq hx⟩, retireMove_held⟩
    · rw [written_open hk, openResult_record hm]
      rfl
    · rw [written_open hk, openResult_refused hm]
      rfl
    · simp only [retireWrite, dispositionOf, hd, Option.getD_some]
  · rw [dispositionWord, extract_byte_low]
  · rw [dispositionWord, extract_byte_high (resultCode_lt _), reasonCode_eq]
  · exact extract_upper (resultCode_lt _) (reasonCode_lt _)

end Sys2Proof.Machine
end

section
/-! PROOFS. The end of an event (O55). -/

namespace Sys2Proof.Machine

open State

namespace State

section

variable {s : State}

/-! ## Nothing to do -/

theorem settleCalls_quiet (h : ∀ e ∈ s.fetch.window, s.callSettles e = false) : s.settleCalls = s := by
  have hmap : (s.fetch.window.map fun e => if s.callSettles e then { e with state := EntryState.settled } else e)
      = s.fetch.window :=
    (List.map_congr_left fun e he => if_neg (Bool.eq_false_iff.mp (h e he))).trans (List.map_id _)
  have hfetch : s.settleCalls.fetch = s.fetch := by
    show ({ s.fetch with window := _ } : Fetch) = s.fetch
    rw [hmap]
  exact ext_parts rfl rfl hfetch rfl rfl rfl rfl rfl rfl rfl rfl rfl rfl rfl rfl

theorem settleMailpieces_quiet {jam : Bool} (h : ∀ m ∈ s.mail.table, mpSettles jam m = false) : s.settleMailpieces jam = s := by
  unfold settleMailpieces
  generalize hl : s.mail.table = l at h
  clear hl
  induction l with
  | nil => rfl
  | cons m rest ih =>
    rw [List.forall_mem_cons] at h
    rw [List.foldl_cons, settleMp_kept h.1]
    exact ih h.2

theorem retireMove_quiet (h : s.retireQuiet = true) : s.retireMove = none := by
  cases hw : s.fetch.window with
  | nil => simp only [retireMove, hw]
  | cons e rest =>
    simp only [retireQuiet, hw] at h
    simp only [retireMove, hw]
    exact if_pos h

theorem beginStopRecord_quiet (h : s.retireQuiet = true) : s.beginStopRecord = s := by
  refine if_neg fun hdue => ?_
  have hw : s.fetch.window = [] := List.isEmpty_iff.mp hdue.2
  simp only [retireQuiet, hw, hdue.1, Bool.not_true, Bool.false_eq_true] at h

theorem takeFront_quiet (h : s.frontQuiet = true) : s.takeFront = none := by
  unfold frontQuiet at h
  split at h
  next hfront => exact takeFront_none (.inr hfront)
  next e hfront =>
    by_cases hlive : s.ctl.state = .running ∨ s.ctl.state = .standby
    · rw [(takesFront_iff s).mpr hlive] at h
      simp only [Bool.not_true, Bool.false_or, Bool.or_eq_true, Bool.and_eq_true, beq_iff_eq, Bool.not_eq_true'] at h
      have hat : AtFront e s := ⟨hlive, hfront⟩
      by_cases hc : s.launch.candidate = some e.id
      · exact hat.candidate hc
      · obtain ⟨hopen, hfull⟩ := h.resolve_left hc
        exact hat.waiting_full hc hopen (Nat.not_lt.mp (of_decide_eq_false hfull))
    · exact takeFront_none (.inl hlive)

theorem frontLoop_quiet (h : s.takeFront = none) (n : Nat) : s.frontLoop n = s := by
  cases n with
  | zero => rfl
  | succ n => simp only [frontLoop, h]

theorem issueReads_quiet (h : s.fetches = false ∨ s.fetch.read.isSome = true ∨ s.fetchHeld = true ∨ s.wantedRead = none) :
    s.issueReads = s := by
  unfold issueReads
  split
  next hissue =>
    obtain ⟨hfetches, hread, hheld⟩ := hissue
    have hnone : s.wantedRead = none := by simpa [hfetches, hread, hheld] using h
    simp only [hnone]
  · rfl

theorem grant_quiet (h : s.mem.bus.isSome = true ∨ s.nextAccess = none) : s.grant = s :=
  h.elim (fun hbus => grant_busy (Option.isSome_iff_ne_none.mp hbus)) grant_none

theorem finish_quiet (h : s.atRest = true) : s.finish = s := by
  simp only [atRest, Bool.and_eq_true, List.all_eq_true, Bool.not_eq_true', Bool.or_eq_true, Option.isNone_iff_eq_none,
    or_assoc] at h
  obtain ⟨⟨⟨⟨⟨⟨⟨honce, hcalls⟩, hmail⟩, hretire⟩, hfront⟩, hwake⟩, hread⟩, hbus⟩ := h
  have hbooks : s.settleBooks = s := by
    rw [settleBooks, settleCalls_quiet hcalls, settleMailpieces_quiet hmail, retireAll_of_none (retireMove_quiet hretire),
      beginStopRecord_quiet hretire]
  simp only [finish]
  rw [takeAtOnce_none honce, hbooks, frontLoop_quiet (takeFront_quiet hfront), evaluateWake_notAsked hwake,
    issueReads_quiet hread, grant_quiet hbus]

end

end State

/-- Settles O55, by the frame of `finish` and, at rest, step by step. -/
theorem endOfEvent : Obligations.EndOfEvent := by
  refine ⟨fun s => ⟨_, rfl, ?_⟩, fun s h => finish_quiet h⟩
  simp only [finish_frame, true_and]
  exact fun f hf => flagOn_finish hf

end Sys2Proof.Machine
end

section
/-! PROOFS. The writes of the stop record (O54). -/

namespace Sys2Proof.Machine

open State

namespace State

/-! ## The words in their order (R154, R178) -/

/-- The write of word k of the stop record. -/
def recordWrite (s : State) (p : Nat × Word) : Write := ⟨2, s.controlWord p.1, p.2, if p.1 = 159 then .validWord else .plain⟩

/-- Words 23 to 29: the later causes, the resume points and the number of stranded sheets. -/
def fixedWords (j : Jam) : List (Nat × Word) :=
  [(23, j.secondary), (24, optCode Cause.code (j.lastSecondary.map (·.1))),
    (25, optCode Place.code (j.lastSecondary.map (·.2))), (26, j.mainResume),
    (27, BitVec.ofNat 32 j.mainResync.toNat), (28, j.recoveryResume),
    (29, BitVec.ofNat 32 j.stranded.length)]

/-- The words of the stranded sheets. -/
def allStrandedWords (j : Jam) : List (Nat × Word) := j.stranded.zipIdx.flatMap fun (x, i) => strandedWords i x

/-- The words of the interrupted mailpieces. -/
def interruptedWords (j : Jam) : List (Nat × Word) := j.interrupted.zipIdx.map fun (n, i) => (127 + i, n)

theorem stopRecordWrites_eq (s : State) : s.stopRecordWrites =
    (primaryWords s.jam.primary).map s.recordWrite ++ ((fixedWords s.jam).map s.recordWrite
      ++ ((allStrandedWords s.jam).map s.recordWrite ++ (s.recordWrite (126, BitVec.ofNat 32 s.jam.interrupted.length)
        :: ((interruptedWords s.jam).map s.recordWrite ++ [s.recordWrite (159, s.jam.seq)])))) := by
  rw [stopRecordWrites, stopRecordWords]
  simp only [List.map_append, List.append_assoc]
  rfl

/-- The valid word is written last. -/
theorem stopRecordWrites_last (s : State) : ∃ before, s.stopRecordWrites = before ++ [s.recordWrite (159, s.jam.seq)] := by
  rw [stopRecordWrites, stopRecordWords, List.map_append]
  exact ⟨_, rfl⟩

theorem primaryWords_length (p : Option PrimaryCause) : (primaryWords p).length = 7 := by
  cases p <;> rfl

theorem allStrandedWords_length (j : Jam) : (allStrandedWords j).length = 4 * j.stranded.length := by
  rw [allStrandedWords, List.length_flatMap]
  have hfour : (j.stranded.zipIdx.map fun (x, i) => (strandedWords i x).length) = List.replicate j.stranded.length 4 := by
    rw [List.eq_replicate_iff]
    refine ⟨by simp, fun n hn => ?_⟩
    obtain ⟨p, -, rfl⟩ := List.mem_map.mp hn
    rfl
  rw [hfour, List.sum_replicate_nat]
  simp [Nat.mul_comm]

theorem interruptedWords_length (j : Jam) : (interruptedWords j).length = j.interrupted.length := by
  simp [interruptedWords]

theorem fixedWords_length (j : Jam) : (fixedWords j).length = 7 := rfl

theorem recordWrite_plain (s : State) {k offset : Nat} (hk : 4 * k = offset) (h : k ≠ 159) (v : Word) :
    s.recordWrite (k, v) = ⟨2, s.ctl.area + BitVec.ofNat 32 offset, v, .plain⟩ := by
  subst hk
  rw [recordWrite, if_neg h]
  rfl

theorem strandedWrites_eq (s : State) {i : Nat} (hi : i < 24) (x : Stranded) : (strandedWords i x).map s.recordWrite =
    [⟨2, s.ctl.area + BitVec.ofNat 32 (120 + 16 * i), x.addr, .plain⟩,
      ⟨2, s.ctl.area + BitVec.ofNat 32 (124 + 16 * i), x.number, .plain⟩,
      ⟨2, s.ctl.area + BitVec.ofNat 32 (128 + 16 * i), BitVec.ofNat 32 x.index, .plain⟩,
      ⟨2, s.ctl.area + BitVec.ofNat 32 (132 + 16 * i), optCode Checkpoint.code x.last, .plain⟩] := by
  simp only [strandedWords, List.map_cons, List.map_nil]
  rw [recordWrite_plain s (offset := 120 + 16 * i) (by omega) (by omega),
    recordWrite_plain s (offset := 124 + 16 * i) (by omega) (by omega),
    recordWrite_plain s (offset := 128 + 16 * i) (by omega) (by omega),
    recordWrite_plain s (offset := 132 + 16 * i) (by omega) (by omega)]

/-! ## Parts of a list -/

theorem drop_take_flatMap {α β : Type} {f : α → List β} (hf : ∀ a, (f a).length = 4) {l : List α} {i : Nat} {a : α}
    (h : l[i]? = some a) (rest : List β) : ((l.flatMap f ++ rest).drop (4 * i)).take 4 = f a := by
  induction l generalizing i with
  | nil => simp at h
  | cons b l ih =>
    rw [List.flatMap_cons, List.append_assoc]
    cases i with
    | zero =>
      cases h
      rw [Nat.mul_zero, List.drop_zero, List.take_left' (hf _)]
    | succ i =>
      have hdrop : 4 * (i + 1) = (f b).length + 4 * i := by rw [hf]; omega
      rw [hdrop, List.drop_length_add_append]
      exact ih h

theorem getElem?_past {α : Type} {l r : List α} {n : Nat} (hn : l.length = n) (i : Nat) : (l ++ r)[n + i]? = r[i]? := by
  subst hn
  rw [List.getElem?_append_right (Nat.le_add_right _ _), Nat.add_sub_cancel_left]

/-! ## The writes are issued (R54, R154) -/

theorem queueHasRoom_of_lt {s : State} (h : s.mem.queue.length < 16) : s.queueHasRoom = true := decide_eq_true h

theorem queueHasRoom_of_le {s : State} (h : 16 ≤ s.mem.queue.length) : s.queueHasRoom = false :=
  decide_eq_false (Nat.not_lt.mpr h)

theorem issueStopRecord_fits {ws : List Write} {s : State} (h : ws.length ≤ 16 - s.mem.queue.length) :
    issueStopRecord ws s = { s with
      jam := { s.jam with recordIssued := true }, mem := { s.mem with queue := s.mem.queue ++ ws } } := by
  induction ws generalizing s with
  | nil =>
    rw [issueStopRecord, List.append_nil]
    rfl
  | cons w rest ih =>
    rw [List.length_cons] at h
    rw [issueStopRecord_room (queueHasRoom_of_lt (by omega)), ih]
    · simp
    · simp
      omega

theorem issueStopRecord_held {ws : List Write} {s : State} {w : Write} {rest : List Write}
    (h : ws.drop (16 - s.mem.queue.length) = w :: rest) :
    issueStopRecord ws s = { s with mem := { s.mem with
      queue := s.mem.queue ++ ws.take (16 - s.mem.queue.length)
      held := s.mem.held ++ [⟨w, .stopRecord rest⟩] } } := by
  induction ws generalizing s with
  | nil => simp at h
  | cons v more ih =>
    by_cases hroom : s.mem.queue.length < 16
    · obtain ⟨n, hn⟩ : ∃ n, 16 - s.mem.queue.length = n + 1 := ⟨15 - s.mem.queue.length, by omega⟩
      have hnext : 16 - (s.mem.queue ++ [v]).length = n := by
        rw [List.length_append, List.length_singleton]
        omega
      rw [hn, List.drop_succ_cons] at h
      rw [issueStopRecord_room (queueHasRoom_of_lt hroom), ih (by exact hnext ▸ h), hn]
      simp only [hnext, List.take_succ_cons, List.append_assoc, List.singleton_append]
    · have hnone : 16 - s.mem.queue.length = 0 := by omega
      rw [hnone, List.drop_zero] at h
      cases h
      rw [issueStopRecord_full (queueHasRoom_of_le (Nat.not_lt.mp hroom)), hnone, List.take_zero, List.append_nil]

theorem beginStopRecord_idle {s : State} (h : ¬(s.jam.recordDue = true ∧ s.fetch.window = [])) : s.beginStopRecord = s :=
  if_neg fun hdue => h ⟨hdue.1, List.isEmpty_iff.mp hdue.2⟩

theorem beginStopRecord_due {s : State} (hdue : s.jam.recordDue = true) (hw : s.fetch.window = []) :
    s.beginStopRecord = issueStopRecord s.stopRecordWrites (s.onJam fun u => { u with recordDue := false }) :=
  if_pos ⟨hdue, List.isEmpty_iff.mpr hw⟩

end State

/-- Settles O54: the parts of the record at their places, and its writes as the queue has room. -/
theorem stopRecordWrites : Obligations.StopRecordWrites := by
  refine ⟨fun s => ?_, fun s => ?_⟩
  · intro at_ n l writes
    have hwrites : writes = _ := stopRecordWrites_eq s
    refine ⟨?_, fun p hp => ?_, ?_, fun i x hi hx => ?_, ?_, fun i v hi hv => ?_, ?_⟩
    · rw [hwrites]
      simp only [List.length_append, List.length_map, List.length_cons, List.length_nil, primaryWords_length,
        allStrandedWords_length, interruptedWords_length, fixedWords]
      omega
    · rw [hwrites, List.take_left' (by rw [List.length_map, primaryWords_length]), hp]
      rfl
    · rw [hwrites, List.drop_left' (by rw [List.length_map, primaryWords_length]),
        List.take_left' (by rw [List.length_map, fixedWords_length])]
      unfold fixedWords
      cases s.jam.lastSecondary <;> cases s.jam.mainResync <;> rfl
    · have hfour : ∀ p : Stranded × Nat, ((strandedWords p.2 p.1).map s.recordWrite).length = 4 := fun p => rfl
      have hplace : s.jam.stranded.zipIdx[i]? = some (x, i) := by simp [hx]
      have hdrop : 14 + 4 * i = ((primaryWords s.jam.primary).map s.recordWrite).length
          + (((fixedWords s.jam).map s.recordWrite).length + 4 * i) := by
        rw [List.length_map, List.length_map, primaryWords_length, fixedWords_length]
        omega
      rw [hwrites, hdrop, List.drop_length_add_append, List.drop_length_add_append, allStrandedWords, List.map_flatMap]
      rw [drop_take_flatMap hfour hplace, strandedWrites_eq s hi]
      cases x.last <;> rfl
    · have hat : 14 + 4 * n = 7 + (7 + (4 * n + 0)) := by omega
      rw [hwrites, hat, getElem?_past (by rw [List.length_map, primaryWords_length]),
        getElem?_past (by rw [List.length_map, fixedWords_length]),
        getElem?_past (by rw [List.length_map, allStrandedWords_length])]
      rfl
    · have hat : 15 + 4 * n + i = 7 + (7 + (4 * n + (i + 1))) := by omega
      rw [hwrites, hat, getElem?_past (by rw [List.length_map, primaryWords_length]),
        getElem?_past (by rw [List.length_map, fixedWords_length]),
        getElem?_past (by rw [List.length_map, allStrandedWords_length]), List.getElem?_cons_succ]
      have hword : ((interruptedWords s.jam).map s.recordWrite)[i]? = some (s.recordWrite (127 + i, v)) := by
        simp [interruptedWords, hv]
      rw [List.getElem?_append_left (List.getElem?_eq_some_iff.mp hword).1, hword,
        recordWrite_plain s (offset := 508 + 4 * i) (by omega) (by omega)]
    · obtain ⟨before, hlast⟩ := stopRecordWrites_last s
      rw [show writes = _ from hlast, List.getLast?_concat]
      rfl
  · intro writes room
    refine ⟨beginStopRecord_idle, fun hdue hw hfits => ?_, fun w rest hdue hw hdrop => ?_⟩
    · rw [beginStopRecord_due hdue hw, issueStopRecord_fits (by exact hfits)]
      rfl
    · rw [beginStopRecord_due hdue hw, issueStopRecord_held (by exact hdrop)]
      rfl

end Sys2Proof.Machine
end

section
/-! PROOFS. Sheets settled LOST at JAMMED entry (for O52, O53). -/

namespace Sys2Proof.Machine

open State

namespace State

/-! ## One sheet settles LOST (R150) -/

theorem reportLost_eq (x : Sheet) (s : State) : s.reportLost x = { s with mail := { s.mail with
    table := s.mail.table.map fun m => if m.id = x.mp then { m with lost := m.lost + 1 } else m
    bins := match x.committed, x.dest with
      | true, some (.stk b) => s.mail.bins.set b { s.mail.bins.get b with reserved := (s.mail.bins.get b).reserved - 1 }
      | _, _ => s.mail.bins } } := by
  unfold reportLost
  cases x.committed with
  | false => rfl
  | true =>
    cases x.dest with
    | none => rfl
    | some d => cases d <;> rfl

/-- The place of a sheet in the stop record (R150, R154). -/
def strandedItem (s : State) (x : Sheet) : Stranded :=
  { addr := (s.findEntry x.order).elim 0 (·.addr), number := (s.findMp x.mp).elim 0 (·.number), index := x.index, last := x.last }

theorem strandedItem_eq (s : State) (x : Sheet) :
    (⟨s.entryAddr x.order, s.mailpieceNumber x.mp, x.index, x.last⟩ : Stranded) = s.strandedItem x := by
  have haddr : s.entryAddr x.order = (s.findEntry x.order).elim 0 (·.addr) := by
    unfold entryAddr
    cases s.findEntry x.order <;> rfl
  have hnumber : s.mailpieceNumber x.mp = (s.findMp x.mp).elim 0 (·.number) := by
    unfold mailpieceNumber
    cases s.findMp x.mp <;> rfl
  rw [haddr, hnumber, strandedItem]

theorem settleLost_eq (x : Sheet) (s : State) : s.settleLost x = { s with
    jam := { s.jam with stranded := s.jam.stranded ++ [s.strandedItem x] }
    mail := { s.mail with
      table := s.mail.table.map fun m => if m.id = x.mp then { m with lost := m.lost + 1 } else m
      bins := match x.committed, x.dest with
        | true, some (.stk b) =>
          s.mail.bins.set b { s.mail.bins.get b with reserved := (s.mail.bins.get b).reserved - 1 }
        | _, _ => s.mail.bins }
    retire := { s.retire with lost := s.retire.lost + 1 }
    fetch := { s.fetch with window := s.fetch.window.map fun e =>
      { e with
        state := if e.id = x.order then .settled else e.state
        draft := if e.id = x.order then some ⟨.lost, some .jam⟩ else e.draft
        summary := if (s.findEntry x.order).bind (·.caller) = some e.id then { e.summary with lost := e.summary.lost + 1 }
          else e.summary } }
    clock := { s.clock with ring := s.clock.ring.filter (·.track ≠ x.id) }
    track := { s.track with
      sheets := s.track.sheets.filter (·.id ≠ x.id)
      queues := s.track.queues.map fun q => q.filter (· ≠ x.id)
      fifo := s.track.fifo.map fun t => if t.track = x.id then { t with live := false } else t }
    transport := { s.transport with compares := s.transport.compares.filter fun q => !q.owner.isOf x.id } } := by
  unfold settleLost
  dsimp only
  rw [strandedItem_eq, reportLost_eq, setEntry_sumIntoCaller]
  rfl

/-! ## All of them (R150) -/

theorem elim_eq_getD_map {α : Type} (o : Option α) (d : Word) (f : α → Word) : o.elim d f = (o.map f).getD d := by
  cases o <;> rfl

theorem findEntry_settleLost (x : Sheet) (o : Nat) (s : State) :
    ((s.settleLost x).findEntry o).map (·.addr) = (s.findEntry o).map (·.addr) := by
  rw [settleLost_eq, findEntry, List.find?_map, Option.map_map]
  rfl

theorem findMp_settleLost (x : Sheet) (i : Nat) (s : State) :
    ((s.settleLost x).findMp i).map (·.number) = (s.findMp i).map (·.number) := by
  have hid : ∀ m : Mailpiece, (if m.id = x.mp then { m with lost := m.lost + 1 } else m).id = m.id := fun m => by split <;> rfl
  rw [settleLost_eq, findMp, List.find?_map, Option.map_map, findMp]
  simp only [Function.comp_def, hid]
  congr 1
  funext m
  split <;> rfl

theorem strandedItem_settleLost (x y : Sheet) (s : State) : (s.settleLost x).strandedItem y = s.strandedItem y := by
  have haddr := findEntry_settleLost x y.order s
  have hnumber := findMp_settleLost x y.mp s
  rw [strandedItem, strandedItem, elim_eq_getD_map, elim_eq_getD_map, haddr, hnumber, ← elim_eq_getD_map, ← elim_eq_getD_map]

theorem stranded_settleLosts (l : List Sheet) (s : State) :
    (l.foldl State.settleLost s).jam.stranded = s.jam.stranded ++ l.map s.strandedItem := by
  induction l generalizing s with
  | nil => exact (List.append_nil _).symm
  | cons x rest ih =>
    have hitems : rest.map (s.settleLost x).strandedItem = rest.map s.strandedItem :=
      List.map_congr_left fun y _ => strandedItem_settleLost x y s
    rw [List.foldl_cons, ih, hitems, settleLost_eq]
    exact List.append_assoc ..

theorem lost_settleLosts (l : List Sheet) (s : State) :
    (l.foldl State.settleLost s).retire.lost = s.retire.lost + BitVec.ofNat 32 l.length := by
  induction l generalizing s with
  | nil => simp
  | cons x rest ih =>
    have hone : (s.settleLost x).retire.lost = s.retire.lost + 1 := by rw [settleLost_eq]
    rw [List.foldl_cons, ih, hone, List.length_cons, BitVec.ofNat_add]
    ac_rfl

theorem sheets_settleLosts (l : List Sheet) (s : State) :
    (l.foldl State.settleLost s).track.sheets = s.track.sheets.filter fun y => l.all (·.id ≠ y.id) := by
  induction l generalizing s with
  | nil => exact (List.filter_eq_self.mpr fun _ _ => rfl).symm
  | cons x rest ih =>
    have hone : (s.settleLost x).track.sheets = s.track.sheets.filter (·.id ≠ x.id) := by rw [settleLost_eq]
    rw [List.foldl_cons, ih, hone, List.filter_filter]
    refine List.filter_congr fun y _ => ?_
    rw [List.all_cons, Bool.and_comm]
    simp [eq_comm]

theorem sheets_settleAllLost (s : State) : s.settleAllLost.track.sheets = [] := by
  rw [settleAllLost, sheets_settleLosts, List.filter_eq_nil_iff]
  intro y hy hall
  exact of_decide_eq_true (List.all_eq_true.mp hall y hy) rfl

/-! ## What the settlement reads -/

/-- `t` differs from `s` at most in what the settlement of the stranded sheets and the resume point do not read. -/
structure SameOrders (s t : State) : Prop where
  fetch : t.fetch = s.fetch
  mail : t.mail = s.mail
  jam : t.jam = s.jam
  mem : t.mem = s.mem
  ctl : t.ctl = s.ctl
  sheets : t.track.sheets = s.track.sheets

section

variable {s t : State} (h : SameOrders s t)

include h

theorem SameOrders.settleLost (x : Sheet) : SameOrders (s.settleLost x) (t.settleLost x) := by
  have hitem : t.strandedItem x = s.strandedItem x := by
    rw [strandedItem, findEntry, findMp, h.fetch, h.mail]
    rfl
  have hentry : t.findEntry x.order = s.findEntry x.order := by rw [findEntry, h.fetch, findEntry]
  rw [settleLost_eq, settleLost_eq, hitem, hentry]
  exact ⟨by rw [h.fetch], by rw [h.mail], by rw [h.jam], h.mem, h.ctl, by rw [h.sheets]⟩

theorem SameOrders.settleLosts (l : List Sheet) : SameOrders (l.foldl State.settleLost s) (l.foldl State.settleLost t) := by
  induction l generalizing s t with
  | nil => exact h
  | cons x rest ih => exact ih (h.settleLost x)

theorem SameOrders.settleAllLost : SameOrders s.settleAllLost t.settleAllLost := by
  rw [State.settleAllLost, State.settleAllLost, h.sheets]
  exact h.settleLosts _

theorem SameOrders.resumePoint : t.resumePoint = s.resumePoint := by
  have hopens : t.opensResume = s.opensResume := funext fun e => by rw [opensResume, h.mail, opensResume]
  have hcall : t.unfinishedCall = s.unfinishedCall := by rw [unfinishedCall, h.fetch, unfinishedCall]
  have hok : t.orderAddrOk = s.orderAddrOk := funext fun a => by rw [orderAddrOk, h.ctl, h.mem, orderAddrOk]
  rw [State.resumePoint, hopens, hcall, hok, h.fetch, State.resumePoint]

theorem SameOrders.resumeResync (r : ResumePoint) : t.resumeResync r = s.resumeResync r := by
  rw [State.resumeResync, h.mail, h.fetch, State.resumeResync]

end

/-- JAMMED entry begins: the Down section stops and every section halts (R149 steps 1 and 2). -/
def jamStopped (s : State) : State := (s.stopOrder ((perSection false).set .down true)).haltSections (perSection true)

theorem sameOrders_jamStopped (s : State) : SameOrders s s.jamStopped := by
  refine ⟨?_, ?_, ?_, ?_, ?_, ?_⟩ <;> simp [jamStopped]

end State

end Sys2Proof.Machine
end

section
/-! PROOFS. The resume point (for O53). -/

namespace Sys2Proof.Machine

open State

namespace State

/-! ## The first entry of a kind -/

/-- `e` is the first entry of the window that satisfies `p`. -/
def FirstIn (s : State) (p : Entry → Prop) (e : Entry) : Prop :=
  ∃ before after, s.fetch.window = before ++ e :: after ∧ p e ∧ ∀ y ∈ before, ¬p y

section

variable {s : State} {q : Entry → Bool} {p : Entry → Prop} (hp : ∀ e, q e = true ↔ p e)

include hp

theorem find?_of_firstIn {e : Entry} (h : s.FirstIn p e) : s.fetch.window.find? q = some e := by
  obtain ⟨before, after, hw, he, hbefore⟩ := h
  rw [List.find?_eq_some_iff_append]
  refine ⟨(hp e).mpr he, before, after, hw, fun y hy => ?_⟩
  simpa only [Bool.not_eq_true', Bool.eq_false_iff, ne_eq, hp] using hbefore y hy

theorem find?_of_noneIn (h : ∀ y ∈ s.fetch.window, ¬p y) : s.fetch.window.find? q = none :=
  List.find?_eq_none.mpr fun y hy hq => h y hy ((hp y).mp hq)

end

/-! ## The resume point (R151) -/

/-- Case 1: an OPEN that has not begun to fill a bin. -/
def OpensResume (s : State) (e : Entry) : Prop := e.kind = .mpOpen ∧ e.chain ≠ .sequence ∧ (e.state = .fetched
  ∨ ∃ m ∈ s.mail.table, m.openRef = e.id ∧ m.state = .filling ∧ m.bin = none)

/-- Case 2: a CALL whose sequence has not been left. -/
def Unfinished (e : Entry) : Prop := e.kind = .call ∧ e.chain ≠ .sequence ∧ e.callStatus = .pending

theorem opensResume_iff (s : State) (e : Entry) : s.opensResume e = true ↔ s.OpensResume e := by
  simp [opensResume, OpensResume, and_assoc]

theorem unfinished_iff (e : Entry) :
    (e.kind == .call && e.chain != .sequence && e.callStatus == .pending) = true ↔ Unfinished e := by
  simp [Unfinished, and_assoc]

theorem streamOf_eq (c : Chain) : streamOf c = if c = .recovery then .recovery else .main := by
  cases c <;> rfl

section

variable {s : State}

theorem resumePoint_opens {e : Entry} (h : s.FirstIn s.OpensResume e) :
    s.resumePoint = ⟨e.addr, if e.chain = .recovery then .recovery else .main, some e.id⟩ := by
  have hfind := find?_of_firstIn s.opensResume_iff h
  simp only [resumePoint, hfind, streamOf_eq]

theorem resumePoint_call (hno : ∀ y ∈ s.fetch.window, ¬s.OpensResume y) {e : Entry} (h : s.FirstIn Unfinished e) :
    s.resumePoint = ⟨if e.words.link ≠ 0 ∧ s.orderAddrOk e.words.link then e.words.link else 0,
      if e.chain = .recovery then .recovery else .main, none⟩ := by
  have hnone := find?_of_noneIn s.opensResume_iff hno
  have hcall : s.unfinishedCall = some e := find?_of_firstIn unfinished_iff h
  simp only [resumePoint, hnone, hcall, streamOf_eq]

section

variable (hno : ∀ y ∈ s.fetch.window, ¬s.OpensResume y) (hnoCall : ∀ y ∈ s.fetch.window, ¬Unfinished y)

include hno hnoCall

theorem resumePoint_next {a : Word} (h : s.fetch.pos = .next a) : s.resumePoint = ⟨a, s.fetch.chain, none⟩ := by
  have hnone := find?_of_noneIn s.opensResume_iff hno
  have hcall : s.unfinishedCall = none := find?_of_noneIn unfinished_iff hnoCall
  simp only [resumePoint, hnone, hcall, h]

theorem resumePoint_end (h : ∀ a, s.fetch.pos ≠ .next a) : s.resumePoint = ⟨0, s.fetch.chain, none⟩ := by
  have hnone := find?_of_noneIn s.opensResume_iff hno
  have hcall : s.unfinishedCall = none := find?_of_noneIn unfinished_iff hnoCall
  simp only [resumePoint, hnone, hcall]
  cases hpos : s.fetch.pos with
  | next a => exact absurd hpos (h a)
  | idle | chainEnd _ | chainFault _ | awaitingHead _ _ | returning _ | continuing _ _ => rfl

end

/-! ## The resync flag (R152) -/

theorem resumeResync_iff (r : ResumePoint) : s.resumeResync r = true ↔ r.opener = none
    ∧ ((∃ m, s.mail.table.getLast? = some m ∧ m.interrupted = true) ∨ (s.fetch.resync = true ∧ s.fetch.chain = .main)) := by
  unfold resumeResync
  cases s.mail.table.getLast? <;> simp

end

/-! ## It is given to its chain (R152) -/

theorem assignResume_main {r : ResumePoint} (h : r.chain = .main) (s : State) : s.assignResume r = { s with
    jam := { s.jam with mainResume := r.addr, mainResync := s.resumeResync r, recoveryResume := 0 } } := by
  simp only [assignResume, h]
  rfl

theorem assignResume_recovery {r : ResumePoint} (h : r.chain = .recovery) (s : State) : s.assignResume r = { s with
    jam := { s.jam with recoveryResume := r.addr } } := by
  simp only [assignResume, h]
  rfl

end State

end Sys2Proof.Machine
end

section
/-! PROOFS. The end of the mailpieces at JAMMED entry (for O52, O53). -/

namespace Sys2Proof.Machine

open State

namespace State

/-! ## Every mailpiece that settles (R73) -/

/-- One record that settles as `m` does. -/
def recordSettled (jam : Bool) (r m : Mailpiece) : Mailpiece := if mpSettles jam m then { r with state := .settled } else r

/-- One OPEN whose mailpiece is `m`. -/
def openSettled (jam : Bool) (e : Entry) (m : Mailpiece) : Entry :=
  if mpSettles jam m then { e with state := .settled, draft := some (mpOutcome m) } else e

theorem settleMp_eq (jam : Bool) (m : Mailpiece) (s : State) : s.settleMp jam m = { s with
    mail := { s.mail with table := s.mail.table.map fun r => if r.id = m.id then recordSettled jam r m else r }
    fetch := { s.fetch with window := s.fetch.window.map fun e => if e.id = m.openRef then openSettled jam e m else e } } := by
  cases h : mpSettles jam m with
  | true =>
    rw [settleMp_settles h]
    simp only [recordSettled, openSettled, h, if_true]
    rfl
  | false =>
    rw [settleMp_kept h]
    simp only [recordSettled, openSettled, h, Bool.false_eq_true, if_false, ite_self, List.map_id']

theorem foldl_recordSettled_closed (jam : Bool) (l : List Mailpiece) (r : Mailpiece) :
    (l.foldl (recordSettled jam) r).closed = r.closed := by
  induction l generalizing r with
  | nil => rfl
  | cons m rest ih =>
    rw [List.foldl_cons, ih]
    unfold recordSettled
    split <;> rfl

theorem foldl_openSettled_id (jam : Bool) (l : List Mailpiece) (e : Entry) : (l.foldl (openSettled jam) e).id = e.id := by
  induction l generalizing e with
  | nil => rfl
  | cons m rest ih =>
    rw [List.foldl_cons, ih]
    unfold openSettled
    split <;> rfl

/-- Each record and each OPEN settles by the records that bear its number. -/
theorem foldl_settleMp_eq (jam : Bool) (l : List Mailpiece) (s : State) : l.foldl (settleMp jam) s = { s with
    mail := { s.mail with table := s.mail.table.map fun r => (l.filter (·.id = r.id)).foldl (recordSettled jam) r }
    fetch := { s.fetch with
      window := s.fetch.window.map fun e => (l.filter (·.openRef = e.id)).foldl (openSettled jam) e } } := by
  induction l generalizing s with
  | nil => simp only [List.filter_nil, List.foldl_nil, List.map_id']
  | cons m rest ih =>
    have hrecord : ∀ r : Mailpiece, (if r.id = m.id then recordSettled jam r m else r).id = r.id := fun r => by
      unfold recordSettled
      split
      · split <;> rfl
      · rfl
    have hentry : ∀ e : Entry, (if e.id = m.openRef then openSettled jam e m else e).id = e.id := fun e => by
      unfold openSettled
      split
      · split <;> rfl
      · rfl
    rw [List.foldl_cons, ih, settleMp_eq]
    simp only [List.map_map, Function.comp_def, hrecord, hentry, List.filter_cons, decide_eq_true_eq]
    congr 3
    · funext e
      by_cases he : e.id = m.openRef
      · rw [if_pos he, if_pos he.symm, List.foldl_cons]
      · rw [if_neg he, if_neg fun h => he h.symm]
    · funext r
      by_cases hr : r.id = m.id
      · rw [if_pos hr, if_pos hr.symm, List.foldl_cons]
      · rw [if_neg hr, if_neg fun h => hr h.symm]

theorem settleMailpieces_eq (jam : Bool) (s : State) : s.settleMailpieces jam = { s with
    mail := { s.mail with
      table := s.mail.table.map fun r => (s.mail.table.filter (·.id = r.id)).foldl (recordSettled jam) r }
    fetch := { s.fetch with
      window := s.fetch.window.map fun e => (s.mail.table.filter (·.openRef = e.id)).foldl (openSettled jam) e } } :=
  foldl_settleMp_eq jam s.mail.table s

/-! ## PURGING at JAMMED entry (R70) -/

/-- A mailpiece that enters PURGING with reason `why` if it still can. -/
def purgedMp (why : Reason) (m : Mailpiece) : Mailpiece :=
  if m.state = .filling ∨ m.state = .launched then { m with state := .purging, reason := some why } else m

theorem purgedMp_purgedMp (why : Reason) (m : Mailpiece) : purgedMp why (purgedMp why m) = purgedMp why m := by
  by_cases h : m.state = .filling ∨ m.state = .launched
  · simp [purgedMp, h]
  · simp [purgedMp, h]

theorem enterPurging_noCandidate {s : State} {i : Nat} {why : Reason} (hnone : s.launch.candidate = none) :
    (s.enterPurging i why).fetch = s.fetch ∧ (s.enterPurging i why).launch = s.launch
    ∧ (s.enterPurging i why).mail.table = s.mail.table.map fun r =>
      if r.id = i ∧ (s.findMp i).any (fun m => m.state == .filling || m.state == .launched) then
        { r with state := .purging, reason := some why } else r := by
  cases hm : s.findMp i with
  | none => simp [enterPurging_gone hm]
  | some m =>
    by_cases hstate : m.state = .filling ∨ m.state = .launched
    · have hskip : (s.purgingBegun i why m).skipCandidate i = s.purgingBegun i why m := by
        refine skipCandidate_other (.inl ?_)
        rw [purgingBegun, releaseReservation_eq]
        exact hnone
      rw [enterPurging_begins hm hstate, hskip, purgingBegun, releaseReservation_eq]
      refine ⟨rfl, rfl, ?_⟩
      simp [hstate, updMp, onMail, markMailpieceSheets, onTrack]
    · rw [enterPurging_kept hm hstate]
      simp [hstate]

/-- The record of a mailpiece whose number no other record bears. -/
def Unique (s : State) (m : Mailpiece) : Prop := s.mail.table.filter (·.id = m.id) = [m]

theorem Unique.eq {s : State} {m r : Mailpiece} (h : s.Unique m) (hr : r ∈ s.mail.table) (hid : r.id = m.id) : r = m := by
  have hmem : r ∈ s.mail.table.filter (·.id = m.id) := List.mem_filter.mpr ⟨hr, decide_eq_true hid⟩
  rw [h] at hmem
  exact List.mem_singleton.mp hmem

theorem Unique.mem {s : State} {m : Mailpiece} (h : s.Unique m) : m ∈ s.mail.table :=
  (List.mem_filter.mp (by rw [h]; exact List.mem_singleton_self m : m ∈ s.mail.table.filter (·.id = m.id))).1

/-- What entering PURGING does to the table when no candidate can be skipped. -/
structure PurgesTable (s t : State) (f : Mailpiece → Mailpiece) : Prop where
  table : t.mail.table = s.mail.table.map f
  ids : ∀ r, (f r).id = r.id
  opens : ∀ r, (f r).openRef = r.openRef
  closed : ∀ r, (f r).closed = r.closed
  fetch : t.fetch = s.fetch
  launch : t.launch = s.launch

theorem PurgesTable.unique {s t : State} {f : Mailpiece → Mailpiece} (h : PurgesTable s t f) {m : Mailpiece} (hm : s.Unique m) :
    t.Unique (f m) := by
  rw [Unique, h.table, List.filter_map]
  simp only [Function.comp_def, h.ids]
  rw [hm]
  rfl

theorem purgesTable_enterPurging {s : State} (hnone : s.launch.candidate = none) (i : Nat) (why : Reason) :
    ∃ f, PurgesTable s (s.enterPurging i why) f ∧ ∀ m, s.Unique m → f m = if m.id = i then purgedMp why m else m := by
  obtain ⟨hfetch, hlaunch, htable⟩ := enterPurging_noCandidate (i := i) (why := why) hnone
  refine ⟨_, ⟨htable, ?_, ?_, ?_, hfetch, hlaunch⟩, fun m hm => ?_⟩
  · intro r
    split <;> rfl
  · intro r
    split <;> rfl
  · intro r
    split <;> rfl
  · by_cases hi : m.id = i
    · have hfind : s.findMp i = some m := findMp_of_unique (by rw [← hi]; exact hm)
      simp [hi, hfind, purgedMp]
    · rw [if_neg hi, if_neg fun h => hi h.1]

theorem purgesTable_foldl {s : State} (hnone : s.launch.candidate = none) (l : List Mailpiece) (why : Reason) :
    ∃ f, PurgesTable s (l.foldl (fun u m => u.enterPurging m.id why) s) f
      ∧ ∀ m, s.Unique m → f m = if l.any (·.id = m.id) then purgedMp why m else m := by
  induction l generalizing s with
  | nil => exact ⟨id, ⟨(List.map_id _).symm, fun _ => rfl, fun _ => rfl, fun _ => rfl, rfl, rfl⟩, fun m _ => rfl⟩
  | cons x rest ih =>
    obtain ⟨f, hf, hfm⟩ := purgesTable_enterPurging hnone x.id why
    obtain ⟨g, hg, hgm⟩ := ih (s := s.enterPurging x.id why) (by rw [hf.launch]; exact hnone)
    refine ⟨g ∘ f, ⟨?_, fun r => ?_, fun r => ?_, fun r => ?_, hg.fetch.trans hf.fetch, hg.launch.trans hf.launch⟩, fun m hm => ?_⟩
    · rw [List.foldl_cons, hg.table, hf.table, List.map_map]
    · rw [Function.comp, hg.ids, hf.ids]
    · rw [Function.comp, hg.opens, hf.opens]
    · rw [Function.comp, hg.closed, hf.closed]
    · rw [Function.comp, hgm (f m) (hf.unique hm), hf.ids, hfm m hm, List.any_cons]
      by_cases hx : m.id = x.id
      · simp [hx, purgedMp_purgedMp]
      · simp [hx, Ne.symm hx]

/-! ## Closing them (R149 step 6) -/

/-- Every record is closed. -/
def recordsClosed (s : State) : State :=
  { s with mail := { s.mail with table := s.mail.table.map fun m => { m with closed := true } } }

theorem closeMailpieces_eq (s : State) : s.closeMailpieces = State.settleMailpieces true
    ((s.recordsClosed.mail.table.filter (·.interrupted)).foldl (fun u m => u.enterPurging m.id .jam) s.recordsClosed) := rfl

/-- The records enter PURGING and settle; an entry that is no OPEN of a record is kept. -/
theorem closeMailpieces_cases {s : State} (hnone : s.launch.candidate = none) : ∃ f : Mailpiece → Mailpiece,
    (∀ r, (f r).id = r.id ∧ (f r).openRef = r.openRef ∧ (f r).closed = true)
    ∧ (∀ m, s.Unique m → f m =
      if m.interrupted then purgedMp .jam { m with closed := true } else { m with closed := true })
    ∧ s.closeMailpieces.mail.table = (s.mail.table.map f).map (fun r =>
      ((s.mail.table.map f).filter (·.id = r.id)).foldl (recordSettled true) r)
    ∧ s.closeMailpieces.fetch = { s.fetch with window := s.fetch.window.map fun e =>
      ((s.mail.table.map f).filter (·.openRef = e.id)).foldl (openSettled true) e } := by
  obtain ⟨g, hg, hgm⟩ := purgesTable_foldl (s := s.recordsClosed) (by exact hnone)
    (s.recordsClosed.mail.table.filter (·.interrupted)) .jam
  have htable : s.recordsClosed.mail.table.map g = s.mail.table.map fun m => g { m with closed := true } := List.map_map ..
  refine ⟨fun m => g { m with closed := true }, fun r => ⟨hg.ids _, hg.opens _, hg.closed _⟩, fun m hm => ?_, ?_, ?_⟩
  · have hunique : s.recordsClosed.Unique { m with closed := true } := by
      show (s.mail.table.map _).filter _ = _
      rw [List.filter_map]
      exact congrArg (List.map _) hm
    have hany : (s.recordsClosed.mail.table.filter (·.interrupted)).any (·.id = m.id) = m.interrupted := by
      rw [Bool.eq_iff_iff, List.any_eq_true]
      constructor
      · rintro ⟨r, hr, hid⟩
        obtain ⟨hmem, hint⟩ := List.mem_filter.mp hr
        rw [hunique.eq hmem (of_decide_eq_true hid)] at hint
        exact hint
      · exact fun hint => ⟨_, List.mem_filter.mpr ⟨hunique.mem, hint⟩, decide_eq_true rfl⟩
    show g { m with closed := true } = _
    rw [hgm _ hunique, hany]
  · rw [closeMailpieces_eq, settleMailpieces_eq, hg.table, htable]
  · rw [closeMailpieces_eq, settleMailpieces_eq, hg.table, hg.fetch, htable]
    rfl

section

variable {s : State} (hnone : s.launch.candidate = none)

include hnone

theorem closeMailpieces_kept {e : Entry} (he : e ∈ s.fetch.window) (hno : ∀ m ∈ s.mail.table, m.openRef ≠ e.id) :
    e ∈ s.closeMailpieces.fetch.window := by
  obtain ⟨f, hf, -, -, hfetch⟩ := closeMailpieces_cases hnone
  have hnil : (s.mail.table.map f).filter (·.openRef = e.id) = [] := by
    rw [List.filter_eq_nil_iff]
    intro r hr hopen
    obtain ⟨m, hm, rfl⟩ := List.mem_map.mp hr
    exact hno m hm ((hf m).2.1.symm.trans (of_decide_eq_true hopen))
  rw [hfetch]
  refine List.mem_map.mpr ⟨e, he, ?_⟩
  rw [hnil]
  rfl

theorem closeMailpieces_ids : s.closeMailpieces.fetch.window.map (·.id) = s.fetch.window.map (·.id) := by
  obtain ⟨f, -, -, -, hfetch⟩ := closeMailpieces_cases hnone
  rw [hfetch, List.map_map]
  exact List.map_congr_left fun e _ => foldl_openSettled_id ..

/-- What becomes of the one record of a number and of its OPEN. -/
theorem closeMailpieces_unique {m p : Mailpiece} (hm : s.Unique m)
    (hp : p = if m.interrupted then purgedMp .jam { m with closed := true } else { m with closed := true }) :
    recordSettled true p p ∈ s.closeMailpieces.mail.table
    ∧ ∀ e ∈ s.fetch.window, e.id = m.openRef → s.mail.table.filter (·.openRef = m.openRef) = [m] →
      openSettled true e p ∈ s.closeMailpieces.fetch.window := by
  obtain ⟨f, hf, hfm, htable, hfetch⟩ := closeMailpieces_cases hnone
  have hfp : f m = p := (hfm m hm).trans hp.symm
  refine ⟨?_, fun e he hid hopen => ?_⟩
  · have hfilter : (s.mail.table.map f).filter (·.id = p.id) = [p] := by
      rw [List.filter_map]
      simp only [Function.comp_def, hf, ← hfp]
      rw [hm]
      rfl
    rw [htable]
    refine List.mem_map.mpr ⟨p, List.mem_map.mpr ⟨m, hm.mem, hfp⟩, ?_⟩
    rw [hfilter]
    rfl
  · have hfilter : (s.mail.table.map f).filter (·.openRef = e.id) = [p] := by
      rw [List.filter_map]
      simp only [Function.comp_def, hf, hid]
      rw [hopen, ← hfp]
      rfl
    rw [hfetch]
    refine List.mem_map.mpr ⟨e, he, ?_⟩
    rw [hfilter]
    rfl

theorem closeMailpieces_closed : ∀ m ∈ s.closeMailpieces.mail.table, m.closed = true := by
  obtain ⟨f, hf, -, htable, -⟩ := closeMailpieces_cases hnone
  rw [htable]
  intro r hr
  obtain ⟨y, hy, rfl⟩ := List.mem_map.mp hr
  obtain ⟨m, -, rfl⟩ := List.mem_map.mp hy
  exact (foldl_recordSettled_closed ..).trans (hf m).2.2

end

end State

end Sys2Proof.Machine
end

section
/-! PROOFS. The orders at JAMMED entry, and its resume point (O53). -/

namespace Sys2Proof.Machine

open State

namespace State

/-! ## What is kept (R149 step 4) -/

/-- The entries before the one that the resume point names. -/
def keptEntries (r : ResumePoint) (s : State) : List Entry :=
  match r.opener with
  | none => s.fetch.window
  | some id => s.fetch.window.takeWhile (·.id ≠ id)

/-- The mailpieces whose OPEN is not discarded. -/
def keptRecords (r : ResumePoint) (s : State) : List Mailpiece :=
  s.mail.table.filter fun m => r.opener.isNone || (s.keptEntries r).any (·.id == m.openRef)

theorem discardTail_window (r : ResumePoint) (s : State) : (s.discardTail r).fetch.window = s.keptEntries r := by
  unfold discardTail keptEntries
  cases r.opener <;> rfl

theorem discardTail_table (r : ResumePoint) (s : State) : (s.discardTail r).mail.table = s.keptRecords r := by
  unfold discardTail keptRecords keptEntries
  cases r.opener with
  | none => exact (List.filter_eq_self.mpr fun _ _ => rfl).symm
  | some id => rfl

/-! ## The orders settle (R153) -/

section

variable {v : State} {e : Entry}

theorem settleOrder_id (v : State) (e : Entry) : (v.settleOrder e).id = e.id := by
  simp only [settleOrder]
  (repeat' split) <;> rfl

theorem settleOrder_retirable (h : e.retirable = true) : v.settleOrder e = e :=
  if_pos (by rw [h]; rfl)

section

variable (hopen : e.kind ≠ .mpOpen) (hretire : e.retirable = false) (hleft : ¬(e.kind = .call ∧ e.callStatus = .left))

include hopen hretire hleft

theorem settleOrder_drafted (hstate : e.state = .fetched) (hdraft : e.draft ≠ none) :
    v.settleOrder e = { e with state := .passed } := by
  simp [settleOrder, hretire, hopen, hleft, hstate, Option.isSome_iff_ne_none, hdraft]

theorem settleOrder_undrafted (hstate : e.state = .fetched) (hdraft : e.draft = none) :
    v.settleOrder e = { e with state := .settled, draft := skippedJam } := by
  simp [settleOrder, hretire, hopen, hleft, hstate, hdraft]

theorem settleOrder_passed (hstate : e.state = .passed) (hkind : e.kind = .pause ∨ e.kind = .call) :
    v.settleOrder e = { e with state := .settled, draft := skippedJam } := by
  simp [settleOrder, hretire, hopen, hleft, hstate, hkind]

theorem settleOrder_dropped (hstate : e.state = .launched) (hdropped : e.dropped = true) :
    v.settleOrder e = { e with state := .settled, draft := skippedJam } := by
  simp [settleOrder, hretire, hopen, hleft, hstate, hdropped]

end

end

theorem retirable_fetched {e : Entry} (h : e.state = .fetched) : e.retirable = false := by
  simp [Entry.retirable, h]

theorem retirable_launched {e : Entry} (h : e.state = .launched) : e.retirable = false := by
  simp [Entry.retirable, h]

theorem settleCalls_kept {s : State} {e : Entry} (he : e ∈ s.fetch.window) (hcall : ¬(e.kind = .call ∧ e.callStatus = .left)) :
    e ∈ s.settleCalls.fetch.window := by
  have hnot : ¬s.callSettles e = true := fun h => by
    obtain ⟨hkind, -, hleft, -⟩ := callSettles_iff.mp h
    exact hcall ⟨hkind, hleft⟩
  exact List.mem_map.mpr ⟨e, he, if_neg hnot⟩

theorem settleCalls_ids (s : State) : s.settleCalls.fetch.window.map (·.id) = s.fetch.window.map (·.id) := by
  refine (List.map_map ..).trans (List.map_congr_left fun e _ => ?_)
  rw [Function.comp]
  split <;> rfl

/-! ## JAMMED entry (R149) -/

/-- The blocks are reset and the orders settled (R149 steps 4 and 5). -/
def ordersSettled (s : State) : State :=
  (((s.assignResume s.resumePoint).discardTail s.resumePoint).clearFetch).settleOrders.settleCalls

/-- The interrupted mailpieces are listed and the stop record is due. -/
def stopRecordDue (s : State) : State :=
  { s with jam := { s.jam with
    interrupted := (s.mail.table.filter (·.interrupted)).map (·.number), recordDue := true, recordIssued := false } }

/-- JAMMED entry up to the closing of the mailpieces. -/
def jamPrepared (s : State) : State := s.jamStopped.settleAllLost.ordersSettled.stopRecordDue

theorem jamPrepared_fetch (s : State) : s.jamPrepared.fetch = s.jamStopped.settleAllLost.ordersSettled.fetch := by
  rw [jamPrepared, stopRecordDue]

theorem setState_fetch (c : ControllerState) (s : State) : (s.setState c).fetch = s.fetch := rfl

theorem jammedEntry_eq (s : State) : s.jammedEntry = s.jamPrepared.closeMailpieces.setState .jammed := rfl

section

variable (s : State)

theorem ordersSettled_table : s.ordersSettled.mail.table = s.keptRecords s.resumePoint := by
  have hkept : (s.assignResume s.resumePoint).keptRecords s.resumePoint = s.keptRecords s.resumePoint := by
    unfold keptRecords keptEntries
    rw [show (s.assignResume s.resumePoint).mail = s.mail by simp, show (s.assignResume s.resumePoint).fetch = s.fetch by simp]
  rw [← hkept, ← discardTail_table]
  simp [ordersSettled]

/-- The state in which step 5 settles the orders. -/
def blocksReset : State := ((s.assignResume s.resumePoint).discardTail s.resumePoint).clearFetch

theorem blocksReset_window : s.blocksReset.fetch.window = s.keptEntries s.resumePoint := by
  have hkept : (s.assignResume s.resumePoint).keptEntries s.resumePoint = s.keptEntries s.resumePoint := by
    unfold keptEntries
    rw [show (s.assignResume s.resumePoint).fetch = s.fetch by simp]
  rw [← hkept, ← discardTail_window]
  simp [blocksReset]

theorem ordersSettled_ids : s.ordersSettled.fetch.window.map (·.id) = (s.keptEntries s.resumePoint).map (·.id) := by
  rw [← blocksReset_window]
  refine (settleCalls_ids _).trans ((List.map_map ..).trans (List.map_congr_left fun e _ => ?_))
  exact settleOrder_id _ e

theorem ordersSettled_idle : s.ordersSettled.launch.candidate = none ∧ s.ordersSettled.mail.waitingOpen = none
    ∧ s.ordersSettled.fetch.pos = .idle ∧ s.ordersSettled.fetch.stack = [] ∧ s.ordersSettled.fetch.outer = none
    ∧ s.ordersSettled.fetch.chain = s.fetch.chain ∧ s.ordersSettled.fetch.resync = s.fetch.resync
    ∧ s.ordersSettled.track = s.track := by
  simp [ordersSettled, clearFetch, discardRead, onFetch, onLaunch, onMail, onMem]

end

theorem ordersSettled_kept {s : State} {e : Entry} (he : e ∈ s.keptEntries s.resumePoint)
    (hcall : ¬((s.blocksReset.settleOrder e).kind = .call ∧ (s.blocksReset.settleOrder e).callStatus = .left)) :
    s.blocksReset.settleOrder e ∈ s.ordersSettled.fetch.window := by
  rw [← blocksReset_window] at he
  exact settleCalls_kept (List.mem_map.mpr ⟨e, he, rfl⟩) hcall

/-! ## JAMMED entry against the state before the sections stop -/

theorem SameOrders.keptEntries {s t : State} (h : SameOrders s t) (r : ResumePoint) : t.keptEntries r = s.keptEntries r := by
  rw [State.keptEntries, h.fetch, State.keptEntries]

theorem SameOrders.keptRecords {s t : State} (h : SameOrders s t) (r : ResumePoint) : t.keptRecords r = s.keptRecords r := by
  rw [State.keptRecords, h.keptEntries, h.mail, State.keptRecords]

section

variable (s : State)

theorem sameOrders_lost : SameOrders s.settleAllLost s.jamStopped.settleAllLost := (sameOrders_jamStopped s).settleAllLost

theorem jamPrepared_table :
    s.jamPrepared.mail.table = s.settleAllLost.keptRecords s.settleAllLost.resumePoint := by
  rw [← (sameOrders_lost s).resumePoint, ← (sameOrders_lost s).keptRecords, ← ordersSettled_table]
  rfl

theorem jamPrepared_idle : s.jamPrepared.launch.candidate = none ∧ s.jamPrepared.mail.waitingOpen = none
    ∧ s.jamPrepared.fetch.pos = .idle ∧ s.jamPrepared.fetch.stack = [] ∧ s.jamPrepared.fetch.outer = none
    ∧ s.jamPrepared.fetch.chain = s.fetch.chain ∧ s.jamPrepared.fetch.resync = s.fetch.resync
    ∧ s.jamPrepared.track.sheets = [] := by
  obtain ⟨hcandidate, hwaiting, hpos, hstack, houter, hchain, hresync, htrack⟩ :=
    ordersSettled_idle s.jamStopped.settleAllLost
  refine ⟨hcandidate, hwaiting, hpos, hstack, houter, hchain.trans ?_, hresync.trans ?_, ?_⟩
  · simp [jamStopped]
  · simp [jamStopped]
  · exact (congrArg Track.sheets htrack).trans (sheets_settleAllLost _)

theorem jammedEntry_window : s.jammedEntry.fetch.window.map (·.id)
    = (s.settleAllLost.keptEntries s.settleAllLost.resumePoint).map (·.id) := by
  rw [← (sameOrders_lost s).resumePoint, ← (sameOrders_lost s).keptEntries, ← ordersSettled_ids, jammedEntry_eq, setState_fetch,
    ← jamPrepared_fetch]
  exact closeMailpieces_ids (jamPrepared_idle s).1

theorem jammedEntry_idle : s.jammedEntry.fetch.pos = .idle ∧ s.jammedEntry.fetch.stack = [] ∧ s.jammedEntry.fetch.outer = none
    ∧ s.jammedEntry.launch.candidate = none ∧ s.jammedEntry.mail.waitingOpen = none := by
  obtain ⟨hcandidate, hwaiting, hpos, hstack, houter, -⟩ := jamPrepared_idle s
  have hlaunch : s.jamPrepared.closeMailpieces.launch.candidate = none := by
    rw [closeMailpieces_eq, settleMailpieces_eq]
    obtain ⟨f, hf, -⟩ := purgesTable_foldl (s := s.jamPrepared.recordsClosed) (by exact hcandidate)
      (s.jamPrepared.recordsClosed.mail.table.filter (·.interrupted)) .jam
    exact (congrArg Launch.candidate hf.launch).trans hcandidate
  rw [jammedEntry_eq]
  refine ⟨?_, ?_, ?_, hlaunch, ?_⟩ <;> simp [hpos, hstack, houter, hwaiting]

theorem jammedEntry_jam : s.jammedEntry.jam = s.jamPrepared.jam := by
  rw [jammedEntry_eq]
  simp

theorem jammedEntry_interrupted : s.jammedEntry.jam.interrupted
    = ((s.settleAllLost.keptRecords s.settleAllLost.resumePoint).filter (·.interrupted)).map (·.number) := by
  rw [jammedEntry_jam, ← jamPrepared_table]
  rfl

/-- The resume point is given to its chain at JAMMED entry. -/
theorem jammedEntry_resume : s.jammedEntry.jam.mainResume = (s.settleAllLost.assignResume s.settleAllLost.resumePoint).jam.mainResume
    ∧ s.jammedEntry.jam.mainResync = (s.settleAllLost.assignResume s.settleAllLost.resumePoint).jam.mainResync
    ∧ s.jammedEntry.jam.recoveryResume = (s.settleAllLost.assignResume s.settleAllLost.resumePoint).jam.recoveryResume := by
  have hassign : (s.jamStopped.settleAllLost.assignResume s.jamStopped.settleAllLost.resumePoint).jam
      = (s.settleAllLost.assignResume s.settleAllLost.resumePoint).jam := by
    rw [(sameOrders_lost s).resumePoint]
    cases hchain : s.settleAllLost.resumePoint.chain with
    | main =>
      rw [assignResume_main hchain, assignResume_main hchain, (sameOrders_lost s).resumeResync, (sameOrders_lost s).jam]
    | recovery => rw [assignResume_recovery hchain, assignResume_recovery hchain, (sameOrders_lost s).jam]
  rw [jammedEntry_jam, ← hassign]
  simp [jamPrepared, stopRecordDue, ordersSettled]

end

/-- An order that is kept and no OPEN of a mailpiece stands in the window as R153 leaves it. -/
theorem jammedEntry_order {s : State} {e t : Entry}
    (he : e ∈ s.settleAllLost.keptEntries s.settleAllLost.resumePoint) (hno : ∀ m ∈ s.settleAllLost.mail.table, m.openRef ≠ e.id)
    (ht : s.jamStopped.settleAllLost.blocksReset.settleOrder e = t) (hcall : ¬(t.kind = .call ∧ t.callStatus = .left)) :
    t ∈ s.jammedEntry.fetch.window := by
  subst ht
  rw [← (sameOrders_lost s).resumePoint, ← (sameOrders_lost s).keptEntries] at he
  have hmem := ordersSettled_kept he hcall
  rw [← jamPrepared_fetch] at hmem
  rw [jammedEntry_eq, setState_fetch]
  refine closeMailpieces_kept (jamPrepared_idle s).1 hmem fun m hm => ?_
  rw [jamPrepared_table] at hm
  rw [settleOrder_id]
  exact hno m (List.mem_filter.mp hm).1

theorem clearFetch_mem (s : State) : s.clearFetch.mem = { s.mem with held := s.mem.held.map fun h =>
    match h.steps with
    | .enterSequence _ _ _ => { h with steps := .nothing }
    | _ => h } := by
  refine congrArg (fun held : List HeldWrite => ({ s.mem with held := held } : Mem)) (List.map_congr_left fun h _ => ?_)
  cases h.steps <;> rfl

theorem jammedEntry_mem (s : State) : s.jammedEntry.mem = { s.mem with held := s.mem.held.map fun h =>
    match h.steps with
    | .enterSequence _ _ _ => { h with steps := .nothing }
    | _ => h } := by
  have hreset : ((s.jamStopped.settleAllLost.assignResume s.jamStopped.settleAllLost.resumePoint).discardTail
      s.jamStopped.settleAllLost.resumePoint).mem = s.mem := by simp [jamStopped]
  have hmem : s.jammedEntry.mem = s.jamStopped.settleAllLost.blocksReset.mem := by
    rw [jammedEntry_eq]
    simp [jamPrepared, stopRecordDue, ordersSettled, blocksReset]
  rw [hmem, blocksReset, clearFetch_mem, hreset]

end State

/-- Settles O53. -/
theorem resumePointAtJammedEntry : Obligations.ResumePointAtJammedEntry := by
  refine ⟨⟨fun s => ?_, fun s => ?_⟩, jammedEntry_mem⟩
  · intro opens unfinished first none_ at_ r
    exact ⟨fun e => resumePoint_opens, fun e hno => resumePoint_call hno, fun a hno hcall hpos => resumePoint_next hno hcall hpos, resumePoint_end,
      resumeResync_iff r⟩
  · intro a r kept t
    obtain ⟨hpos, hstack, houter, -⟩ := jammedEntry_idle s
    obtain ⟨hmain, hresync, hrecovery⟩ := jammedEntry_resume s
    refine ⟨fun hchain => ?_, fun hchain => ?_, jammedEntry_window s, hpos, hstack, houter, ?_, ?_, ?_,
      fun e he hopen hkind hno => ?_, fun e he hkind hno hretire => ?_⟩
    · rw [assignResume_main hchain] at hmain hresync hrecovery
      exact ⟨hmain, hresync, hrecovery⟩
    · rw [assignResume_recovery hchain] at hmain hresync hrecovery
      exact ⟨hrecovery, hmain.trans (by simp), hresync.trans (by simp)⟩
    · exact show s.jammedEntry.fetch.chain = _ by simp only [jammedEntry_frame]
    · exact show s.jammedEntry.fetch.resync = _ by simp only [jammedEntry_frame]
    · refine (jammedEntry_interrupted s).trans ?_
      rw [keptRecords, List.filter_filter]
      rfl
    · intro jam
      have hcall : ∀ o : Entry, o.kind = e.kind → ¬(o.kind = .call ∧ o.callStatus = .left) := fun o ho h => hkind (ho ▸ h.1)
      refine ⟨fun hretire => ?_, fun hstate hdraft => ?_, fun hstate hdraft => ?_, fun hretire hstate hpause => ?_,
        fun hstate hdropped => ?_⟩
      · exact jammedEntry_order he hno (settleOrder_retirable hretire) (hcall _ rfl)
      · exact jammedEntry_order he hno (settleOrder_drafted hopen (retirable_fetched hstate) (hcall _ rfl) hstate hdraft) (hcall _ rfl)
      · exact jammedEntry_order he hno (settleOrder_undrafted hopen (retirable_fetched hstate) (hcall _ rfl) hstate hdraft) (hcall _ rfl)
      · exact jammedEntry_order he hno (settleOrder_passed hopen hretire (hcall _ rfl) hstate (.inl hpause)) (hcall _ rfl)
      · exact jammedEntry_order he hno (settleOrder_dropped hopen (retirable_launched hstate) (hcall _ rfl) hstate hdropped) (hcall _ rfl)
    · have hopen : e.kind ≠ .mpOpen := by rw [hkind]; decide
      have hcall : e.callStatus ≠ .left → ∀ o : Entry, o.callStatus = e.callStatus → ¬(o.kind = .call ∧ o.callStatus = .left) :=
        fun hleft o ho h => hleft (ho ▸ h.2)
      refine ⟨fun hleft hstate hdraft => ?_, fun hleft hstate hdraft => ?_, fun hleft hstate => ?_⟩
      · exact jammedEntry_order he hno (settleOrder_undrafted hopen hretire (hcall hleft _ rfl) hstate hdraft) (hcall hleft _ rfl)
      · exact jammedEntry_order he hno (settleOrder_drafted hopen hretire (hcall hleft _ rfl) hstate hdraft) (hcall hleft _ rfl)
      · exact jammedEntry_order he hno (settleOrder_passed hopen hretire (hcall hleft _ rfl) hstate (.inr hkind)) (hcall hleft _ rfl)

end Sys2Proof.Machine
end

section
/-! PROOFS. The secondary jam and JAMMED entry (O52). -/

namespace Sys2Proof.Machine

open State

namespace State

/-! ## JAMMED entry (R149, R150) -/

theorem stopOrder_run (named : PerSection Bool) (s : State) :
    (s.stopOrder named).transport.run = .of (fun x => s.transport.run.get x && !named.get x)
    ∨ (s.stopOrder named).transport.run = perSection false := by
  cases h : s.transport.state with
  | stopped => exact .inl (by rw [stopOrder_kept (.inl h)])
  | runOut => exact .inl (by rw [stopOrder_kept (.inr h)])
  | runUp => exact .inr (by rw [stopOrder_runUp named h, enterRunOut_runUp (by exact h)])
  | atSpeed =>
    rw [stopOrder_atSpeed named h]
    split
    · exact .inl rfl
    · exact .inr (by rw [enterRunOut_atSpeed (by exact h)])

theorem stopOrder_named {named : PerSection Bool} {x : Section} (h : named.get x = true) (s : State) :
    (s.stopOrder named).transport.run.get x = false := by
  obtain hrun | hrun := stopOrder_run named s
  · rw [hrun, PerSection.get_of, h, Bool.not_true, Bool.and_false]
  · rw [hrun, perSection_get]

section

variable (s : State)

theorem setState_track (c : ControllerState) : (s.setState c).track = s.track := rfl

theorem jammedEntry_state : s.jammedEntry.ctl.state = .jammed := rfl

theorem jammedEntry_sheets : s.jammedEntry.track.sheets = [] := by
  have hprepared : s.jamPrepared.sheetIds = [] := sheetIds_nil.mpr (jamPrepared_idle s).2.2.2.2.2.2.2
  have hclosed := (sheetIds_closeMailpieces s.jamPrepared).trans hprepared
  rw [jammedEntry_eq, setState_track]
  exact sheetIds_nil.mp hclosed

theorem ordersSettled_counts : s.ordersSettled.jam.stranded = s.jam.stranded ∧ s.ordersSettled.retire = s.retire := by
  simp [ordersSettled]

theorem jamPrepared_stranded : s.jamPrepared.jam.stranded = s.jam.stranded ++ s.track.sheets.map s.strandedItem := by
  have hsame := sameOrders_jamStopped s
  have hitem : s.jamStopped.strandedItem = s.strandedItem := funext fun x => by
    rw [strandedItem, findEntry, findMp, hsame.fetch, hsame.mail]
    rfl
  have hlost : s.jamStopped.settleAllLost.jam.stranded = s.jam.stranded ++ s.track.sheets.map s.strandedItem := by
    rw [settleAllLost, stranded_settleLosts, hsame.sheets, hsame.jam, hitem]
  have hkept : ∀ v : State, v.ordersSettled.stopRecordDue.jam.stranded = v.jam.stranded := fun v => (ordersSettled_counts v).1
  rw [jamPrepared]
  exact (hkept s.jamStopped.settleAllLost).trans hlost

theorem jamPrepared_lost : s.jamPrepared.retire.lost = s.retire.lost + BitVec.ofNat 32 s.track.sheets.length := by
  have hretire : s.jamStopped.retire = s.retire := by simp [jamStopped]
  have hlost : s.jamStopped.settleAllLost.retire.lost = s.retire.lost + BitVec.ofNat 32 s.track.sheets.length := by
    rw [settleAllLost, lost_settleLosts, (sameOrders_jamStopped s).sheets, hretire]
  rw [jamPrepared, stopRecordDue, ← hlost]
  exact congrArg Retire.lost (ordersSettled_counts s.jamStopped.settleAllLost).2

theorem jammedEntry_stranded : s.jammedEntry.jam.stranded = s.jam.stranded ++ s.track.sheets.map s.strandedItem := by
  rw [jammedEntry_jam, jamPrepared_stranded]

theorem jammedEntry_lost : s.jammedEntry.retire.lost = s.retire.lost + BitVec.ofNat 32 s.track.sheets.length := by
  rw [← jamPrepared_lost, jammedEntry_eq]
  simp

theorem jammedEntry_record : s.jammedEntry.jam.recordDue = true ∧ s.jammedEntry.jam.recordIssued = false := by
  rw [jammedEntry_jam]
  exact ⟨rfl, rfl⟩

theorem jammedEntry_stopped : s.jammedEntry.transport.run.down = false
    ∧ s.jammedEntry.track.tracking = perSection false := by
  have hrun : s.jammedEntry.transport.run = s.jamStopped.transport.run := by
    rw [jammedEntry_eq]
    simp [jamPrepared, ordersSettled, stopRecordDue]
  have htracking : s.jammedEntry.track.tracking = s.jamStopped.track.tracking := by
    rw [jammedEntry_eq]
    simp [jamPrepared, ordersSettled, stopRecordDue]
  have hdown : s.jamStopped.transport.run.get .down = false := stopOrder_named (by rfl) s
  rw [hrun]
  exact ⟨hdown, htracking.trans (haltSections_all_tracking _)⟩

theorem jammedEntry_closed : ∀ m ∈ s.jammedEntry.mail.table, m.closed = true :=
  closeMailpieces_closed (jamPrepared_idle s).1

end

/-! ## The secondary jam (R148) -/

/-- The record of the secondary report, and the sheets left frozen. -/
def secondaryRecorded (r : Report) (s : State) : State :=
  { s with jam := { s.jam with
    secondary := if s.jam.secondary = BitVec.allOnes 32 then s.jam.secondary else s.jam.secondary + 1
    lastSecondary := some (r.cause, r.place) } }

/-- The state at which a secondary report finds JAMMED entry. -/
def secondaryStopped (r : Report) (s : State) : State :=
  ((((s.secondaryRecorded r).stopOrder ((perSection false).set .down true)).haltSections
    ((perSection false).set .down true)).freezeWhere fun _ => true).setInterrupted

theorem secondaryJam_eq (r : Report) (s : State) : s.secondaryJam r = (s.secondaryStopped r).jammedEntry := rfl

theorem report_stopping {r : Report} {s : State} (h : s.ctl.state = .stopping) : s.report r = s.secondaryJam r := by
  simp only [report, h]

theorem report_ignored {r : Report} {s : State}
    (h : s.ctl.state = .unconfigured ∨ s.ctl.state = .ready ∨ s.ctl.state = .halted ∨ s.ctl.state = .jammed) :
    s.report r = s := by
  obtain h | h | h | h := h <;> simp only [report, h]

theorem strandedItem_freeze (i : Nat) (s : State) : (s.freeze i).strandedItem = s.strandedItem := by
  funext x
  rw [strandedItem, strandedItem, findEntry, findMp, findEntry, findMp]
  simp

/-- A sheet keeps its order, its mailpiece and its place in it when it freezes. -/
theorem items_freeze (i : Nat) (s : State) (f : Sheet → Stranded)
    (hf : ∀ x : Sheet, f { x with state := .frozen } = f x) : (s.freeze i).track.sheets.map f = s.track.sheets.map f := by
  refine (List.map_map ..).trans (List.map_congr_left fun x _ => ?_)
  rw [Function.comp]
  split
  · exact hf x
  · rfl

theorem items_freezeWhere (p : Sheet → Bool) (s : State) :
    (s.freezeWhere p).track.sheets.map (s.freezeWhere p).strandedItem = s.track.sheets.map s.strandedItem := by
  rw [freezeWhere]
  generalize s.track.sheets.filter _ = l
  induction l generalizing s with
  | nil => rfl
  | cons x rest ih =>
    rw [List.foldl_cons, ih, strandedItem_freeze]
    exact items_freeze x.id s _ fun _ => rfl

theorem setInterrupted_strandedItem (s : State) : s.setInterrupted.strandedItem = s.strandedItem := by
  funext x
  have hmp : (s.setInterrupted.findMp x.mp).map (·.number) = (s.findMp x.mp).map (·.number) := by
    show (List.find? _ (List.map _ _)).map _ = _
    rw [List.find?_map, Option.map_map]
    rfl
  rw [strandedItem, strandedItem, elim_eq_getD_map, elim_eq_getD_map, hmp, ← elim_eq_getD_map, ← elim_eq_getD_map]
  rfl

/-- What the stop of the Down section and the freezing leave as they were. -/
theorem secondaryStopped_frame (r : Report) (s : State) : (s.secondaryStopped r).jam = (s.secondaryRecorded r).jam
    ∧ (s.secondaryStopped r).retire = s.retire ∧ (s.secondaryStopped r).ctl = s.ctl := by
  refine ⟨?_, ?_, ?_⟩ <;> simp [secondaryStopped, secondaryRecorded]

theorem secondaryStopped_items (r : Report) (s : State) :
    (s.secondaryStopped r).track.sheets.map (s.secondaryStopped r).strandedItem = s.track.sheets.map s.strandedItem := by
  have hitem : ∀ n, (((s.secondaryRecorded r).stopOrder n).haltSections n).strandedItem = s.strandedItem := fun n => by
    funext x
    rw [strandedItem, strandedItem, findEntry, findMp, findEntry, findMp]
    simp [secondaryRecorded]
  have hsheets : ∀ n, (((s.secondaryRecorded r).stopOrder n).haltSections n).track.sheets = s.track.sheets := fun n => by
    simp [secondaryRecorded]
  rw [secondaryStopped, setInterrupted_strandedItem]
  refine (items_freezeWhere _ _).trans ?_
  rw [hitem, hsheets]

theorem secondaryJam_counts (r : Report) (s : State) : (s.secondaryJam r).jam.primary = s.jam.primary
    ∧ (s.secondaryJam r).jam.seq = s.jam.seq
    ∧ (s.secondaryJam r).jam.secondary = (if s.jam.secondary = 0xFFFFFFFF then s.jam.secondary else s.jam.secondary + 1)
    ∧ (s.secondaryJam r).jam.lastSecondary = some (r.cause, r.place) ∧ (s.secondaryJam r).ctl.attn = s.ctl.attn := by
  obtain ⟨hjam, -, hctl⟩ := secondaryStopped_frame r s
  rw [secondaryJam_eq]
  simp only [jammedEntry_frame, hjam, hctl]
  exact ⟨rfl, rfl, rfl, rfl, trivial⟩

theorem secondaryJam_stranded (r : Report) (s : State) :
    (s.secondaryJam r).jam.stranded = s.jam.stranded ++ s.track.sheets.map s.strandedItem := by
  rw [secondaryJam_eq, jammedEntry_stranded, secondaryStopped_items, (secondaryStopped_frame r s).1]
  rfl

theorem secondaryJam_lost (r : Report) (s : State) :
    (s.secondaryJam r).retire.lost = s.retire.lost + BitVec.ofNat 32 s.track.sheets.length := by
  have hlength : (s.secondaryStopped r).track.sheets.length = s.track.sheets.length := by
    rw [← List.length_map (f := (s.secondaryStopped r).strandedItem), secondaryStopped_items, List.length_map]
  rw [secondaryJam_eq, jammedEntry_lost, hlength, (secondaryStopped_frame r s).2.1]

end State

/-- Settles O52, in the order of its parts. -/
theorem secondaryJam : Obligations.SecondaryJam := by
  refine ⟨fun r s => ⟨fun hstop => ?_, report_ignored⟩, fun x s => settleLost_eq x s, fun s => rfl, fun r s hstop => ?_,
    fun s => ⟨rfl, rfl⟩, fun m s hnone hm => ?_, fun s => ?_⟩
  · obtain ⟨hpos, hstack, -, hcandidate, hwaiting⟩ := jammedEntry_idle (s.secondaryStopped r)
    obtain ⟨hdown, htracking⟩ := jammedEntry_stopped (s.secondaryStopped r)
    obtain ⟨hdue, hissued⟩ := jammedEntry_record (s.secondaryStopped r)
    refine ⟨_, rfl, ?_⟩
    have hstranded : (s.secondaryJam r).jam.stranded.length = s.jam.stranded.length + s.track.sheets.length := by
      rw [secondaryJam_stranded, List.length_append, List.length_map]
    have hlost := secondaryJam_lost r s
    obtain ⟨hprimary, hseq, hsecondary, hlast, hattn⟩ := secondaryJam_counts r s
    have hstate := jammedEntry_state (s.secondaryStopped r)
    have hsheets := jammedEntry_sheets (s.secondaryStopped r)
    have hclosed := jammedEntry_closed (s.secondaryStopped r)
    rw [← secondaryJam_eq] at hpos hstack hcandidate hwaiting hdown htracking hdue hissued hstate hsheets hclosed
    rw [report_stopping hstop]
    exact ⟨hstate, hsheets, hprimary, hseq, hsecondary, hlast, hdue, hissued, hstranded, hlost, hdown, htracking,
      hpos, hstack, hcandidate, hwaiting, hclosed, hattn⟩
  · rw [report_stopping hstop]
    exact secondaryJam_stranded r s
  · intro purging p settles
    have hp : p = if m.interrupted then purgedMp .jam { m with closed := true } else { m with closed := true } := by
      by_cases hint : m.interrupted = true
      · by_cases hstate : m.state = .filling ∨ m.state = .launched
        · simp [p, purging, purgedMp, hint, hstate]
        · simp [p, purging, purgedMp, hint, hstate]
      · simp [p, purging, hint]
    obtain ⟨hrecord, hopen⟩ := closeMailpieces_unique hnone hm hp
    have hsettles : mpSettles true p = true ↔ settles := by
      rw [mpSettles_iff]
      exact ⟨fun ⟨hstate, _, _, hsum⟩ => ⟨hstate, hsum⟩, fun ⟨hstate, hsum⟩ => ⟨hstate, rfl, .inl rfl, hsum⟩⟩
    refine ⟨?_, fun e he hid hunique => ?_⟩
    · rw [recordSettled, ite_congr (propext hsettles) (fun _ => rfl) (fun _ => rfl)] at hrecord
      exact hrecord
    · have hentry := hopen e he hid hunique
      rw [openSettled, ite_congr (propext hsettles) (fun _ => rfl) (fun _ => rfl)] at hentry
      exact hentry
  · intro lost kept
    refine ⟨s.jamPrepared, rfl, (jamPrepared_idle s).1, (jamPrepared_idle s).2.2.2.2.2.2.2, ?_⟩
    rw [jamPrepared_table, keptRecords, keptEntries]
    cases s.settleAllLost.resumePoint.opener with
    | none => exact List.filter_eq_self.mpr fun _ _ => rfl
    | some id => rfl

end Sys2Proof.Machine
end

section
/-! PROOFS. Dropped picks, frozen sheets and marks at the primary jam (for O51). -/

namespace Sys2Proof.Machine

open State

namespace State

/-! ## What is only withdrawn -/

/-- Every compare and every return reservation of `t` stands in `s`. -/
structure Fewer (s t : State) : Prop where
  compares : ∀ q ∈ t.transport.compares, q ∈ s.transport.compares
  ring : ∀ h ∈ t.clock.ring, h ∈ s.clock.ring

theorem Fewer.of_eq {s t : State} (hcompares : t.transport.compares = s.transport.compares) (hring : t.clock.ring = s.clock.ring) :
    Fewer s t :=
  ⟨fun _ hq => hcompares ▸ hq, fun _ hh => hring ▸ hh⟩

theorem Fewer.trans {s t u : State} (h : Fewer s t) (h' : Fewer t u) : Fewer s u :=
  ⟨fun q hq => h.compares q (h'.compares q hq), fun r hr => h.ring r (h'.ring r hr)⟩

theorem fewer_foldl {α : Type} {f : State → α → State} (hf : ∀ u a, Fewer u (f u a)) (l : List α) (s : State) :
    Fewer s (l.foldl f s) := by
  induction l generalizing s with
  | nil => exact .of_eq rfl rfl
  | cons a rest ih => exact (hf s a).trans (ih _)

section

variable (s : State)

theorem fewer_stopOrder (named : PerSection Bool) : Fewer s (s.stopOrder named) := by
  cases h : s.transport.state with
  | stopped => exact .of_eq (by rw [stopOrder_kept (.inl h)]) (by rw [stopOrder_kept (.inl h)])
  | runOut => exact .of_eq (by rw [stopOrder_kept (.inr h)]) (by rw [stopOrder_kept (.inr h)])
  | runUp =>
    rw [stopOrder_runUp named h, enterRunOut_runUp (by exact h)]
    exact .of_eq rfl rfl
  | atSpeed =>
    rw [stopOrder_atSpeed named h]
    split
    · exact .of_eq rfl rfl
    · rw [enterRunOut_atSpeed (by exact h)]
      exact ⟨fun _ hq => (List.mem_filter.mp hq).1, fun _ hh => hh⟩

theorem fewer_haltSections (named : PerSection Bool) : Fewer s (s.haltSections named) :=
  ⟨fun _ hq => (List.mem_filter.mp hq).1, fun _ hh => hh⟩

theorem fewer_settleLost (x : Sheet) : Fewer s (s.settleLost x) := by
  rw [settleLost_eq]
  exact ⟨fun _ hq => (List.mem_filter.mp hq).1, fun _ hh => (List.mem_filter.mp hh).1⟩

theorem fewer_freeze (i : Nat) : Fewer s (s.freeze i) :=
  ⟨fun _ hq => (List.mem_filter.mp hq).1, fun _ hh => hh⟩

theorem fewer_freezeWhere (p : Sheet → Bool) : Fewer s (s.freezeWhere p) :=
  fewer_foldl (f := fun (u : State) (x : Sheet) => u.freeze x.id) (fun u x => fewer_freeze u x.id) _ s

theorem fewer_jammedEntry : Fewer s s.jammedEntry := by
  have hlost : Fewer s s.jamStopped.settleAllLost :=
    (fewer_stopOrder s _).trans ((fewer_haltSections _ _).trans (fewer_foldl fewer_settleLost _ _))
  have hkept : ∀ v : State, Fewer v (v.ordersSettled.stopRecordDue.closeMailpieces.setState .jammed) := fun v =>
    .of_eq (by simp [ordersSettled, stopRecordDue]) (by simp [ordersSettled, stopRecordDue])
  exact hlost.trans (hkept _)

end

/-! ## Dropped picks (R144) -/

/-- The sheets whose picks are among those scheduled. -/
def droppedBy (l : List Pick) (sheets : List Sheet) : List Sheet := sheets.filter fun x => l.any (·.track == x.id)

/-- A mailpiece from which the sheets `dropped` are taken back. -/
def mpDropped (dropped : List Sheet) (m : Mailpiece) : Mailpiece :=
  { m with
    launched := m.launched - (dropped.filter (·.mp = m.id)).length
    taken := m.taken - (dropped.filter (·.mp = m.id)).length
    interrupted := m.interrupted || (dropped.filter (·.mp = m.id)).length != 0
    state := if (dropped.filter (·.mp = m.id)).length ≠ 0 ∧ m.state = .launched then .filling else m.state }

/-- An order whose sheet is among those dropped. -/
def entryDropped (dropped : List Sheet) (e : Entry) : Entry :=
  if dropped.any (·.order == e.id) then { e with dropped := true } else e

theorem mpDropped_perm {a b : List Sheet} (h : a.Perm b) : mpDropped a = mpDropped b := by
  funext m
  rw [mpDropped, (h.filter _).length_eq, mpDropped]

theorem entryDropped_perm {a b : List Sheet} (h : a.Perm b) : entryDropped a = entryDropped b := by
  funext e
  rw [entryDropped, h.any_eq, entryDropped]

theorem mpDropped_nil (m : Mailpiece) : mpDropped [] m = m := by
  simp [mpDropped]

theorem mpDropped_cons (x : Sheet) (rest : List Sheet) (m : Mailpiece) :
    mpDropped (x :: rest) m = mpDropped rest (if m.id = x.mp then mpDropped [x] m else m) := by
  by_cases h : m.id = x.mp
  · rw [if_pos h]
    simp only [mpDropped, h, List.filter_cons, decide_true, if_true, List.filter_nil, List.length_cons, List.length_nil]
    congr 1
    · omega
    · omega
    · simp
    · cases m.state <;> simp
  · rw [if_neg h]
    simp only [mpDropped, List.filter_cons, decide_eq_true_eq, if_neg (Ne.symm h)]

theorem entryDropped_cons (x : Sheet) (rest : List Sheet) (e : Entry) :
    entryDropped (x :: rest) e = entryDropped rest (if e.id = x.order then { e with dropped := true } else e) := by
  by_cases h : e.id = x.order
  · simp [entryDropped, h]
  · simp [entryDropped, h, Ne.symm h]

theorem filter_eq_singleton {l : List Sheet} (h : (l.map fun y : Sheet => y.id).Nodup) {x : Sheet} (hx : x ∈ l) :
    l.filter (fun y : Sheet => y.id = x.id) = [x] := by
  induction l with
  | nil => cases hx
  | cons y rest ih =>
    rw [List.map_cons, List.nodup_cons] at h
    obtain ⟨hnot, hrest⟩ := h
    obtain rfl | hx := List.mem_cons.mp hx
    · rw [List.filter_cons_of_pos (by simp), List.filter_eq_nil_iff.mpr]
      intro z hz heq
      exact hnot (List.mem_map.mpr ⟨z, hz, of_decide_eq_true heq⟩)
    · have hy : y.id ≠ x.id := fun heq => hnot (List.mem_map.mpr ⟨x, hx, heq.symm⟩)
      rw [List.filter_cons_of_neg (by simpa using hy), ih hrest hx]

theorem map_mpDropped_cons (x : Sheet) (rest : List Sheet) (table : List Mailpiece) :
    (table.map fun m => if m.id = x.mp then mpDropped [x] m else m).map (mpDropped rest) = table.map (mpDropped (x :: rest)) := by
  rw [List.map_map]
  exact List.map_congr_left fun m _ => (mpDropped_cons x rest m).symm

theorem map_entryDropped_cons (x : Sheet) (rest : List Sheet) (window : List Entry) :
    (window.map fun e => if e.id = x.order then { e with dropped := true } else e).map (entryDropped rest)
      = window.map (entryDropped (x :: rest)) := by
  rw [List.map_map]
  exact List.map_congr_left fun e _ => (entryDropped_cons x rest e).symm

section

variable {s : State} {q : Pick}

theorem dropPick_gone (h : s.findSheet q.track = none) : s.dropPick q = s := by
  simp only [dropPick, h]

theorem dropPick_found {x : Sheet} (h : s.findSheet q.track = some x) : s.dropPick q = { s with
    track := { s.track with
      sheets := s.track.sheets.filter (·.id ≠ q.track)
      queues := s.track.queues.map fun l => l.filter (· ≠ q.track)
      fifo := s.track.fifo.map fun t => if t.track = q.track then { t with live := false } else t }
    transport := { s.transport with compares := s.transport.compares.filter fun c => !c.owner.isOf q.track }
    clock := { s.clock with ring := s.clock.ring.filter (·.track ≠ q.track) }
    mail := { s.mail with table := s.mail.table.map fun m => if m.id = x.mp then mpDropped [x] m else m }
    retire := { s.retire with launched := s.retire.launched - 1 }
    fetch := { s.fetch with
      window := s.fetch.window.map fun e => if e.id = x.order then { e with dropped := true } else e } } := by
  have huncount : ∀ u : State, u.uncountLaunch x.mp = { u with mail := { u.mail with
      table := u.mail.table.map fun m => if m.id = x.mp then mpDropped [x] m else m } } := fun u => by
    refine congrArg (fun l : List Mailpiece => ({ u with mail := { u.mail with table := l } } : State))
      (List.map_congr_left fun m _ => ?_)
    by_cases hm : m.id = x.mp
    · simp [hm, mpDropped]
    · rw [if_neg hm, if_neg hm]
  simp only [dropPick, h, huncount]
  rfl

theorem dropPick_sheets (s : State) (q : Pick) : (s.dropPick q).track.sheets = s.track.sheets.filter (·.id ≠ q.track) := by
  cases h : s.findSheet q.track with
  | some x => rw [dropPick_found h]
  | none =>
    rw [dropPick_gone h, eq_comm, List.filter_eq_self]
    intro y hy
    have hnot := List.find?_eq_none.mp h y hy
    simpa using hnot

theorem droppedBy_cons_gone (h : s.findSheet q.track = none) (l : List Pick) :
    droppedBy (q :: l) s.track.sheets = droppedBy l s.track.sheets := by
  refine List.filter_congr fun y hy => ?_
  have hnot := List.find?_eq_none.mp h y hy
  rw [List.any_cons, Bool.or_eq_right_iff_imp]
  intro hq
  exact absurd (beq_iff_eq.mpr (beq_iff_eq.mp hq).symm) hnot

theorem droppedBy_cons_found (hnodup : (s.track.sheets.map (·.id)).Nodup) {x : Sheet} (h : s.findSheet q.track = some x)
    (l : List Pick) : (droppedBy (q :: l) s.track.sheets).Perm (x :: droppedBy l (s.dropPick q).track.sheets) := by
  have hx : x ∈ s.track.sheets ∧ x.id = q.track := findSheet_mem h
  have hits : (droppedBy (q :: l) s.track.sheets).filter (fun y => y.id = q.track) = [x] := by
    rw [← hx.2, ← filter_eq_singleton hnodup hx.1, droppedBy, List.filter_filter]
    refine List.filter_congr fun y _ => ?_
    rw [Bool.and_eq_left_iff_imp, decide_eq_true_eq]
    intro hy
    simp [hy, hx.2]
  have hothers : (droppedBy (q :: l) s.track.sheets).filter (fun y => !decide (y.id = q.track))
      = droppedBy l (s.dropPick q).track.sheets := by
    rw [dropPick_sheets, droppedBy, droppedBy, List.filter_filter, List.filter_filter]
    refine List.filter_congr fun y _ => ?_
    by_cases hy : y.id = q.track
    · simp [hy]
    · simp [hy, Ne.symm hy]
  have hsplit := List.filter_append_perm (fun y : Sheet => decide (y.id = q.track)) (droppedBy (q :: l) s.track.sheets)
  rw [hits, hothers] at hsplit
  exact hsplit.symm

end

theorem fewer_dropPick (s : State) (q : Pick) : Fewer s (s.dropPick q) := by
  cases h : s.findSheet q.track with
  | none => rw [dropPick_gone h]; exact .of_eq rfl rfl
  | some x =>
    rw [dropPick_found h]
    exact ⟨fun _ hc => (List.mem_filter.mp hc).1, fun _ hh => (List.mem_filter.mp hh).1⟩

theorem dropped_sheets (l : List Pick) (s : State) :
    (l.foldl State.dropPick s).track.sheets = s.track.sheets.filter fun y => !l.any (·.track == y.id) := by
  induction l generalizing s with
  | nil => exact (List.filter_eq_self.mpr fun _ _ => rfl).symm
  | cons q rest ih =>
    rw [List.foldl_cons, ih, dropPick_sheets, List.filter_filter]
    refine List.filter_congr fun y _ => ?_
    by_cases hy : y.id = q.track
    · simp [hy]
    · simp [hy, Ne.symm hy]

/-- Nothing refers to a sheet whose pick is dropped: no return pitch is reserved for it and no compare is its own. -/
theorem dropped_withdrawn (l : List Pick) (s : State) : ∀ x ∈ droppedBy l s.track.sheets,
    (∀ h ∈ (l.foldl State.dropPick s).clock.ring, h.track ≠ x.id)
    ∧ ∀ c ∈ (l.foldl State.dropPick s).transport.compares, c.owner.isOf x.id = false := by
  induction l generalizing s with
  | nil => simp [droppedBy]
  | cons q rest ih =>
    intro x hx
    obtain ⟨hmem, hany⟩ := List.mem_filter.mp hx
    rw [List.foldl_cons]
    by_cases hq : x.id = q.track
    · have hrest := fewer_foldl fewer_dropPick rest (s.dropPick q)
      obtain ⟨y, hy⟩ : ∃ y, s.findSheet q.track = some y := findSheet_of_sheetIds (hq ▸ mem_sheetIds hmem)
      rw [hq]
      refine ⟨fun h hh => ?_, fun c hc => ?_⟩
      · have hh := hrest.ring h hh
        rw [dropPick_found hy] at hh
        exact of_decide_eq_true (List.mem_filter.mp hh).2
      · have hc := hrest.compares c hc
        rw [dropPick_found hy] at hc
        exact Bool.not_eq_true' _ ▸ (List.mem_filter.mp hc).2
    · refine ih (s.dropPick q) x (List.mem_filter.mpr ⟨?_, ?_⟩)
      · rw [dropPick_sheets]
        exact List.mem_filter.mpr ⟨hmem, decide_eq_true hq⟩
      · simpa [Ne.symm hq] using hany

/-- With the numbers of the sheets distinct, each dropped pick is counted once. -/
theorem dropped_counts (l : List Pick) {s : State} (hnodup : (s.track.sheets.map (·.id)).Nodup) :
    (l.foldl State.dropPick s).mail = { s.mail with table := s.mail.table.map (mpDropped (droppedBy l s.track.sheets)) }
    ∧ (l.foldl State.dropPick s).fetch
      = { s.fetch with window := s.fetch.window.map (entryDropped (droppedBy l s.track.sheets)) }
    ∧ (l.foldl State.dropPick s).retire.launched
      = s.retire.launched - BitVec.ofNat 32 (droppedBy l s.track.sheets).length
    ∧ (l.foldl State.dropPick s).clock.ring
      = s.clock.ring.filter fun h => (droppedBy l s.track.sheets).all (·.id != h.track) := by
  induction l generalizing s with
  | nil =>
    have hmp : mpDropped [] = id := funext mpDropped_nil
    have hentry : entryDropped [] = id := funext fun e => rfl
    have hnone : droppedBy [] s.track.sheets = [] := List.filter_eq_nil_iff.mpr fun _ _ => Bool.false_ne_true
    rw [hnone, hmp, hentry, List.map_id, List.map_id]
    exact ⟨rfl, rfl, (BitVec.sub_zero _).symm, (List.filter_eq_self.mpr fun _ _ => rfl).symm⟩
  | cons q rest ih =>
    rw [List.foldl_cons]
    cases h : s.findSheet q.track with
    | none =>
      rw [dropPick_gone h, droppedBy_cons_gone h]
      exact ih hnodup
    | some x =>
      have hperm := droppedBy_cons_found hnodup h rest
      obtain ⟨hmail, hfetch, hlaunched, hring⟩ := ih (s := s.dropPick q) (by
        rw [dropPick_sheets]
        exact hnodup.sublist (List.filter_sublist.map _))
      have hx : x.id = q.track := (findSheet_mem h).2
      rw [hmail, hfetch, hlaunched, hring, mpDropped_perm hperm, entryDropped_perm hperm, hperm.length_eq]
      simp only [hperm.all_eq]
      generalize droppedBy rest (s.dropPick q).track.sheets = dropped
      rw [dropPick_found h]
      dsimp only
      rw [map_mpDropped_cons, map_entryDropped_cons]
      refine ⟨rfl, rfl, ?_, ?_⟩
      · rw [List.length_cons, BitVec.ofNat_add, BitVec.add_comm]
        exact BitVec.sub_sub ..
      · rw [List.filter_filter]
        refine List.filter_congr fun r _ => ?_
        rw [List.all_cons, ← hx, Bool.and_comm]
        by_cases hr : x.id = r.track
        · simp [hr]
        · simp [hr, Ne.symm hr]

end State

end Sys2Proof.Machine
end

section
/-! PROOFS. Frozen sheets and marks at the primary jam (for O51). -/

namespace Sys2Proof.Machine

open State

namespace State

/-! ## Frozen sheets (R145) -/

/-- A sheet of the path that freezes when `p` holds of it. -/
def frozenBy (p : Sheet → Bool) (x : Sheet) : Sheet := if x.state = .inPath ∧ p x then { x with state := .frozen } else x

theorem freeze_sheets (i : Nat) (s : State) :
    (s.freeze i).track.sheets = s.track.sheets.map fun y => if y.id = i then { y with state := .frozen } else y := rfl

theorem foldl_freeze_sheets (l : List Sheet) (s : State) : (l.foldl (fun u x => u.freeze x.id) s).track.sheets
    = s.track.sheets.map fun y => if l.any (·.id = y.id) then { y with state := .frozen } else y := by
  induction l generalizing s with
  | nil => simp
  | cons x rest ih =>
    rw [List.foldl_cons, ih, freeze_sheets, List.map_map]
    refine List.map_congr_left fun y _ => ?_
    rw [Function.comp, List.any_cons]
    by_cases hy : y.id = x.id
    · simp [hy]
    · simp [hy, Ne.symm hy]

section

variable {s : State} {p : Sheet → Bool}

/-- Where the numbers of the sheets are distinct exactly the sheets of the path with `p` freeze. -/
theorem freezeWhere_sheets (hnodup : (s.track.sheets.map (·.id)).Nodup) :
    (s.freezeWhere p).track.sheets = s.track.sheets.map (frozenBy p) := by
  refine (foldl_freeze_sheets _ s).trans (List.map_congr_left fun y hy => ?_)
  have hits : (s.track.sheets.filter fun x => x.state == .inPath && p x).any (·.id = y.id) = true
      ↔ y.state = .inPath ∧ p y = true := by
    simp only [List.any_eq_true, List.mem_filter, Bool.and_eq_true, beq_iff_eq, decide_eq_true_eq]
    constructor
    · rintro ⟨x, ⟨hx, hpx⟩, hid⟩
      have hsame : x ∈ s.track.sheets.filter (fun z : Sheet => z.id = y.id) := List.mem_filter.mpr ⟨hx, decide_eq_true hid⟩
      rw [filter_eq_singleton hnodup hy] at hsame
      rw [← List.mem_singleton.mp hsame]
      exact hpx
    · exact fun hpy => ⟨y, ⟨hy, hpy⟩, rfl⟩
  rw [frozenBy, ite_congr (propext hits) (fun _ => rfl) (fun _ => rfl)]

variable (hp : ∀ x : Sheet, p { x with state := .frozen } = p x)

/-- A sheet still in the path does not satisfy `p`. -/
theorem freezeWhere_inPath : ∀ y ∈ (s.freezeWhere p).track.sheets, y.state = .inPath → p y = false := by
  intro y hy hpath
  rw [freezeWhere, foldl_freeze_sheets] at hy
  obtain ⟨x, hx, rfl⟩ := List.mem_map.mp hy
  split at hpath
  · cases hpath
  next hnot =>
    rw [if_neg hnot]
    rw [Bool.eq_false_iff]
    intro hpx
    refine hnot (List.any_eq_true.mpr ⟨x, List.mem_filter.mpr ⟨hx, ?_⟩, decide_eq_true rfl⟩)
    rw [hpath, hpx]
    rfl

theorem freezeWhere_frozen (h : ∀ x ∈ s.track.sheets, x.state = .frozen ∨ (x.state = .inPath ∧ p x = true)) :
    ∀ y ∈ (s.freezeWhere p).track.sheets, y.state = .frozen := by
  intro y hy
  rw [freezeWhere, foldl_freeze_sheets] at hy
  obtain ⟨x, hx, rfl⟩ := List.mem_map.mp hy
  split
  · rfl
  next hnot =>
    refine (h x hx).resolve_right fun ⟨hpath, hpx⟩ => hnot (List.any_eq_true.mpr ⟨x, List.mem_filter.mpr ⟨hx, ?_⟩,
      decide_eq_true rfl⟩)
    rw [hpath, hpx]
    rfl

/-- What freezing leaves as it was. -/
theorem freezeWhere_frame (p : Sheet → Bool) (s : State) : (s.freezeWhere p).mail = s.mail ∧ (s.freezeWhere p).fetch = s.fetch
    ∧ (s.freezeWhere p).retire = s.retire ∧ (s.freezeWhere p).clock = s.clock ∧ (s.freezeWhere p).ctl = s.ctl := by
  simp

end

/-! ## Interrupted mailpieces and marks (R146) -/

/-- A mailpiece but for its state and the reason of its purge. -/
def mpKept (m : Mailpiece) : Mailpiece := { m with state := .filling, reason := none }

/-- A sheet but for its purge mark. -/
def sheetKept (x : Sheet) : Sheet := { x with purge := none }

/-- `t` follows from `s` by marking sheets and mailpieces for purging, with no candidate skipped. -/
structure Marks (s t : State) : Prop where
  table : t.mail.table.map mpKept = s.mail.table.map mpKept
  sheets : t.track.sheets.map sheetKept = s.track.sheets.map sheetKept
  fetch : t.fetch = s.fetch
  ctl : t.ctl = s.ctl

theorem Marks.trans {s t u : State} (h : Marks s t) (h' : Marks t u) : Marks s u :=
  ⟨h'.table.trans h.table, h'.sheets.trans h.sheets, h'.fetch.trans h.fetch, h'.ctl.trans h.ctl⟩

theorem enterPurging_stopping {s : State} {i : Nat} {why : Reason} {m : Mailpiece} (hstop : s.ctl.state = .stopping)
    (h : s.findMp i = some m) (hstate : m.state = .filling ∨ m.state = .launched) :
    s.enterPurging i why = s.purgingBegun i why m := by
  rw [enterPurging_begins h hstate, skipCandidate_other (.inr fun hits => ?_)]
  exact (((candidateOf_purgingBegun s i i why m).mp hits).2 hstop).elim

theorem marks_purgingBegun (s : State) (i : Nat) (why : Reason) (m : Mailpiece) : Marks s (s.purgingBegun i why m) := by
  rw [purgingBegun, releaseReservation_eq]
  refine ⟨?_, ?_, rfl, rfl⟩
  · refine (List.map_map ..).trans (List.map_congr_left fun r _ => ?_)
    rw [Function.comp]
    split <;> rfl
  · refine (List.map_map ..).trans (List.map_congr_left fun x _ => ?_)
    rw [Function.comp]
    split <;> rfl

theorem marks_enterPurging {s : State} (hstop : s.ctl.state = .stopping) (i : Nat) (why : Reason) :
    Marks s (s.enterPurging i why) := by
  cases h : s.findMp i with
  | none => rw [enterPurging_gone h]; exact ⟨rfl, rfl, rfl, rfl⟩
  | some m =>
    by_cases hstate : m.state = .filling ∨ m.state = .launched
    · rw [enterPurging_stopping hstop h hstate]
      exact marks_purgingBegun s i why m
    · rw [enterPurging_kept h hstate]
      exact ⟨rfl, rfl, rfl, rfl⟩

theorem marks_foldl {s : State} (hstop : s.ctl.state = .stopping) (l : List Sheet) (why : Reason) :
    Marks s (l.foldl (fun u x => u.enterPurging x.mp why) s) := by
  induction l generalizing s with
  | nil => exact ⟨rfl, rfl, rfl, rfl⟩
  | cons x rest ih =>
    have hone := marks_enterPurging hstop x.mp why
    exact hone.trans (ih (by rw [hone.ctl]; exact hstop))

/-- The sheets to be marked bear the mark JAM. -/
def jamMarked (s : State) : State :=
  { s with
    track := { s.track with
      sheets := s.track.sheets.map fun y =>
        if s.toMarkJam.any (·.id == y.id) then { y with purge := some .jam } else y } }

theorem markJam_eq (s : State) : s.markJam = s.toMarkJam.foldl (fun u x => u.enterPurging x.mp .jam) s.jamMarked := rfl

theorem marks_markJam {s : State} (hstop : s.ctl.state = .stopping) : Marks s s.markJam := by
  have hmarked : Marks s s.jamMarked := by
    refine ⟨rfl, (List.map_map ..).trans (List.map_congr_left fun x _ => ?_), rfl, rfl⟩
    rw [Function.comp]
    split <;> rfl
  rw [markJam_eq]
  exact hmarked.trans (marks_foldl (by exact hstop) _ _)

/-! ## What the marks depend on -/

/-- `t` has the mailpieces and the sheets of `s`, and both are STOPPING. -/
structure SamePieces (s t : State) : Prop where
  mail : t.mail = s.mail
  sheets : t.track.sheets = s.track.sheets
  stopping : s.ctl.state = .stopping
  stopping' : t.ctl.state = .stopping

section

variable {s t : State} (h : SamePieces s t)

include h

theorem SamePieces.enterPurging (i : Nat) (why : Reason) : SamePieces (s.enterPurging i why) (t.enterPurging i why) := by
  have hfind : t.findMp i = s.findMp i := by rw [findMp, h.mail, findMp]
  cases hm : s.findMp i with
  | none => rw [enterPurging_gone hm, enterPurging_gone (hfind.trans hm)]; exact h
  | some m =>
    by_cases hstate : m.state = .filling ∨ m.state = .launched
    · rw [enterPurging_stopping h.stopping hm hstate, enterPurging_stopping h.stopping' (hfind.trans hm) hstate,
        purgingBegun, purgingBegun, releaseReservation_eq, releaseReservation_eq]
      refine ⟨?_, ?_, h.stopping, h.stopping'⟩
      · simp only [markMailpieceSheets, updMp, onMail, onTrack, h.mail]
      · simp only [markMailpieceSheets, updMp, onMail, onTrack, h.sheets]
    · rw [enterPurging_kept hm hstate, enterPurging_kept (hfind.trans hm) hstate]
      exact h

theorem SamePieces.foldl (l : List Sheet) (why : Reason) : SamePieces (l.foldl (fun u x => u.enterPurging x.mp why) s)
    (l.foldl (fun u x => u.enterPurging x.mp why) t) := by
  induction l generalizing s t with
  | nil => exact h
  | cons x rest ih => exact ih (h.enterPurging x.mp why)

theorem SamePieces.setInterrupted : SamePieces s.setInterrupted t.setInterrupted := by
  refine ⟨?_, h.sheets, h.stopping, h.stopping'⟩
  show ({ t.mail with table := t.mail.table.map fun m => { m with interrupted := t.becomesInterrupted m } } : Mail)
    = { s.mail with table := s.mail.table.map fun m => { m with interrupted := s.becomesInterrupted m } }
  simp only [becomesInterrupted, h.mail, h.sheets]

theorem SamePieces.markJam : SamePieces s.markJam t.markJam := by
  have hmark : t.toMarkJam = s.toMarkJam := by rw [toMarkJam, h.mail, h.sheets, toMarkJam]
  rw [markJam_eq, markJam_eq, hmark]
  have hmarked : SamePieces s.jamMarked t.jamMarked := by
    refine ⟨h.mail, ?_, h.stopping, h.stopping'⟩
    simp only [jamMarked, hmark, h.sheets]
  exact hmarked.foldl _ _

end

end State

end Sys2Proof.Machine
end

section
/-! PROOFS. The primary jam (O51). -/

namespace Sys2Proof.Machine

open State

namespace State

/-! ## The sections stopped at once (R143) -/

theorem stoppedBy_get (fault : PerSection Bool) (x : Section) :
    (stoppedBy fault).get x = (decide (x ≠ .down) || fault.down) := by
  unfold stoppedBy
  cases hdown : fault.down <;> cases x <;> rfl

theorem isStranded_iff (fault : PerSection Bool) (x : Sheet) : isStranded (stoppedBy fault) x = true ↔
    x.occ.any (fun o => decide (o.at_.sec ≠ .down) || fault.down) = true
    ∨ (∃ c, x.next = some c ∧ (c.sec ≠ .down ∨ fault.down = true)) := by
  unfold isStranded
  cases x.next <;> simp [stoppedBy_get]

theorem isStranded_eq (fault : PerSection Bool) (x : Sheet) : isStranded (stoppedBy fault) x =
    (x.occ.any (fun o => o.at_.sec != .down || fault.down) || x.next.any fun c => c.sec != .down || fault.down) := by
  unfold isStranded
  have hupper : ∀ z : Section, (z != .down) = decide (z ≠ .down) := fun z => by cases z <;> rfl
  simp only [hupper]
  cases x.next with
  | none => simp only [stoppedBy_get, Option.any_none]
  | some c => simp only [stoppedBy_get, Option.any_some]

/-! ## The steps of the primary jam (R142) -/

/-- The record is made and the sections of the fault and above are stopped and halted (R142 steps 1 to 3). -/
def primaryBegun (r : Report) (s : State) : State :=
  (((((s.recordPrimary r).onCtl fun u => { u with state := .stopping, pauseRec := none }).setAttn .jam).discardRead).stopOrder
    (stoppedBy r.place.sections)).haltSections (stoppedBy r.place.sections)

/-- The picks not yet issued are dropped and the stranded sheets freeze (R142 steps 4 and 5). -/
def primaryFrozen (r : Report) (s : State) : State :=
  (s.primaryBegun r).dropPicks.freezeWhere (isStranded (stoppedBy r.place.sections))

/-- The mailpieces are marked (R146). -/
def primaryMarked (r : Report) (s : State) : State := (s.primaryFrozen r).setInterrupted.markJam

theorem primaryJam_eq (r : Report) (s : State) : s.primaryJam r =
    (s.primaryMarked r).issueWrite ⟨2, (s.primaryMarked r).controlWord 159, 0, .plain⟩ .endOfDrain State.endOfDrain := rfl

theorem report_primary {r : Report} {s : State} (h : s.ctl.state = .running ∨ s.ctl.state = .draining ∨ s.ctl.state = .standby) :
    s.report r = s.primaryJam r := by
  obtain h | h | h := h <;> simp only [report, h]

section

variable (r : Report) (s : State)

theorem primaryBegun_frame : (s.primaryBegun r).track.sheets = s.track.sheets ∧ (s.primaryBegun r).mail = s.mail
    ∧ (s.primaryBegun r).retire = s.retire ∧ (s.primaryBegun r).clock.ring = s.clock.ring
    ∧ (s.primaryBegun r).launch = s.launch ∧ (s.primaryBegun r).fetch.window = s.fetch.window := by
  simp [primaryBegun, discardRead, onFetch, setAttn, onCtl]

theorem primaryMarked_frame : (s.primaryMarked r).jam = (s.recordPrimary r).jam
    ∧ (s.primaryMarked r).ctl = { s.ctl with state := .stopping, pauseRec := none, attn := s.ctl.attn ||| AttnFlag.jam.mask }
    ∧ (s.primaryMarked r).mem = s.mem ∧ (s.primaryMarked r).config = s.config ∧ (s.primaryMarked r).out = s.out
    ∧ (s.primaryMarked r).launch.schedule = []
    ∧ (s.primaryMarked r).fetch.read = s.fetch.read.map (fun q => { q with discard := true })
    ∧ (s.primaryMarked r).fetch.rereadAsked = false := by
  simp [primaryMarked, primaryFrozen, primaryBegun, dropPicks, discardRead, onFetch, onLaunch, setAttn, onCtl]

theorem primaryMarked_motors : (s.primaryMarked r).transport.run = (s.primaryBegun r).transport.run
    ∧ (s.primaryMarked r).transport.state = (s.primaryBegun r).transport.state
    ∧ (s.primaryMarked r).track.tracking = (s.primaryBegun r).track.tracking := by
  simp [primaryMarked, primaryFrozen]

theorem primaryFrozen_state : (s.primaryFrozen r).ctl.state = .stopping := by
  simp [primaryFrozen, primaryBegun, discardRead, onFetch, setAttn, onCtl]

/-! ## How it ends (R142 steps 6 and 7) -/

/-- Word 159 of the stop record, which the primary jam empties. -/
def emptyMark (s : State) : Write := ⟨2, s.controlWord 159, 0, .plain⟩

/-- The marked state with the write of the empty word queued. -/
def primaryQueued : State :=
  { s.primaryMarked r with mem := { s.mem with queue := s.mem.queue ++ [s.emptyMark] } }

/-- The marked state with the write held. -/
def primaryHeld : State :=
  { s.primaryMarked r with mem := { s.mem with held := s.mem.held ++ [⟨s.emptyMark, .endOfDrain⟩] } }

theorem primaryMarked_emptyMark : (⟨2, (s.primaryMarked r).controlWord 159, 0, .plain⟩ : Write) = s.emptyMark := by
  rw [emptyMark, controlWord, controlWord, (primaryMarked_frame r s).2.1]

end

/-- No sheet drains. -/
def allFrozen (s : State) : Prop := ∀ x ∈ s.track.sheets, x.state = .frozen

section

variable {r : Report} {s : State}

theorem primaryJam_room (h : s.queueHasRoom = true) : s.primaryJam r = (s.primaryQueued r).endOfDrain := by
  have hmem := (primaryMarked_frame r s).2.2.1
  have hroom : (s.primaryMarked r).queueHasRoom = true := by rw [queueHasRoom, hmem]; exact h
  rw [primaryJam_eq, issueWrite_room hroom, primaryMarked_emptyMark, hmem]
  rfl

theorem primaryJam_full (h : s.queueHasRoom = false) : s.primaryJam r = s.primaryHeld r := by
  have hmem := (primaryMarked_frame r s).2.2.1
  have hfull : (s.primaryMarked r).queueHasRoom = false := by rw [queueHasRoom, hmem]; exact h
  rw [primaryJam_eq, issueWrite_full hfull, primaryMarked_emptyMark, hmem]
  rfl

theorem primaryQueued_state : (s.primaryQueued r).ctl.state = .stopping := by
  show (s.primaryMarked r).ctl.state = _
  rw [(primaryMarked_frame r s).2.1]

theorem primaryJam_jams (h : s.queueHasRoom = true) (hall : (s.primaryMarked r).allFrozen) :
    s.primaryJam r = (s.primaryQueued r).jammedEntry := by
  rw [primaryJam_room h, endOfDrain_eq]
  exact if_pos ⟨primaryQueued_state, hall⟩

theorem primaryJam_drains (h : s.queueHasRoom = true) (hsome : ¬(s.primaryMarked r).allFrozen) :
    s.primaryJam r = s.primaryQueued r := by
  rw [primaryJam_room h, endOfDrain_eq]
  exact if_neg fun hall => hsome hall.2

/-- The primary jam ends STOPPING, its marked state kept but for the write; or the path is empty of draining sheets and
it ends JAMMED. -/
theorem primaryJam_cases (r : Report) (s : State) :
    ((∃ m, s.primaryJam r = { s.primaryMarked r with mem := m }) ∧ (s.primaryJam r).ctl.state = .stopping)
    ∨ (s.queueHasRoom = true ∧ (s.primaryMarked r).allFrozen ∧ s.primaryJam r = (s.primaryQueued r).jammedEntry
      ∧ (s.primaryJam r).ctl.state = .jammed) := by
  cases hroom : s.queueHasRoom with
  | false =>
    rw [primaryJam_full hroom]
    exact .inl ⟨⟨_, rfl⟩, primaryQueued_state⟩
  | true =>
    by_cases hall : (s.primaryMarked r).allFrozen
    · rw [primaryJam_jams hroom hall]
      exact .inr ⟨rfl, hall, rfl, rfl⟩
    · rw [primaryJam_drains hroom hall]
      exact .inl ⟨⟨_, rfl⟩, primaryQueued_state⟩

end

/-! ## Its record, the motors and the write (R142 steps 1, 2 and 7) -/

theorem jammedEntry_run {s : State} {x : Section} (h : s.transport.run.get x = false) :
    s.jammedEntry.transport.run.get x = false := by
  have hrun : s.jammedEntry.transport.run = s.jamStopped.transport.run := by
    rw [jammedEntry_eq]
    simp [jamPrepared, ordersSettled, stopRecordDue]
  have hstop : s.jamStopped.transport.run = (s.stopOrder ((perSection false).set .down true)).transport.run := by
    simp [jamStopped]
  rw [hrun, hstop]
  obtain hrun | hrun := stopOrder_run ((perSection false).set .down true) s
  · rw [hrun, PerSection.get_of, h, Bool.false_and]
  · rw [hrun, perSection_get]

theorem haltSections_named {named : PerSection Bool} {x : Section} (h : named.get x = true) (s : State) :
    (s.haltSections named).track.tracking.get x = false := by
  show (PerSection.of fun x => s.track.tracking.get x && !named.get x).get x = false
  rw [PerSection.get_of, h, Bool.not_true, Bool.and_false]

section

variable (r : Report) (s : State)

/-- The cause record of a primary jam. -/
def primaryCause : PrimaryCause :=
  { cause := r.cause, place := r.place, sheetAddr := r.sheet.map s.entryAddr, counts := r.counts, pitch := s.clock.pitch }

theorem recordPrimary_jam : (s.recordPrimary r).jam.primary = some (s.primaryCause r)
    ∧ (s.recordPrimary r).jam.seq = (if s.jam.seq = 0xFFFFFFFF then 1 else s.jam.seq + 1)
    ∧ (s.recordPrimary r).jam.secondary = 0 ∧ (s.recordPrimary r).jam.lastSecondary = none :=
  ⟨rfl, rfl, rfl, rfl⟩

/-- Neither end of the primary jam touches the record, the attention flags or the picks. -/
theorem primaryJam_end : (s.primaryJam r).jam.primary = (s.primaryMarked r).jam.primary
    ∧ (s.primaryJam r).jam.seq = (s.primaryMarked r).jam.seq
    ∧ (s.primaryJam r).jam.secondary = (s.primaryMarked r).jam.secondary
    ∧ (s.primaryJam r).jam.lastSecondary = (s.primaryMarked r).jam.lastSecondary
    ∧ (s.primaryJam r).ctl.attn = (s.primaryMarked r).ctl.attn ∧ (s.primaryJam r).ctl.pauseRec = (s.primaryMarked r).ctl.pauseRec
    ∧ (s.primaryJam r).launch.schedule = (s.primaryMarked r).launch.schedule := by
  obtain ⟨⟨m, ht⟩, -⟩ | ⟨-, -, ht, -⟩ := primaryJam_cases r s
  · rw [ht]
    exact ⟨rfl, rfl, rfl, rfl, rfl, rfl, rfl⟩
  · rw [ht]
    simp only [jammedEntry_frame]
    exact ⟨rfl, rfl, rfl, rfl, rfl, rfl, rfl⟩

theorem primaryJam_record : (s.primaryJam r).jam.primary = some (s.primaryCause r)
    ∧ (s.primaryJam r).jam.seq = (if s.jam.seq = 0xFFFFFFFF then 1 else s.jam.seq + 1)
    ∧ (s.primaryJam r).jam.secondary = 0 ∧ (s.primaryJam r).jam.lastSecondary = none
    ∧ (s.primaryJam r).attnHas .jam = true ∧ (s.primaryJam r).ctl.pauseRec = none ∧ (s.primaryJam r).launch.schedule = [] := by
  obtain ⟨hjam, hctl, -, -, -, hschedule, -⟩ := primaryMarked_frame r s
  obtain ⟨hprimary, hseq, hsecondary, hlast⟩ := recordPrimary_jam r s
  obtain ⟨tprimary, tseq, tsecondary, tlast, tattn, tpause, tschedule⟩ := primaryJam_end r s
  rw [attnHas, tprimary, tseq, tsecondary, tlast, tattn, tpause, tschedule, hjam, hctl, hschedule]
  exact ⟨hprimary, hseq, hsecondary, hlast, setAttn_attnHas .jam s, rfl, rfl⟩

theorem primaryJam_motors {x : Section} (h : (stoppedBy r.place.sections).get x = true) :
    (s.primaryJam r).transport.run.get x = false ∧ (s.primaryJam r).track.tracking.get x = false := by
  obtain ⟨hrun, -, htracking⟩ := primaryMarked_motors r s
  have hstopped : (s.primaryMarked r).transport.run.get x = false := by
    rw [hrun]
    exact stopOrder_named h _
  obtain ⟨⟨m, ht⟩, -⟩ | ⟨-, -, ht, -⟩ := primaryJam_cases r s
  · rw [ht]
    refine ⟨hstopped, ?_⟩
    show (s.primaryMarked r).track.tracking.get x = false
    rw [htracking]
    exact haltSections_named h _
  · rw [ht, (jammedEntry_stopped _).2, perSection_get]
    exact ⟨jammedEntry_run (by exact hstopped), rfl⟩

theorem primaryJam_queue (h : s.queueHasRoom = true) : s.emptyMark ∈ (s.primaryJam r).mem.queue := by
  have hlast : s.emptyMark ∈ (s.primaryQueued r).mem.queue := List.mem_append_right _ (List.mem_singleton_self _)
  by_cases hall : (s.primaryMarked r).allFrozen
  · rw [primaryJam_jams h hall]
    simpa only [jammedEntry_frame] using hlast
  · rw [primaryJam_drains h hall]
    exact hlast

theorem discard_discard (o : Option OutstandingRead) : (o.map fun q => { q with discard := true }).map
    (fun q => { q with discard := true }) = o.map fun q => { q with discard := true } := by
  cases o <;> rfl

theorem jammedEntry_read (s : State) : s.jammedEntry.fetch.read = s.fetch.read.map (fun q => { q with discard := true })
    ∧ s.jammedEntry.fetch.rereadAsked = false := by
  rw [jammedEntry_eq]
  simp [jamPrepared, ordersSettled, stopRecordDue, clearFetch, discardRead, onFetch, onLaunch, onMail, onMem, jamStopped]

theorem primaryJam_read : (s.primaryJam r).fetch.read = s.fetch.read.map (fun q => { q with discard := true })
    ∧ (s.primaryJam r).fetch.rereadAsked = false := by
  obtain ⟨-, -, -, -, -, -, hread, hreread⟩ := primaryMarked_frame r s
  obtain ⟨⟨m, ht⟩, -⟩ | ⟨-, -, ht, -⟩ := primaryJam_cases r s
  · rw [ht]
    exact ⟨hread, hreread⟩
  · obtain ⟨hread', hreread'⟩ := jammedEntry_read (s.primaryQueued r)
    rw [ht, hread', hreread']
    refine ⟨?_, rfl⟩
    show (s.primaryMarked r).fetch.read.map _ = _
    rw [hread, discard_discard]

theorem primaryJam_kept : (s.primaryJam r).transport.count = s.transport.count
    ∧ (s.primaryJam r).transport.sensors = s.transport.sensors ∧ (s.primaryJam r).clock.loopUnusable = s.clock.loopUnusable
    ∧ (s.primaryJam r).config = s.config ∧ (s.primaryJam r).out = s.out := by
  simp only [primaryJam_frame, true_and]

theorem fewer_primaryJam : Fewer (s.primaryMarked r) (s.primaryJam r) := by
  obtain ⟨⟨m, ht⟩, -⟩ | ⟨-, -, ht, -⟩ := primaryJam_cases r s
  · rw [ht]
    exact .of_eq rfl rfl
  · rw [ht]
    exact Fewer.trans (t := s.primaryQueued r) (.of_eq rfl rfl) (fewer_jammedEntry _)

/-! ## The sheets (R144, R145) -/

/-- The sheets of which nothing remains. -/
def primaryDropped (s : State) : List Sheet := droppedBy s.launch.schedule s.track.sheets

theorem primaryDropped_sheets : (s.primaryBegun r).dropPicks.track.sheets
    = s.track.sheets.filter fun x => !s.launch.schedule.any (·.track == x.id) := by
  obtain ⟨hsheets, -, -, -, hlaunch, -⟩ := primaryBegun_frame r s
  rw [← hsheets, ← hlaunch]
  exact dropped_sheets _ _

theorem fewer_setMarks : Fewer (s.primaryFrozen r) (s.primaryMarked r) := by
  refine .of_eq ?_ ?_ <;> simp [primaryMarked]

/-- Nothing refers to a dropped sheet (R144). -/
theorem primaryJam_withdrawn : ∀ x ∈ s.primaryDropped, (∀ h ∈ (s.primaryJam r).clock.ring, h.track ≠ x.id)
    ∧ ∀ q ∈ (s.primaryJam r).transport.compares, q.owner.isOf x.id = false := by
  intro x hx
  obtain ⟨hsheets, -, -, -, hlaunch, -⟩ := primaryBegun_frame r s
  rw [primaryDropped, ← hsheets, ← hlaunch] at hx
  obtain ⟨hring, hcompares⟩ := dropped_withdrawn _ _ x hx
  have hfewer : Fewer (s.primaryBegun r).dropPicks (s.primaryJam r) :=
    ((fewer_freezeWhere _ _).trans (fewer_setMarks r s)).trans (fewer_primaryJam r s)
  exact ⟨fun h hh => hring h (hfewer.ring h hh), fun q hq => hcompares q (hfewer.compares q hq)⟩

theorem primaryMarked_marks : Marks (s.primaryFrozen r).setInterrupted (s.primaryMarked r) :=
  marks_markJam (primaryFrozen_state r s)

theorem primaryMarked_sheets : (s.primaryMarked r).track.sheets.map sheetKept = (s.primaryFrozen r).track.sheets.map sheetKept :=
  (primaryMarked_marks r s).sheets

/-- A sheet after the marks has its state, its route and its number from before them. -/
theorem mem_primaryMarked {x : Sheet} (hx : x ∈ (s.primaryMarked r).track.sheets) :
    ∃ y ∈ (s.primaryFrozen r).track.sheets, sheetKept y = sheetKept x := by
  have hmem := List.mem_map_of_mem (f := sheetKept) hx
  rw [primaryMarked_sheets] at hmem
  obtain ⟨y, hy, heq⟩ := List.mem_map.mp hmem
  exact ⟨y, hy, heq⟩

theorem mem_primaryFrozen {y : Sheet} (hy : y ∈ (s.primaryFrozen r).track.sheets) :
    ∃ x ∈ (s.primaryMarked r).track.sheets, sheetKept x = sheetKept y := by
  have hmem := List.mem_map_of_mem (f := sheetKept) hy
  rw [← primaryMarked_sheets] at hmem
  obtain ⟨x, hx, heq⟩ := List.mem_map.mp hmem
  exact ⟨x, hx, heq⟩

theorem primaryMarked_allFrozen : (s.primaryMarked r).allFrozen ↔ (s.primaryFrozen r).allFrozen := by
  constructor
  · intro h y hy
    obtain ⟨x, hx, heq⟩ := mem_primaryFrozen r s hy
    exact (congrArg Sheet.state heq).symm.trans (h x hx)
  · intro h x hx
    obtain ⟨y, hy, heq⟩ := mem_primaryMarked r s hx
    exact (congrArg Sheet.state heq).symm.trans (h y hy)

theorem primaryMarked_inPath : ∀ x ∈ (s.primaryMarked r).track.sheets, isStranded (stoppedBy r.place.sections) x = true →
    x.state ≠ .inPath := by
  intro x hx hstranded hpath
  obtain ⟨y, hy, heq⟩ := mem_primaryMarked r s hx
  have hsame : isStranded (stoppedBy r.place.sections) (sheetKept y) = isStranded (stoppedBy r.place.sections) (sheetKept x) := by
    rw [heq]
  have hnot := freezeWhere_inPath y hy ((congrArg Sheet.state heq).trans hpath)
  exact Bool.noConfusion (hnot.symm.trans (hsame.trans hstranded))

/-- When every sheet of the path is dropped or stranded, none drains. -/
theorem allFrozen_of_stranded (h : ∀ x ∈ s.track.sheets, s.launch.schedule.any (·.track == x.id) = true ∨ x.state = .frozen
      ∨ (x.state = .inPath ∧ isStranded (stoppedBy r.place.sections) x = true)) : (s.primaryMarked r).allFrozen := by
  rw [primaryMarked_allFrozen]
  refine freezeWhere_frozen fun x hx => ?_
  rw [primaryDropped_sheets] at hx
  obtain ⟨hmem, hnot⟩ := List.mem_filter.mp hx
  refine (h x hmem).resolve_left fun hscheduled => ?_
  rw [hscheduled] at hnot
  exact Bool.false_ne_true hnot

end

/-! ## With the sheet books kept (R133) -/

section

variable (r : Report) {s : State} (hbooks : s.SheetBooks)

include hbooks

theorem primaryFrozen_sheets : (s.primaryFrozen r).track.sheets =
    (s.track.sheets.filter fun x => !s.launch.schedule.any (·.track == x.id)).map
      (frozenBy (isStranded (stoppedBy r.place.sections))) := by
  rw [primaryFrozen, freezeWhere_sheets, primaryDropped_sheets]
  rw [primaryDropped_sheets]
  exact hbooks.distinct.sublist (List.filter_sublist.map _)

theorem stranded_of_allFrozen (h : (s.primaryMarked r).allFrozen) : ∀ x ∈ s.track.sheets,
    s.launch.schedule.any (·.track == x.id) = true ∨ x.state = .frozen
      ∨ (x.state = .inPath ∧ isStranded (stoppedBy r.place.sections) x = true) := by
  intro x hx
  by_cases hscheduled : s.launch.schedule.any (·.track == x.id) = true
  · exact .inl hscheduled
  · rw [primaryMarked_allFrozen, allFrozen, primaryFrozen_sheets r hbooks, List.forall_mem_map] at h
    have hfrozen := h x (List.mem_filter.mpr ⟨hx, by simpa using hscheduled⟩)
    rw [frozenBy] at hfrozen
    split at hfrozen
    next hstranded => exact .inr (.inr hstranded)
    · exact .inr (.inl hfrozen)

/-- The mailpieces, orders and counts once the picks are dropped and the sheets are frozen. -/
theorem primaryFrozen_counts :
    (s.primaryFrozen r).mail = { s.mail with table := s.mail.table.map (mpDropped s.primaryDropped) }
    ∧ (s.primaryFrozen r).fetch.window = s.fetch.window.map (entryDropped s.primaryDropped)
    ∧ (s.primaryFrozen r).retire.launched = s.retire.launched - BitVec.ofNat 32 s.primaryDropped.length
    ∧ (s.primaryFrozen r).clock.ring = s.clock.ring.filter fun h => s.primaryDropped.all (·.id != h.track) := by
  obtain ⟨hsheets, hmail, hretire, hring, hlaunch, hwindow⟩ := primaryBegun_frame r s
  have hnodup : ((s.primaryBegun r).track.sheets.map (·.id)).Nodup := by rw [hsheets]; exact hbooks.distinct
  obtain ⟨hmail', hfetch', hlaunched', hring'⟩ := dropped_counts (s.primaryBegun r).launch.schedule hnodup
  obtain ⟨fmail, ffetch, fretire, fclock, -⟩ :=
    freezeWhere_frame (isStranded (stoppedBy r.place.sections)) (s.primaryBegun r).dropPicks
  rw [primaryFrozen, fmail, ffetch, fretire, fclock, primaryDropped, ← hlaunch, ← hsheets, ← hmail, ← hretire, ← hring,
    ← hwindow]
  exact ⟨hmail', congrArg Fetch.window hfetch', hlaunched', hring'⟩

end

end State

end Sys2Proof.Machine
end

section
/-! PROOFS. The primary jam settled (O51). -/

namespace Sys2Proof.Machine

open State

namespace State

/-! ## What is left while sheets drain -/

section

variable (r : Report) {s : State} (hbooks : s.SheetBooks)

include hbooks

theorem primaryMarked_ids : (s.primaryMarked r).track.sheets.map (·.id)
    = (s.track.sheets.filter fun x => !s.launch.schedule.any (·.track == x.id)).map (·.id) := by
  have hmarks := congrArg (List.map Sheet.id) (primaryMarked_sheets r s)
  rw [List.map_map, List.map_map, primaryFrozen_sheets r hbooks] at hmarks
  refine hmarks.trans ((List.map_map ..).trans (List.map_congr_left fun x _ => ?_))
  rw [Function.comp, frozenBy]
  split <;> rfl

theorem primaryMarked_table : (s.primaryMarked r).mail.table.map (fun m => (m.id, m.launched, m.taken))
    = s.mail.table.map fun m => (m.id, m.launched - (s.primaryDropped.filter (·.mp = m.id)).length,
      m.taken - (s.primaryDropped.filter (·.mp = m.id)).length) := by
  have hmarks := congrArg (List.map fun m : Mailpiece => (m.id, m.launched, m.taken)) (primaryMarked_marks r s).table
  rw [List.map_map, List.map_map] at hmarks
  refine hmarks.trans ?_
  show ((s.primaryFrozen r).mail.table.map _).map _ = _
  rw [(primaryFrozen_counts r hbooks).1, List.map_map, List.map_map]
  rfl

theorem primaryMarked_interrupted : ∀ m ∈ (s.primaryMarked r).mail.table, (∃ x ∈ s.primaryDropped, x.mp = m.id) →
    m.interrupted = true := by
  rintro m hm ⟨x, hx, hmp⟩
  have hmem := List.mem_map_of_mem (f := mpKept) hm
  rw [(primaryMarked_marks r s).table] at hmem
  obtain ⟨y, hy, heq⟩ := List.mem_map.mp hmem
  obtain ⟨z, hz, rfl⟩ := List.mem_map.mp hy
  rw [(primaryFrozen_counts r hbooks).1] at hz
  obtain ⟨w, -, rfl⟩ := List.mem_map.mp hz
  have hid := congrArg Mailpiece.id heq
  have hsame := congrArg Mailpiece.interrupted heq
  have hid : w.id = m.id := hid
  have hlost : (s.primaryDropped.filter (·.mp = w.id)).length ≠ 0 := by
    rw [Ne, List.length_eq_zero_iff]
    exact List.ne_nil_of_mem (List.mem_filter.mpr ⟨hx, decide_eq_true (hmp.trans hid.symm)⟩)
  have hint : (mpDropped s.primaryDropped w).interrupted = true := by simp [mpDropped, hlost]
  refine Eq.trans (Eq.symm hsame) ?_
  show becomesInterrupted _ _ = true
  rw [becomesInterrupted, hint]
  rfl

theorem primaryMarked_window : (s.primaryMarked r).fetch.window = s.fetch.window.map (entryDropped s.primaryDropped) := by
  rw [(primaryMarked_marks r s).fetch]
  exact (primaryFrozen_counts r hbooks).2.1

theorem primaryMarked_counts : (s.primaryMarked r).retire.launched = s.retire.launched - BitVec.ofNat 32 s.primaryDropped.length
    ∧ (s.primaryMarked r).clock.ring = s.clock.ring.filter fun h => s.primaryDropped.all (·.id != h.track) := by
  obtain ⟨-, -, hlaunched, hring⟩ := primaryFrozen_counts r hbooks
  rw [← hlaunched, ← hring]
  simp [primaryMarked]

theorem primaryJam_launched : (s.primaryJam r).retire.launched = s.retire.launched - BitVec.ofNat 32 s.primaryDropped.length := by
  have hlaunched := (primaryMarked_counts r hbooks).1
  obtain ⟨⟨m, ht⟩, -⟩ | ⟨-, -, ht, -⟩ := primaryJam_cases r s
  · rw [ht]
    exact hlaunched
  · rw [ht]
    simp only [jammedEntry_frame]
    exact hlaunched

end

/-! ## The Down section runs on (R143) -/

theorem stopOrder_unnamed {s : State} {named : PerSection Bool} {x : Section} (hnamed : named.get x = false)
    (h : s.transport.state = .atSpeed) : (s.stopOrder named).transport.run.get x = s.transport.run.get x
    ∧ (s.transport.run.get x = true → (s.stopOrder named).transport.state = .atSpeed) := by
  have hkept : (PerSection.of fun z => s.transport.run.get z && !named.get z).get x = s.transport.run.get x := by
    rw [PerSection.get_of, hnamed, Bool.not_false, Bool.and_true]
  rw [stopOrder_atSpeed named h]
  split
  · exact ⟨hkept, fun _ => h⟩
  next hnone =>
    have hstopped : s.transport.run.get x = false := by
      rw [Bool.eq_false_iff]
      exact fun hrun => hnone ((PerSection.any_iff _).mpr ⟨x, hkept.trans hrun⟩)
    rw [enterRunOut_atSpeed (by exact h), hstopped]
    exact ⟨perSection_get _ _, fun hrun => Bool.noConfusion hrun⟩

/-- The record of the jam is made. -/
def primaryRecorded (r : Report) (s : State) : State :=
  (((s.recordPrimary r).onCtl fun u => { u with state := .stopping, pauseRec := none }).setAttn .jam).discardRead

theorem primaryBegun_eq (r : Report) (s : State) : s.primaryBegun r =
    ((s.primaryRecorded r).stopOrder (stoppedBy r.place.sections)).haltSections (stoppedBy r.place.sections) := rfl

section

variable (r : Report) (s : State)

theorem primaryRecorded_frame : (s.primaryRecorded r).transport = s.transport ∧ (s.primaryRecorded r).track = s.track :=
  ⟨rfl, rfl⟩

theorem primaryMarked_down (h : r.place.sections.down = false) :
    (s.primaryMarked r).track.tracking.down = s.track.tracking.down
    ∧ (s.transport.state = .atSpeed → (s.primaryMarked r).transport.run.down = s.transport.run.down
      ∧ (s.transport.run.down = true → (s.primaryMarked r).transport.state = .atSpeed)) := by
  have hnamed : (stoppedBy r.place.sections).get .down = false := by rw [stoppedBy_get, h]; rfl
  obtain ⟨hrun, hstate, htracking⟩ := primaryMarked_motors r s
  have hbegun : (s.primaryBegun r).transport.run = ((s.primaryRecorded r).stopOrder (stoppedBy r.place.sections)).transport.run
      ∧ (s.primaryBegun r).transport.state
        = ((s.primaryRecorded r).stopOrder (stoppedBy r.place.sections)).transport.state := ⟨rfl, rfl⟩
  have hdown : (s.primaryBegun r).track.tracking.get .down = s.track.tracking.get .down := by
    have htrack : ((s.primaryRecorded r).stopOrder (stoppedBy r.place.sections)).track = s.track := by
      simp only [stopOrder_frame, primaryRecorded_frame]
    show (PerSection.of fun x => ((s.primaryRecorded r).stopOrder _).track.tracking.get x && !_).get .down = _
    rw [PerSection.get_of, hnamed, htrack, Bool.not_false, Bool.and_true]
  rw [htracking, hrun, hstate, hbegun.1, hbegun.2]
  exact ⟨hdown, fun hspeed => stopOrder_unnamed (s := s.primaryRecorded r) hnamed hspeed⟩

theorem fewer_primaryFrozen : Fewer (s.primaryBegun r) (s.primaryFrozen r) := by
  have hdrop : Fewer (s.primaryBegun r) (s.primaryBegun r).dropPicks :=
    (fewer_foldl fewer_dropPick (s.primaryBegun r).launch.schedule _).trans (.of_eq rfl rfl)
  exact hdrop.trans (fewer_freezeWhere _ _)

/-- A deadline that is left is one of the Down section, which no fault stopped. -/
theorem primaryMarked_deadlines : ∀ q ∈ (s.primaryMarked r).transport.compares, q.owner.isDeadline = true →
    q ∈ s.transport.compares ∧ q.sec = .down ∧ r.place.sections.down = false := by
  intro q hq hdeadline
  have hbegun := ((fewer_primaryFrozen r s).trans (fewer_setMarks r s)).compares q hq
  obtain ⟨hmem, hnot⟩ := List.mem_filter.mp hbegun
  rw [hdeadline, Bool.true_and, stoppedBy_get] at hnot
  simp only [Bool.not_eq_true', Bool.or_eq_false_iff, decide_eq_false_iff_not, ne_eq, Classical.not_not] at hnot
  exact ⟨(fewer_stopOrder (s.primaryRecorded r) _).compares q hmem, hnot⟩

/-! ## The marks as the specification writes them (R146) -/

theorem primaryJam_marks (hbooks : s.SheetBooks) {classified : State}
    (hmail : classified.mail = { s.mail with table := s.mail.table.map (mpDropped s.primaryDropped) })
    (hsheets : classified.track.sheets = (s.track.sheets.filter fun x => !s.launch.schedule.any (·.track == x.id)).map
      (frozenBy (isStranded (stoppedBy r.place.sections)))) (hstop : classified.ctl.state = .stopping) :
    (s.primaryMarked r).mail = (classified.setInterrupted.markJam).mail
    ∧ (s.primaryMarked r).track.sheets = (classified.setInterrupted.markJam).track.sheets := by
  have hsame : SamePieces classified (s.primaryFrozen r) :=
    ⟨(primaryFrozen_counts r hbooks).1.trans hmail.symm, (primaryFrozen_sheets r hbooks).trans hsheets.symm, hstop,
      primaryFrozen_state r s⟩
  have hmarks := hsame.setInterrupted.markJam
  exact ⟨hmarks.mail, hmarks.sheets⟩

end

/-! ## The two ends -/

section

variable {r : Report} {s : State}

theorem primaryJam_stopping (h : (s.primaryJam r).ctl.state = .stopping) :
    ∃ m, s.primaryJam r = { s.primaryMarked r with mem := m } := by
  obtain ⟨ht, -⟩ | ⟨-, -, -, hjammed⟩ := primaryJam_cases r s
  · exact ht
  · cases h.symm.trans hjammed

theorem primaryJam_jammed (h : (s.primaryJam r).ctl.state = .jammed) :
    s.queueHasRoom = true ∧ (s.primaryMarked r).allFrozen ∧ (s.primaryJam r).track.sheets = [] := by
  obtain ⟨-, hstopping⟩ | ⟨hroom, hall, ht, -⟩ := primaryJam_cases r s
  · cases h.symm.trans hstopping
  · rw [ht]
    exact ⟨hroom, hall, jammedEntry_sheets _⟩

theorem primaryJam_state (r : Report) (s : State) :
    (s.primaryJam r).ctl.state = .stopping ∨ (s.primaryJam r).ctl.state = .jammed := by
  obtain ⟨-, hstopping⟩ | ⟨-, -, -, hjammed⟩ := primaryJam_cases r s
  · exact .inl hstopping
  · exact .inr hjammed

theorem primaryJam_stopping_mem (hroom : s.queueHasRoom = true) (h : (s.primaryJam r).ctl.state = .stopping) :
    (s.primaryJam r).mem = { s.mem with queue := s.mem.queue ++ [s.emptyMark] } := by
  by_cases hall : (s.primaryMarked r).allFrozen
  · rw [primaryJam_jams hroom hall] at h
    cases h
  · rw [primaryJam_drains hroom hall]
    rfl

end

/-- A sheet whose pick is dropped leaves the track table. -/
theorem primaryJam_gone (r : Report) (s : State) : ∀ x ∈ s.primaryDropped, ∀ y ∈ (s.primaryJam r).track.sheets, y.id ≠ x.id := by
  intro x hx y hy
  obtain hstop | hjammed := primaryJam_state r s
  · obtain ⟨m, ht⟩ := primaryJam_stopping hstop
    have hmem : y.id ∈ (s.primaryMarked r).sheetIds := by
      rw [ht] at hy
      exact mem_sheetIds hy
    rw [primaryMarked, primaryFrozen, sheetIds_markJam, sheetIds_setInterrupted, sheetIds_freezeWhere, sheetIds,
      primaryDropped_sheets] at hmem
    obtain ⟨z, hz, hid⟩ := List.mem_map.mp hmem
    intro hsame
    have hnot := (List.mem_filter.mp hz).2
    rw [hid, hsame, (List.mem_filter.mp hx).2] at hnot
    exact Bool.false_ne_true hnot
  · rw [(primaryJam_jammed hjammed).2.2] at hy
    cases hy

/-- A mark not given is none. -/
theorem isNone_eq_beq (why : Option Reason) : why.isNone = (why == none) := by
  cases why <;> rfl

end State

/-- Settles O51, in the order of its parts. -/
theorem primaryJam : Obligations.PrimaryJam := by
  refine ⟨⟨fun r s hlive => ?_, fun s => ?_, fun r s hbooks hlive => ?_⟩, fun r s hlive => ?_⟩
  · intro downToo stranded scheduled dropped
    have hstranded : ∀ x, isStranded (stoppedBy r.place.sections) x = true ↔ stranded x := isStranded_iff r.place.sections
    obtain ⟨hprimary, hseq, hsecondary, hlast, hattn, hpause, hschedule⟩ := primaryJam_record r s
    obtain ⟨hup, hupTracking⟩ := primaryJam_motors r s (x := .up) (stoppedBy_get ..)
    obtain ⟨hloop, hloopTracking⟩ := primaryJam_motors r s (x := .loop) (stoppedBy_get ..)
    have hdown : downToo = true → (s.primaryJam r).transport.run.get .down = false
        ∧ (s.primaryJam r).track.tracking.get .down = false := fun h => primaryJam_motors r s ((stoppedBy_get ..).trans h)
    obtain ⟨hread, hreread⟩ := primaryJam_read r s
    refine ⟨_, rfl, ?_⟩
    rw [report_primary hlive]
    refine ⟨hprimary, hseq, hsecondary, hlast, hattn, hpause, hschedule, hup, hloop, fun h => (hdown h).1, hupTracking,
      hloopTracking, fun h => (hdown h).2, primaryJam_queue r s, primaryJam_state r s, fun hjammed => ?_, fun hstop => ?_,
      fun hroom hall => ?_, hread, hreread, fun x hx => ?_, fun hbooks => ⟨fun hjammed => ?_, primaryJam_launched r hbooks,
      fun hstop => ?_⟩, primaryJam_kept r s⟩
    · obtain ⟨hroom, -, hnil⟩ := primaryJam_jammed hjammed
      exact ⟨hnil, hroom⟩
    · obtain ⟨m, ht⟩ := primaryJam_stopping hstop
      rw [ht]
      exact fun x hx hx' => primaryMarked_inPath r s x hx ((hstranded x).mpr hx')
    · rw [primaryJam_jams hroom (allFrozen_of_stranded r s fun x hx => ?_)]
      · exact jammedEntry_state _
      · exact (hall x hx).imp_right (Or.imp_right (And.imp_right (hstranded x).mpr))
    · obtain ⟨hring, hcompares⟩ := primaryJam_withdrawn r s x hx
      refine ⟨primaryJam_gone r s x hx, hring, fun q hq howner => ?_⟩
      have hnot := hcompares q hq
      rw [howner] at hnot
      simp [CompareOwner.isOf] at hnot
    · obtain ⟨-, hall, -⟩ := primaryJam_jammed hjammed
      exact fun x hx => (stranded_of_allFrozen r hbooks hall x hx).imp_right (Or.imp_right (And.imp_right (hstranded x).mp))
    · obtain ⟨m, ht⟩ := primaryJam_stopping hstop
      rw [ht]
      exact ⟨primaryMarked_ids r hbooks, (primaryMarked_counts r hbooks).2, primaryMarked_table r hbooks,
        primaryMarked_interrupted r hbooks, primaryMarked_window r hbooks⟩
  · intro stranded marked
    refine ⟨rfl, ?_⟩
    have hmarked : s.toMarkJam = s.track.sheets.filter marked := List.filter_congr fun x _ => by
      rw [isNone_eq_beq]
    rw [← hmarked]
    rfl
  · intro stopped stranded scheduled lost classified marked hstop
    rw [report_primary hlive] at hstop ⊢
    obtain ⟨m, ht⟩ := primaryJam_stopping hstop
    have hlost : ∀ m, lost m = (s.primaryDropped.filter (·.mp = m.id)).length := fun m => by
      rw [primaryDropped, droppedBy, List.filter_filter]
      refine congrArg List.length (List.filter_congr fun x _ => ?_)
      rw [Bool.and_comm]
      exact congrArg (· && scheduled x) (Bool.beq_eq_decide_eq ..)
    have hmail : classified.mail = { s.mail with table := s.mail.table.map (mpDropped s.primaryDropped) } := by
      refine congrArg (fun table : List Mailpiece => ({ s.mail with table := table } : Mail)) (List.map_congr_left fun m _ => ?_)
      rw [mpDropped, ← hlost]
    have hsheets : classified.track.sheets = (s.track.sheets.filter fun x => !scheduled x).map
        (frozenBy (isStranded (stoppedBy r.place.sections))) :=
      List.map_congr_left fun x _ => by rw [frozenBy, isStranded_eq]
    rw [ht]
    exact primaryJam_marks r s hbooks hmail hsheets rfl
  · intro downToo
    refine ⟨_, rfl, ?_⟩
    rw [report_primary hlive]
    refine ⟨fun hstop hdown => ?_, fun hstop => ?_, fun hroom hstop => primaryJam_stopping_mem hroom hstop, fun hfull => ?_⟩
    · obtain ⟨m, ht⟩ := primaryJam_stopping hstop
      rw [ht]
      exact primaryMarked_down r s hdown
    · obtain ⟨m, ht⟩ := primaryJam_stopping hstop
      rw [ht]
      exact primaryMarked_deadlines r s
    · rw [primaryJam_full hfull]
      exact ⟨primaryQueued_state (s := s) (r := r), rfl⟩

end Sys2Proof.Machine
end
